-- ==== Sys2Proof/Word.lean ====
section
/-! DEFINITION. The word and byte types of the C1640 and the widths of its numbers. -/

namespace Sys2Proof

/-- A page register is 32 bits wide (R27). -/
abbrev Word := BitVec 32

/-- The smallest addressable unit of the 40-bit internal address space (R45). -/
abbrev Byte := BitVec 8

/-- Frame numbers are 48 bits wide (R60). -/
abbrev frameModulus : Nat := 2 ^ 48

end Sys2Proof
end

