-- ==== Sys2Proof/Syntax.lean ====
section
/-! DEFINITION. The commands of the C1640: one constructor for each row of the opcode table. The table gives no operand
fields; the operands here are the model's (log entry 2): who issues a command, the word it writes, the index it
names, and what the outside world brings with it. -/

namespace Sys2Proof

/-- How a master addresses the block: BAR0 with byte enables, the MSI-X BAR, or the internal address map (R26, R27,
R45). -/
inductive BusAccess where
  | bar0 (off : Nat) (enables : BitVec 4)
  | bar4 (off : Nat)
  | internal (addr : Nat)
  deriving DecidableEq, Repr

/-- Where a read of a register counts its offset from: a page, BAR4 (M0), the internal address map (R26, R27, R45). -/
inductive ReadSpace where
  | page (page : Fin 4096)
  | bar4
  | internal
  deriving DecidableEq, Repr

/-- A write burst in flight when its master is reset: where it begins, what it would write, and how many of its 32-byte beats
the target has accepted (R52). -/
structure BurstCut where
  addr : Nat
  bytes : List Byte
  accepted : Nat
  deriving DecidableEq, Repr

/-- A write of MST_CTRL with RESET, and what its master has in flight: its write bursts and the number of its reads (R52). -/
structure ResetWrite where
  word : Word
  bursts : List BurstCut
  reads : Nat
  deriving DecidableEq, Repr

/-- A loss of M0's port: whether the PCI Express link is lost, and what the master has in flight (R51, R52). -/
structure PortLoss where
  linkLost : Bool
  bursts : List BurstCut
  reads : Nat
  deriving DecidableEq, Repr

/-- The transaction that a target has not completed in time (R48): a read or a write of a master, or the posted write of the
management SPI. -/
inductive TimedOut where
  | read (m : Fin 8)
  | write (m : Fin 8)
  | spi
  deriving DecidableEq, Repr

/-- A target that has not completed a transaction in time, and that transaction (none: one without an effect here) (R48). -/
structure Timeout where
  target : Fin 8
  victim : Option TimedOut
  deriving DecidableEq, Repr

/-- What the ECC of a Vat read finds (R100). -/
inductive Ecc where
  | clean | corrected | uncorrectable
  deriving DecidableEq, Repr


/-- An embedded audio group in a line (R245): its number 1 to 8, whether its packets pass their checks, the rate and flag of
its control packet, and the samples of its four channels. -/
structure SdiGroup where
  group : Nat
  ok : Bool
  rate48 : Bool
  async : Bool
  samples : List Nat
  deriving DecidableEq, Repr

/-- A received SDI line: its number, whether EAV and SAV, line number and CRC are right, whether its timing is that of the locked
format, its packed active picture, its embedded audio. -/
structure SdiLine where
  line : Nat
  trsOk : Bool
  fits : Bool
  numberOk : Bool
  crcOk : Bool
  picture : List Byte
  audio : List SdiGroup
  deriving DecidableEq, Repr

/-- What a complete received SDI frame shows: its raster, sampling, depth and link as TRS and payload give them, the ST 352
payload where there is one, and the link number it names in a quad-link payload. -/
structure SdiFrame where
  struct : Nat
  rate : Nat
  sampling : Nat
  depth : Nat
  link : Nat
  payload : Option Nat
  quadLink : Option Nat
  deriving DecidableEq, Repr

/-- A received ST 291 packet: line, area, data stream, word offset, identifiers, data words, and whether its checksum is
right (R119). -/
structure AncPacket where
  line : Nat
  hanc : Bool
  ds : Nat
  offset : Nat
  did : Nat
  sdid : Nat
  words : List Nat
  sumOk : Bool
  deriving DecidableEq, Repr

/-- A received Ethernet frame: its bytes from the destination address to the FCS, the FEC codewords that could not be
corrected, and the time stamp of its first symbol in seconds and nanoseconds (R129, R143). -/
structure EthFrame where
  bytes : List Byte
  fecUe : Nat
  sec : Nat
  ns : Nat
  deriving DecidableEq, Repr

/-- A Sync as the PTP client takes it, with its Follow_Up in two-step form (R144): the master's clock identity and port,
domain, send time and correction in nanoseconds, the master's addresses. -/
structure PtpSync where
  clock : Nat
  port : Nat
  domain : Nat
  t1 : Nat
  corr : Int
  ip : Nat
  mac : Nat
  deriving DecidableEq, Repr

/-- A Delay_Resp: the master's clock identity and port, domain, the request it answers, the time at which that arrived (R144). -/
structure PtpResp where
  clock : Nat
  port : Nat
  domain : Nat
  seq : Nat
  t4 : Nat
  deriving DecidableEq, Repr

/-- A packet that a send slot's schedule places (R139): for video the raster lines it carries with byte offset and length in
the packed line; none of an ancillary or audio packet. -/
structure IpPacket where
  parts : List (Nat × Nat × Nat)
  deriving DecidableEq, Repr

/-- What a cell's cadence detection finds of one field of its source (R162): the field, whether it fits a 2:2 and a 3:2 pattern of field
differences, whether an original picture begins with it. -/
structure FieldNote where
  seq : Nat
  second : Bool
  fits22 : Bool
  fits32 : Bool
  starts : Bool
  deriving DecidableEq, Repr

/-- What a cell's picture analysis measures up to an output frame or field (R162, R166): the new fields of its source in their order,
and the match confidence, 0 to 255, of blocks of the pair of pictures, by column and row of blocks, 255 where none is given. -/
structure CnvFrame where
  fields : List FieldNote
  blocks : List (Nat × Nat × Nat)
  deriving DecidableEq, Repr

/-- A check on the datapath that fails (R307): the line seal of a flow, or the residue check of a conversion cell or of a
layer cell; a bank of the shuffler. -/
inductive CheckFail where
  | flowSeal (flow : Fin 4096)
  | cnvCell (n : Fin 16) (cell : Fin 4)
  | cpoCell (n : Fin 16) (cell : Fin 8)
  | ashBank (bank : Fin 24)
  deriving DecidableEq, Repr

/-- Names an output raster (R210). -/
inductive RasterId where
  | sditx (n : Fin 96)
  | ipp (p : Fin 8) (raster : Fin 16)
  | cpo (n : Fin 16)
  deriving DecidableEq, Repr

/-- What a raster finds as a line begins: the line's number, the layers, or egress flows, that have no data for it
(R226). -/
structure LineInput where
  line : Nat
  missing : List Nat
  deriving DecidableEq, Repr

/-- What the pins of a serial audio port give and show at a frame: the two samples received, whether a word-select edge was
seen and whether it lay in its expected place (R252). -/
structure AudioFrame where
  left : BitVec 24
  right : BitVec 24
  edge : Bool
  inPlace : Bool
  deriving DecidableEq, Repr

/-- How an eye scan ends (R272): the counts of the grid in order, without power, or with the lane down. -/
inductive EyeResult where
  | ok (counts : List Nat)
  | deferred
  | laneDown
  deriving DecidableEq, Repr

/-- The line bits of a block as a Gylos lane receives them, with the stuffing bits that fall into it (R264). -/
structure GylosBlock where
  bits : List Bool
  deriving DecidableEq, Repr

/-- A segment record as a fabric port receives it (R278, R279): header fields, the routing header (DST_DEV, SRC_TB, FRAME)
where RTE = 1, the data; whether bytes of it lay in an errored block, and whether its block was encrypted. -/
structure SegRecord where
  srcDev : BitVec 14
  srcFlow : Fin 4096
  line : Nat
  seg : Nat
  ty : Nat
  last : Bool
  next : Fin 8
  hops : Fin 8
  ports : BitVec 28
  lineSeal : BitVec 32
  route : Option (BitVec 14 × Fin 4 × BitVec 48)
  data : List Byte
  errored : Bool
  enc : Bool
  deriving DecidableEq, Repr

/-- A DELAY_REQ as it arrives (R287): exchange number, whether its block is a replay, and the receive and transmit stamps of
the answer in picoseconds. -/
structure DelayReqMsg where
  num : BitVec 16
  replay : Bool
  t2 : BitVec 64
  deriving DecidableEq, Repr

/-- A DELAY_RESP as it arrives (R287): exchange number, whether its block is a replay, the stamps it carries and the stamp of
its arrival in picoseconds. -/
structure DelayRespMsg where
  num : BitVec 16
  replay : Bool
  t2 : Nat
  t3 : Nat
  t4 : Nat
  deriving DecidableEq, Repr

/-- A BEACON as it arrives (R288): the lane, its payload, the stamp of its arrival in picoseconds. -/
structure BeaconMsg where
  lane : Fin 4
  tb : Fin 4
  state : Fin 8
  struct : Nat
  rate : Nat
  depth : Fin 16
  srcDev : BitVec 14
  line : Nat
  frame : BitVec 48
  phasePs : BitVec 32
  rxPs : Nat
  deriving DecidableEq, Repr

/-- An FEVT block as it arrives (R291), and whether it was encrypted. -/
structure FevtMsg where
  tag : BitVec 16
  origin : BitVec 14
  next : Fin 8
  hops : Fin 8
  ports : BitVec 28
  dst : BitVec 14
  ret : BitVec 32
  w0 : Word
  w1 : Word
  w2 : Word
  w3 : Word
  enc : Bool
  deriving DecidableEq, Repr

/-- An FEVT_ACK block as it arrives (R292), and whether it was encrypted. -/
structure FevtAckMsg where
  tag : BitVec 16
  next : Fin 8
  hops : Fin 8
  ports : BitVec 28
  code : Fin 16
  handle : BitVec 16
  enc : Bool
  deriving DecidableEq, Repr

/-- What a lead sends its shadow, or a twin its partner, over the Clasp (R301 to R305, R315, R319): a page write with the
cell in force; an event with its handle and words, its cancellation; a write into HBM; a Bezel message and the partner's
result of it; the lead's decisions (a pin take, a profile selection of the pins, the values a page's cell takes); the target
timestamp of a stream's commit; a join, its pairing state, a release, a handing over; a content of the join image. -/
inductive MirrorMsg where
  | write (page : Fin 4096) (cell : Nat) (off : Nat) (value : Word)
  | event (handle : BitVec 16) (w0 w1 w2 w3 : Word)
  | cancel (handle : BitVec 16)
  | hbm (addr : Nat) (bytes : List Byte)
  | bezel (cell : Fin 16) (bytes : List Byte)
  | bezelResult (cell : Fin 16) (ok : Bool)
  | pinTake (n : Fin 4) (following : Bool)
  | pinProfile (sel : Option (Fin 4))
  | decision (page : Fin 4096) (cell : Nat) (values : List Nat)
  | target (port : Fin 8) (slot : Fin 64) (timestamp : BitVec 32)
  | join
  | state (st : Fin 6)
  | release
  | handOver
  | field (page : Fin 4096) (cell : Nat) (slot : Nat) (value : Nat)
  | salvo (n : Fin 256) (entries : List (BitVec 64))
  | routeSet (n : Fin 256) (entries : List (BitVec 64))
  | lut (n : Fin 16) (cell : Fin 4) (sel : Nat) (bytes : List Byte)
  | bezelImage (cell : Fin 16) (bytes : List Byte)
  | profile (cell : Fin 4) (bytes : List Byte)
  deriving DecidableEq, Repr

/-- A seal of an output line that the partner sends (R308): flow, line, frame, the link or the packet that it covers, seal and LOCAL
bit; whether a case of R310 waives it. -/
structure SealMsg where
  flow : Fin 4096
  line : Nat
  frame : BitVec 48
  part : Nat
  lineSeal : BitVec 32
  localBit : Bool
  waived : Bool
  deriving DecidableEq, Repr

/-- What a device that joins finds of its partner (R315): reachable over an UP Clasp lane as a lead in DETACHED, its side,
whether part, step, firmware and page versions agree. -/
structure Partner where
  lead : Bool
  side : Bool
  same : Bool
  deriving DecidableEq, Repr

/-- An ECC error found at an access or by the scrub (R403, R322): in an HBM channel, with the address of a multi-bit error
and whether an engine records it on its own page first; in a working memory of a page. -/
inductive EccEvent where
  | hbm (channel : Fin 32) (multi : Bool) (addr : Nat) (recorded : Bool)
  | sram (page : Fin 4096) (multi : Bool)
  deriving DecidableEq, Repr

/-- The commands of the block, in the order of spec/opcode_table.json. `m` is the master that issues a command (R43). -/
inductive Instr where
  /-- POR_N held low for at least 1 µs and then released restarts the whole device, samples the straps, erases the Cave and starts the boot ROM. (R324) -/
  | coldReset (mapMode : Bool) (twinSide : Bool)
  /-- WRST_N held low for at least 1 µs restarts every engine, the housekeeping pair and the matrix; engines restore from the Cave under RESTORE_POLICY. (R327) -/
  | warmReset
  /-- Housekeeping firmware that has not serviced the watchdog for 100 ms causes a warm reset. (R56) -/
  | watchdogExpiry
  /-- DEV.RESET with the right KEY and SCOPE = 1 starts the reset of the engine named by PAGE: commits cancelled, grants released, lock freed. (R54) -/
  | devResetEngine (m : Fin 8) (page : Fin 4096)
  /-- DEV.RESET with SCOPE = 2 restarts the housekeeping pair, the matrix and the page-bus bridge while media keeps flowing. (R53) -/
  | devResetControl (m : Fin 8)
  /-- DEV.RESET with SCOPE = 3 requests a warm reset of the device. (R53) -/
  | devResetWarm (m : Fin 8)
  /-- The reset phase of an engine ends within 50 µs and the engine follows its RESTORE_POLICY using its Cave record. (R54) -/
  | engineResetDone (page : Fin 4096)
  /-- The control restart ends within 25 ms: firmware is verified and started, BAR0 answers again and the PAU resumes granting. (R53) -/
  | controlResetDone
  /-- A lockstep compare mismatch of the housekeeping pair records a fault and causes an automatic control reset. (R322) -/
  | lockstepFault
  /-- A PCI Express hot reset or link loss resets the matrix port of master M0 only. (R51) -/
  | pcieReset (x : PortLoss)
  /-- A write of MTX.MST_CTRL.RESET resets one master's port: its outstanding transactions are completed and discarded. (R52) -/
  | masterReset (m : Fin 8) (x : ResetWrite)
  /-- A reset master becomes QUIESCED within 2 µs; transactions still held by a target at that time are abandoned. (R52) -/
  | masterQuiesced (n : Fin 8)
  /-- A transaction not completed by its target within 8 µs completes with an error and is recorded as an interconnect fault. (R48) -/
  | targetTimeout (x : Timeout)
  /-- A parity error on a matrix path is recorded as an interconnect fault within 10 µs. (R48) -/
  | matrixParityError (t : Fin 8)
  /-- A write of MTX.CFG.REMAP under MAP_MODE = 1 requests that boot ROM and working SRAM swap places. (R49) -/
  | remapWrite (m : Fin 8) (w : Word)
  /-- A requested remap takes effect once no transaction to T0 or T1 is outstanding, and the requests held meanwhile are then decoded. (R50) -/
  | remapApply
  /-- A write to a page register that has no row of its own is handled by class, engine state, lock and access code. (R33) -/
  | registerWrite (m : Fin 8) (a : BusAccess) (w : Word)
  /-- A write to LOCK.HELD acquires or releases the engine lock for the writing master. (R31) -/
  | lockWrite (m : Fin 8) (page : Fin 4096) (w : Word)
  /-- A read of a _LO register latches the matching _HI register, and on some pages the rest of a record, for the reading master. (R28) -/
  | loRegisterRead (m : Fin 8) (space : ReadSpace) (off : Nat)
  /-- A read of an RC field returns its value and clears it. (R9) -/
  | rcRead (m : Fin 8) (page : Fin 4096) (off : Nat)
  /-- Unmasking an MSI-X vector sends the message only if some page on that vector still has a non-zero masked status. (R40) -/
  | msixUnmask (vector : Fin 512)
  /-- A write of COMMIT with AT_FRAME = 0 requests a commit at the engine's next commit point. (R35) -/
  | commitRequest (m : Fin 8) (page : Fin 4096)
  /-- A COMMIT with AT_FRAME = 1 enters a PAGE_COMMIT event or is refused with BAD_VALUE, COMMIT_LATE or SCHED_FULL. (R37) -/
  | commitAtFrame (m : Fin 8) (page : Fin 4096)
  /-- A write of CANCEL withdraws a pending commit and its scheduled event, and with COMMIT also set it requests a new commit. (R38) -/
  | commitCancel (m : Fin 8) (page : Fin 4096) (commit : Bool) (atFrame : Bool)
  /-- At a commit point's capture instant a pending commit is captured and the shadow copies are frozen. (R35) -/
  | commitCapture (page : Fin 4096)
  /-- At a frame-boundary commit point captured SHADOW fields move to active, COMMIT clears and COMMIT_DONE is set. (R35) -/
  | frameCommitPoint (page : Fin 4096)
  /-- A configuration register that fails parity is reloaded from its Cave record and a CONFIG_UPSET fault is recorded. (R39) -/
  | configParityError (page : Fin 4096) (cell : Nat) (off : Nat) (lo : Nat)
  /-- The background compare covers every Cave record against its registers once in each 4 ms. (R330) -/
  | configComparePass
  /-- A write of TB CTRL.RUN = 1 starts the raster counter and enters FREE or ACQUIRE. (R61) -/
  | tbRun (m : Fin 8) (k : Fin 4) (w : Word)
  /-- A write of RUN = 0 stops the counter and flushes the timebase's pending events. (R69) -/
  | tbStop (m : Fin 8) (k : Fin 4) (w : Word)
  /-- A write of PRESET_ARM.ARM arms a preset frame number to be loaded at the next frame boundary, or when RUN takes effect. (R62) -/
  | presetArm (m : Fin 8) (k : Fin 4)
  /-- An H edge on REFA or REFB is a sync event, placed by the V line count and filtered under R66. (R57) -/
  | refHEdge (refB : Bool) (line : Nat)
  /-- Sync events absent for the loss interval of the source put the timebase into HOLDOVER with a LOSS interrupt and a fault record. (R65) -/
  | tbLoss (k : Fin 4)
  /-- A frame period that differs by more than 500 ppm for 3 frames puts the timebase into MISMATCH. (R68) -/
  | tbRateMismatch (k : Fin 4)
  /-- The raster counter reaches a frame boundary: the frame number advances, presets load and jumps apply. (R60) -/
  | tbFrameBoundary (k : Fin 4)
  /-- Two lines before a switch line the Rind opens: shadow copies and slot masks are captured and the bulk take copies begin. (R72) -/
  | rindOpen (k : Fin 4) (line : Nat)
  /-- At the end of the switch line the Rind closes and staged SHADOW writes join the shadow copy. (R73) -/
  | rindClose (k : Fin 4)
  /-- Two segment slots before a switch point the shadow crosspoint bank closes and every entry for that point is captured. (R94) -/
  | armPoint (k : Fin 4) (line : Nat)
  /-- At a switch point takes, switch-line commits and audio routes become visible together in the order of R79. (R71) -/
  | switchPoint (k : Fin 4) (line : Nat)
  /-- EV_SUBMIT.GO checks the staged event and enters it with a handle, or refuses it with a result code. (R77) -/
  | eventSubmit (m : Fin 8)
  /-- A write of EV_CANCEL withdraws a pending event, or reports TOO_LATE, NOT_FOUND or BAD_KIND. (R80) -/
  | eventCancel (m : Fin 8) (handle : BitVec 16)
  /-- A NOTIFY event at its point pushes its handle into the done log. (R76) -/
  | notifyEvent (handle : BitVec 16)
  /-- A read of DONE returns the oldest handle and removes it from the log. (R81) -/
  | doneRead (m : Fin 8)
  /-- SALVO_OP = LOAD checks the request and starts reading the salvo entries from memory. (R82) -/
  | salvoLoad (m : Fin 8)
  /-- A salvo load completes within 20 µs, replacing the salvo atomically or refusing it with BAD_ARG. (R82) -/
  | salvoLoadDone
  /-- SALVO_OP = DELETE frees a salvo's entries unless it is busy or named by a pending event. (R82) -/
  | salvoDelete (m : Fin 8)
  /-- A salvo delete completes within 2 µs and writes its result code. (R82) -/
  | salvoDeleteDone
  /-- A copy on the late write port finishes, and any waiting pin copy or late TAKE copy then starts. (R96) -/
  | lateCopyDone
  /-- A qualified rising edge on an armed TAKE pin sets PENDING and starts copying its salvo for the next or following switch point. (R97) -/
  | takePinEdge (n : Fin 4)
  /-- A pin that falls less than 20 ns after its edge withdraws the take and removes its copied entries. (R97) -/
  | takePinRunt (n : Fin 4)
  /-- A write of PIN_CFG arms or disarms a TAKE pin, and is held while a take on that pin is pending. (R97) -/
  | pinCfgWrite (m : Fin 8) (n : Fin 4) (w : Word)
  /-- FLOW_CMD ALLOC assigns the lowest free flow context, or returns NO_CONTEXT. (R85) -/
  | flowAlloc (m : Fin 8) (w : Word)
  /-- FLOW_CMD FREE releases the selected flow, its crosspoint entry and its frame store, or refuses the request. (R85) -/
  | flowFree (m : Fin 8) (w : Word)
  /-- A write to CTX0–CTX7 updates a flow context, enabling it, allocating its frame store or refusing the store change. (R86) -/
  | flowCtxWrite (m : Fin 8) (n : Fin 8) (w : Word)
  /-- A write of FLOW_COMMIT.COMMIT requests the selected flow's cell commit at its next switch point. (R86) -/
  | flowCommit (m : Fin 8)
  /-- A write of FLOW_COMMIT.CANCEL withdraws the selected flow's pending cell commit. (R38) -/
  | flowCommitCancel (m : Fin 8) (commit : Bool)
  /-- An ingress passes an 8-byte fragment of a tagged segment into the switching core and the Vat. (R17) -/
  | segmentIngress (flow : Fin 4096) (line : Nat) (seg : Nat) (frag : Nat) (bytes : List Byte) (last : Bool)
  /-- An egress or writer reads a segment fragment from the Vat within its residence, with ECC checked. (R100) -/
  | egressSegmentRead (flow : Fin 4096) (line : Nat) (seg : Nat) (frag : Nat) (last : Bool) (bank : Fin 66) (ecc : Ecc)
  /-- VAT_CTRL.FENCE fences the selected bank, draining it onto a spare or re-forming the interleave. (R101) -/
  | vatFence (m : Fin 8) (w : Word)
  /-- Within 33 µs the fenced bank becomes FENCED and its spare becomes IN_SERVICE. (R101) -/
  | vatDrainDone (bank : Fin 66)
  /-- VAT_CTRL.TEST starts a 2 ms march test of a FENCED or TEST_FAILED bank. (R103) -/
  | vatTest (m : Fin 8) (w : Word)
  /-- A march test ends: the bank reads FENCED and tested, or TEST_FAILED. (R103) -/
  | vatTestDone (bank : Fin 66) (pass : Bool)
  /-- VAT_CTRL.UNFENCE returns a tested FENCED bank to SPARE or IN_SERVICE. (R103) -/
  | vatUnfence (m : Fin 8) (w : Word)
  /-- An ingress that produces no segments for 2 line periods is lost: SRC_LOST is set and egresses follow their policies. (R93) -/
  | sourceLoss (flow : Fin 4096)
  /-- At each frame start an egress chooses bypass or frame store and selects its buffer, returning from loss where segments came back. (R92) -/
  | egressFrameStart (flow : Fin 4096)
  /-- A signal detected at an SDI receive ball moves the receiver to WAIT_POWER and posts its adaptation request. (R108) -/
  | sdiSignalDetect (n : Fin 96)
  /-- Under AUTO the receiver gives up a link rate after 0.8 ms and tries the next. (R109) -/
  | sdiRateTryTimeout (n : Fin 96)
  /-- A received SDI line is checked for TRS, line number and CRC, counted if errored and forwarded. (R110) -/
  | sdirxLine (n : Fin 96) (l : SdiLine)
  /-- The end of a received frame advances ALIGNING to LOCKED, UNSUPPORTED or WAIT_GROUP, or ends LOCKED after a payload change. (R108) -/
  | sdirxFrameEnd (n : Fin 96) (f : SdiFrame)
  /-- Four waiting quad-link members whose payloads and skew agree form the group and enter LOCKED. (R117) -/
  | quadGroupForm (n : Fin 96) (skewNs : Nat)
  /-- Loss of signal is detected within 10 µs: NO_SIGNAL, segments stop and a lane-loss fault is recorded. (R111) -/
  | sdiSignalLoss (n : Fin 96)
  /-- A received ST 291 packet is matched against the filters and extracted, or counted and dropped. (R119) -/
  | ancPacketReceive (n : Fin 96) (p : AncPacket)
  /-- The re-rate gap of an SDI lane ends within 120 µs and REGAP_DONE is set. (R124) -/
  | regapDone (n : Fin 96)
  /-- Loss of lock on an IP lane takes its link DOWN within 10 µs and records a lane-loss fault. (R128) -/
  | ipLaneLoss (p : Fin 8) (lane : Fin 4)
  /-- A received Ethernet frame is checked, verified by MACsec and delivered to a matching stream slot or to the host queue. (R131) -/
  | ipFrameReceive (p : Fin 8) (link : Fin 4) (f : EthFrame)
  /-- A write of STRM_COMMIT.COMMIT requests the selected slot's commit, which is refused on oversubscription or a broken limit. (R133) -/
  | strmCommit (m : Fin 8) (p : Fin 8)
  /-- A write of STRM_COMMIT.CANCEL withdraws the selected slot's pending commit. (R38) -/
  | strmCommitCancel (m : Fin 8) (p : Fin 8) (commit : Bool)
  /-- An ALIGNED stream releases a line from its HBM buffer at t(L) against the governing timebase. (R135) -/
  | ipLineRelease (p : Fin 8) (slot : Fin 64)
  /-- A stream with no packets for 2 line periods or 2 packet times clears RECEIVING and its source is lost. (R137) -/
  | ipStreamLoss (p : Fin 8) (slot : Fin 64)
  /-- A protection path with no packets for 1 ms reads PATHn_UP = 0 and raises the PATH interrupt. (R141) -/
  | ipPathLoss (p : Fin 8) (slot : Fin 64) (path2 : Bool)
  /-- A send slot emits a scheduled packet, with MACsec protection and a copy on path 2 where enabled. (R139) -/
  | ipPacketSend (p : Fin 8) (slot : Fin 64) (x : IpPacket)
  /-- A Sync from the selected master yields one offset sample for the timebase. (R144) -/
  | ptpSyncReceive (p : Fin 8) (link : Fin 4) (x : PtpSync)
  /-- The PTP client sends a Delay_Req 2^DREQ_LOG times per second. (R144) -/
  | ptpDelayReqSend (p : Fin 8) (link : Fin 4)
  /-- A Delay_Resp from the master updates the mean path delay. (R144) -/
  | ptpDelayRespReceive (p : Fin 8) (link : Fin 4) (x : PtpResp)
  /-- A write of PTP_MID or MPORT restarts the client and discards its delay average. (R145) -/
  | ptpClientRestart (m : Fin 8) (p : Fin 8) (off : Nat) (w : Word)
  /-- A read of RXQ_DATA returns the next record word, and the record leaves the queue at its last word. (R149) -/
  | rxqDataRead (m : Fin 8) (p : Fin 8)
  /-- A write of TXQ_DATA appends a header or frame word to the transmit record being built. (R150) -/
  | txqDataWrite (m : Fin 8) (p : Fin 8) (w : Word)
  /-- A write of TXQ_PUSH queues the host frame, or refuses it with TXQ_FULL. (R150) -/
  | txqPush (m : Fin 8) (p : Fin 8)
  /-- A write of CNV CTRL.EN = 1 posts a 3.2 W power request and waits in WAIT_POWER. (R173) -/
  | cnvStart (m : Fin 8) (n : Fin 16) (w : Word)
  /-- Within 100 µs of the grant the slice pipeline is loaded and READY and RUNNING read 1. (R173) -/
  | cnvPipelineReady (n : Fin 16)
  /-- A write of CTRL.EN = 0 stops the slice at the end of the current output frame and releases its grant. (R173) -/
  | cnvStop (m : Fin 8) (n : Fin 16) (w : Word)
  /-- At each output frame boundary a cell chooses pictures A and B and phase φ, or slips, or starts or stops producing. (R165) -/
  | cnvOutputFrame (n : Fin 16) (cell : Fin 4) (x : CnvFrame)
  /-- CELL_CTRL.RESET in QUAD mode stops one cell at once while keeping its settings. (R175) -/
  | cnvCellReset (m : Fin 8) (n : Fin 16)
  /-- LUT_OP LOAD starts loading a LUT into the shadow LUT bank of the selected cell, or refuses with BUSY. (R170) -/
  | lutLoad (m : Fin 8) (n : Fin 16) (w : Word)
  /-- A LUT load completes within 40 µs, or fails with BAD_ARG, and LUT_DONE is set. (R170) -/
  | lutLoadDone (n : Fin 16)
  /-- A seal or residue check on the datapath fails, so a DATAPATH_LOCAL fault is recorded and the twin's LOCAL bit set. (R307) -/
  | datapathCheckFail (x : CheckFail)
  /-- A write of CPO CTRL.EN = 1 posts a 1.8 W request; READY follows within 100 µs of the grant. (R208) -/
  | cpoStart (m : Fin 8) (n : Fin 16) (w : Word)
  /-- A write of CTRL.EN = 0 stops the compositor at the end of its frame and releases its leases and grant. (R208) -/
  | cpoStop (m : Fin 8) (n : Fin 16) (w : Word)
  /-- A write of L_COMMIT requests a layer commit, scheduling a LAYER_COMMIT event when AT_FRAME = 1. (R189) -/
  | layerCommit (m : Fin 8) (n : Fin 16) (atFrame : Bool)
  /-- A write of L_COMMIT.CANCEL withdraws the layer's pending commit and its event. (R38) -/
  | layerCommitCancel (m : Fin 8) (n : Fin 16) (commit : Bool) (atFrame : Bool)
  /-- At the compositor commit point the header and layer commits are checked in order, and applied or refused. (R190) -/
  | cpoCommitPoint (n : Fin 16)
  /-- A master's write into HBM is performed, or dropped when it falls in a leased range or in the device region. (R197) -/
  | hbmWrite (m : Fin 8) (addr : Nat) (bytes : List Byte)
  /-- A write of CELL_KEY with BIND = 1 and a loaded DECRYPT-only slot binds a Bezel cell to that key. (R199) -/
  | bezelBind (m : Fin 8) (w : Word)
  /-- A write of MSG_GO starts reading and verifying a Bezel message, or refuses it with a result code. (R202) -/
  | bezelMsgGo (m : Fin 8)
  /-- Bezel verification ends: RESULT is written, DONE is set and an accepted message waits for its commit point. (R203) -/
  | bezelVerifyDone (cell : Fin 16)
  /-- A write of RST_COMMIT on an IPP raster requests the raster's commit, at a named raster frame with AT_FRAME. (R215) -/
  | rasterCommit (m : Fin 8) (p : Fin 8) (atFrame : Bool)
  /-- A write of RST_COMMIT.CANCEL withdraws the raster's pending commit. (R38) -/
  | rasterCommitCancel (m : Fin 8) (p : Fin 8) (commit : Bool) (atFrame : Bool)
  /-- At the start of the last line of a raster frame the raster's commit is captured. (R214) -/
  | rasterCapture (r : RasterId)
  /-- At line 1 of a raster frame the captured raster settings apply, or are refused with RST_CFG. (R216) -/
  | rasterCommitPoint (r : RasterId)
  /-- A raster begins a line of its output: data is fetched, embedded and sent. (R212) -/
  | rasterLineStart (r : RasterId) (x : LineInput)
  /-- At the start of its last active line a raster decides the length of the frame, for an adjustment or an elastic slew. (R218) -/
  | rasterLastActiveLine (r : RasterId)
  /-- At each bottom-blanking line from VB_MIN a content-ready raster tests its REQUIRED layers to end the frame. (R221) -/
  | contentReadyLineTest (r : RasterId)
  /-- At frame end a raster computes its signature and updates its freeze count. (R227) -/
  | rasterFrameEnd (r : RasterId)
  /-- A raster starts a new format at the first boundary after the old frame, black, and sets FORMAT_START. (R224) -/
  | formatStart (r : RasterId)
  /-- A write of ROUTE changes the route of an output channel from its next sample, or holds it behind a running ramp. (R234) -/
  | routeWrite (m : Fin 8) (w : Word)
  /-- A ramp of a channel ends, and any held change of that channel begins. (R236) -/
  | routeRampDone (out : Fin 6144)
  /-- RS_OP LOAD starts loading a route set, or refuses it. (R237) -/
  | routeSetLoad (m : Fin 8)
  /-- A route-set load completes within 120 µs and RS_DONE is set. (R237) -/
  | routeSetLoadDone
  /-- RS_OP DELETE frees a route set's entries unless the set is busy. (R237) -/
  | routeSetDelete (m : Fin 8)
  /-- An ASRC channel locks within 20 ms of its first input sample and its output fades in. (R243) -/
  | asrcLock (unit : Fin 4) (ch : Fin 128)
  /-- A channel that has not crossed zero within ZC_TIMEOUT fades in or out over 64 samples. (R248) -/
  | zeroCrossTimeout (page : Fin 4096) (channel : Nat) (cell : Nat)
  /-- A write of AUP CTRL.EN = 1 starts the port at its next frame, or arms it for a Rennet. (R253) -/
  | aupEnable (m : Fin 8) (n : Fin 32) (w : Word)
  /-- A write of EN = 0 lets each channel reach its zero crossing or fade out before the port stops. (R253) -/
  | aupDisable (m : Fin 8) (n : Fin 32) (w : Word)
  /-- The port stops its frames, RUNNING clears and STOPPED is set. (R253) -/
  | aupStopped (n : Fin 32)
  /-- A RENNET event at its (line, sample) starts the armed ports of its timebase and pulses RENNET_OUT. (R254) -/
  | rennetEvent (handle : BitVec 16)
  /-- A rising edge on RENNET_IN starts the ports armed for the pin and pulses RENNET_OUT. (R254) -/
  | rennetPinEdge
  /-- RENNET_OUT falls 1 µs after the rise of the latest Rennet. (R254) -/
  | rennetOutEnd
  /-- A port moves one sample frame between its pins, flow and Hoop, handling underrun or overrun. (R257) -/
  | aupFrame (n : Fin 32) (x : AudioFrame)
  /-- A slave port with no WS edge for 2 sample periods enters HOLDOVER and sets LOSS. (R252) -/
  | aupWsLoss (n : Fin 32)
  /-- A slave rate out of RATE_TOL for 10 ms enters MISMATCH and sets RATE_CHANGE. (R252) -/
  | aupRateMismatch (n : Fin 32)
  /-- The WS rate is measured over 100 ms, and RATE_CHANGE is set where the class or the rate moves. (R251) -/
  | aupRateMeasure (n : Fin 32) (rate : Nat)
  /-- Every 1 ms the buffer-level loop recomputes the NCO offset from the Hoop fill. (R259) -/
  | aupLoopTick (n : Fin 32)
  /-- A host write of HOOP_WR or HOOP_RD moves the pointer, or is dropped with PTR_OWNER or PTR_RANGE. (R256) -/
  | hoopPointerWrite (m : Fin 8) (n : Fin 32) (rd : Bool) (w : Word)
  /-- LANE_CTRL.ADAPT, an engine start or a returning signal makes a lane post its 0.4 W request and adapt. (R270) -/
  | laneAdapt (m : Fin 8) (page : Fin 4096)
  /-- Adaptation converges within 2 ms of the grant and the grant is released. (R270) -/
  | laneAdaptDone (page : Fin 4096) (lane : Fin 4)
  /-- EYE_CTRL.START checks the grid and posts a 0.15 W request to scan the lane. (R271) -/
  | eyeScanStart (m : Fin 8) (page : Fin 4096)
  /-- EYE_CTRL.ABORT ends the running scan with ABORTED. (R272) -/
  | eyeScanAbort (m : Fin 8) (page : Fin 4096)
  /-- A scan ends with OK, DEFERRED or LANE_DOWN and sets the LANE interrupt. (R272) -/
  | eyeScanDone (page : Fin 4096) (lane : Fin 4) (r : EyeResult)
  /-- A Gylos lane builds and sends its next block by precedence, with masking, scrambling and stuffing. (R262) -/
  | gylosBlockSend (page : Fin 4096) (lane : Fin 4)
  /-- A received Gylos block is destuffed, its header validated and the block forwarded, or marked errored. (R266) -/
  | gylosBlockReceive (page : Fin 4096) (lane : Fin 4) (b : GylosBlock)
  /-- A received LINK_NAK makes the transmitter send LINK_REPLAY and resend the held blocks. (R268) -/
  | linkNak (page : Fin 4096) (lane : Fin 4) (seq : Nat)
  /-- A received LINK_REPLAY starts acceptance of the replayed blocks, or reports REPLAY_LOST. (R268) -/
  | linkReplay (page : Fin 4096) (lane : Fin 4) (lost : Bool)
  /-- A receiver that sees no LINK_REPLAY 1 µs after its LINK_NAK sends the NAK again. (R268) -/
  | linkNakTimeout (page : Fin 4096) (lane : Fin 4)
  /-- A Gylos lane that loses headers, transitions, lock or replay is lost within 10 µs and records a fault. (R269) -/
  | gylosLaneLoss (page : Fin 4096) (lane : Fin 4) (signal : Bool)
  /-- A write of FAB CTRL.EN = 1 posts one 0.6 W training request for the port's four lanes, or stays OFF with ID_UNSET. (R275) -/
  | fabPortStart (m : Fin 8) (p : Fin 16) (w : Word)
  /-- Every 1 ms a port sends a HELLO on its lowest UP lane. (R275) -/
  | helloSend (p : Fin 16)
  /-- A received HELLO updates NEIGHBOUR, or sets ID_CLASH where it carries the device's own ID. (R275) -/
  | hello (p : Fin 16) (dev : BitVec 14) (port : Fin 16)
  /-- No HELLO for 3 ms clears NBR_VALID. (R275) -/
  | neighbourTimeout (p : Fin 16)
  /-- A received segment record is forwarded, delivered to a slot or dropped by its route. (R281) -/
  | segmentRecordReceive (p : Fin 16) (r : SegRecord)
  /-- Every 1 ms each UP lane starts a link-delay exchange with a stamped DELAY_REQ. (R287) -/
  | delayReqSend (p : Fin 16) (lane : Fin 4)
  /-- A received DELAY_REQ is answered with a stamped DELAY_RESP. (R287) -/
  | delayReq (p : Fin 16) (lane : Fin 4) (x : DelayReqMsg)
  /-- A received DELAY_RESP updates the mean inbound delay d_in. (R287) -/
  | delayResp (p : Fin 16) (lane : Fin 4) (x : DelayRespMsg)
  /-- A port with BEACON_OUT set sends one BEACON per line of the timebase. (R288) -/
  | beaconSend (p : Fin 16) (k : Fin 4)
  /-- A received beacon forms a sync event for a timebase that follows it, and updates BEACON_STAT. (R289) -/
  | beacon (p : Fin 16) (b : BeaconMsg)
  /-- FEVT_SUBMIT.GO sends the staged event as an FEVT block, or refuses it with a result code. (R291) -/
  | fevtSubmit (m : Fin 8)
  /-- An FEVT block at its destination is entered into the Event Schedule and acknowledged on the reversed path. (R292) -/
  | fevt (p : Fin 16) (x : FevtMsg)
  /-- An acknowledgement at the origin is pushed into the acknowledgement log. (R292) -/
  | fevtAck (p : Fin 16) (x : FevtAckMsg)
  /-- An event not acknowledged within 200 µs is logged with NO_ACK. (R292) -/
  | fevtAckTimeout (tag : BitVec 16)
  /-- A read of FEVT_ACK returns and removes the oldest acknowledgement entry. (R292) -/
  | fevtAckRead (m : Fin 8)
  /-- A shadow applies a mirrored write, event or commit received over the Clasp. (R302) -/
  | mirrorReceive (x : MirrorMsg)
  /-- A twin compares the partner's output seal with its own and resolves any mismatch. (R308) -/
  | sealReceive (x : SealMsg)
  /-- At the reference output's next horizontal blanking the lead drives CO_OUT[g] to the new side. (R312) -/
  | changeover (g : Fin 12)
  /-- CO_IN that does not show the new side by T + 2 µs records CO_MISMATCH. (R312) -/
  | coMismatch (g : Fin 12)
  /-- CO_CMD.GO on the lead moves a changeover group to the named side, or is refused. (R313) -/
  | coCmd (m : Fin 8) (w : Word)
  /-- CLASP CTRL.LEAD makes a NONE device in DETACHED a solo lead. (R299) -/
  | claspLead (m : Fin 8)
  /-- CLASP CTRL.JOIN starts a join as shadow, or refuses it with JOIN_RESULT. (R315) -/
  | claspJoin (m : Fin 8) (partner : Partner)
  /-- The lead's snapshot has been copied and applied, and the pair enters JOIN_ALIGN. (R315) -/
  | joinCopyDone (image : List MirrorMsg)
  /-- Every TB_SKEW lies within ±10 ns, and the pair enters JOIN_FILL. (R315) -/
  | joinAlignDone
  /-- Alignment not reached in 10 s fails the join with ALIGN_TIMEOUT. (R315) -/
  | alignTimeout
  /-- Every frame store holds two complete frames, and the pair enters JOIN_COMPARE. (R315) -/
  | joinFillDone
  /-- Every output gives 16 agreeing frames and the pair reaches SHADOW_READY, or the join fails after three restarts. (R315) -/
  | joinCompareDone (agree : Bool)
  /-- A TB_SKEW beyond ±50 ns for one frame returns the pair to JOIN_ALIGN. (R316) -/
  | tbSkewExceeded (k : Fin 4) (ps : Int)
  /-- CLASP CTRL.RELEASE detaches the pair without a fault, handing over when written on the lead. (R319) -/
  | claspRelease (m : Fin 8)
  /-- Every 10 µs a twin toggles CLASP_HB_OUT and sends a heartbeat on each UP Clasp lane. (R317) -/
  | heartbeatSend
  /-- A heartbeat path silent for 100 µs is lost; a loss of both paths makes the lead solo and promotes the shadow. (R317) -/
  | twinLoss (laneOnly : Bool) (pinOnly : Bool)
  /-- An armed clock monitor that sees no edge for 1 µs reports STOP to FLT and to the owning engine. (R24) -/
  | clockStop (domain : Fin 365)
  /-- A domain frequency outside its window over 100 µs is reported as FREQ. (R24) -/
  | clockFreqError (domain : Fin 365)
  /-- A rail out of its window is reported within 5 µs as a SUPPLY record, and again once per second. (R406) -/
  | supplyOutOfWindow (rail : Fin 16) (above : Bool)
  /-- An HBM or SRAM ECC error found at access or scrub is corrected and counted, or recorded as MEM_UE. (R403) -/
  | memEccError (x : EccEvent)
  /-- A junction sensor 10 °C above the grade maximum asserts THERM_N until POR_N falls. (R424) -/
  | thermAlert
  /-- Within 20 µs of a change an engine's record batch is written into a journal slot. (R330) -/
  | caveRecordWrite (page : Fin 4096)
  /-- The Cave controller copies a complete journal batch into place and frees the slot. (R331) -/
  | caveJournalCopy
  /-- CAVE.CTRL.CLEAR with the right KEY invalidates every engine record, journal slot and image entry. (R334) -/
  | caveClear (m : Fin 8) (w : Word)
  /-- The full table image is written within 5 ms of HBM training and CURRENT is set. (R332) -/
  | imageWriteDone (page : Fin 4096)
  /-- A write of FW_DATA stores an image word and advances FW_ADDR. (R325) -/
  | fwDataWrite (m : Fin 8) (w : Word)
  /-- FW_CTRL.GO starts signature verification of the loaded image. (R325) -/
  | fwGo (m : Fin 8)
  /-- Verification ends with FW RUNNING and HBM training started, or with FW_BAD. (R325) -/
  | fwVerifyDone
  /-- HBM training completes within 100 ms of its grant, and HBM reads READY or FAILED. (R326) -/
  | hbmTrainingDone (pass : Bool) (failed : List (Fin 32))
  /-- A write of HBMWIN moves the BAR2 window, with WIN_BUSY set if an access is still in flight. (R398) -/
  | hbmwinWrite (m : Fin 8) (w : Word) (inFlight : Bool)
  /-- A BAR2 read completes after every earlier BAR2 write, or with Completer Abort while HBM is untrained. (R399) -/
  | bar2Read (off : Nat) (len : Nat)
  /-- A BAR2 write reaches HBM through the window, or is discarded with HBM_UNTRAINED. (R425) -/
  | bar2Write (off : Nat) (bytes : List Byte) (enables : List Bool)
  /-- A write of DEVREG.BASE_GIB moves the device-region boundary, or is refused. (R401) -/
  | devregWrite (m : Fin 8) (w : Word)
  /-- PROF_OP LOAD starts loading and checking a profile image into a cell. (R335) -/
  | profileLoad (m : Fin 8)
  /-- A profile load completes within 2 ms with its result code, and sets LOAD_DONE. (R335) -/
  | profileLoadDone
  /-- PROF_OP ERASE clears a cell's VALID unless a pending event names the cell. (R335) -/
  | profileErase (m : Fin 8)
  /-- DEV.PROFILE GO enters a PROFILE event for the first suitable switch point, or is refused. (R337) -/
  | devProfileGo (m : Fin 8) (w : Word)
  /-- A change of PROF.CTRL.PINS from 0 to 1 cancels every pending PROFILE event not entered from the pins. (R337) -/
  | profilePinsWrite (m : Fin 8) (w : Word)
  /-- At each TB0 frame boundary the profile pins are sampled, and a new qualified selection enters a request. (R338) -/
  | profilePinSample (enN : Bool) (sel : Fin 4)
  /-- At a PROFILE event's deadline the cell's CRC is checked and its sections are prepared. (R340) -/
  | profilePrepare (handle : BitVec 16)
  /-- An engine posts a power request, which is queued or refused as too big or for a full queue. (R344) -/
  | powerRequest (page : Fin 4096) (purpose : Nat)
  /-- The head request is granted once it fits the budget and no VDD_CORE ramp is running. (R346) -/
  | powerGrant
  /-- Every 10 µs a VDD_CORE grant raises its load by one step until its ramp ends. (R346) -/
  | powerRampStep
  /-- An engine releases a grant and USED falls. (R344) -/
  | powerRelease (page : Fin 4096) (purpose : Nat)
  /-- A request that has waited longer than TIMEOUT ends as DEFERRED. (R347) -/
  | powerTimeout
  /-- A write that lowers TIMEOUT ends at once every request that has already waited longer. (R347) -/
  | pauTimeoutWrite (m : Fin 8) (w : Word)
  /-- A grant held beyond twice its class limit sets OVERSTAY and is kept. (R344) -/
  | powerOverstay
  /-- 100 ms after DEFERRED a slice, compositor, receiver or lane posts its request again. (R347) -/
  | deferredRepost (page : Fin 4096) (purpose : Nat)
  /-- A write of SYN CTRL.EN = 1 starts lock acquisition, or is dropped while the band table is inconsistent. (R354) -/
  | synStart (m : Fin 8) (n : Fin 16) (w : Word)
  /-- The DPLL reaches lock within 5 ms and the enabled outputs start together. (R354) -/
  | synLocked (n : Fin 16)
  /-- Every 16 output periods an output moves one DELAY step toward its new value. (R355) -/
  | synDelayStep (n : Fin 16) (out : Fin 8)
  /-- The LOAD command unwraps a blob into a slot after its checks pass. (R366) -/
  | keyLoad (m : Fin 8)
  /-- The INVALIDATE command empties a slot and orphans its descendants in one step. (R372) -/
  | keyInvalidate (m : Fin 8)
  /-- The DERIVE command fills a slot from a DERIVE-only parent by the KDF. (R363) -/
  | keyDerive (m : Fin 8)
  /-- The GENERATE command draws a key, writes its blob and fills the slot. (R369) -/
  | keyGenerate (m : Fin 8)
  /-- The IMPORT command writes a blob of a host-supplied key, unless IMPORT_LOCK is set. (R369) -/
  | keyImport (m : Fin 8)
  /-- The REWRAP command unwraps a blob and writes it again under a new parent. (R369) -/
  | keyRewrap (m : Fin 8)
  /-- The HALLMARK command computes the configuration digest and the response to a challenge. (R381) -/
  | keyHallmark (m : Fin 8)
  /-- The HELPER command posts the PUF regeneration request and regenerates the root from helper data. (R360) -/
  | keyHelper (m : Fin 8)
  /-- The ENROLL command draws a new PUF secret and writes new helper data. (R360) -/
  | keyEnroll (m : Fin 8)
  /-- A key command completes: CMD_RESULT is written, the mailbox zeroed and CMD_DONE set. (R368) -/
  | keyCmdDone
  /-- A write of LC_CTRL with the right KEY requests a life-cycle transition, or refuses it. (R377) -/
  | lcTransition (m : Fin 8) (w : Word)
  /-- A transition ends within 50 ms with a new state and LC_DONE, or with FUSE_FAIL. (R377) -/
  | lcTransitionDone (ok : Bool)
  /-- GO.START starts a memory job that reads LEN bytes into the CRC. (R384) -/
  | cvuStart (m : Fin 8) (n : Fin 16)
  /-- GO.RESTART loads INIT into the CRC register. (R384) -/
  | cvuRestart (m : Fin 8) (n : Fin 16)
  /-- GO.ABORT ends the running job at its next byte with ABORTED. (R385) -/
  | cvuAbort (m : Fin 8) (n : Fin 16)
  /-- GO.ARM sets ARMED so that the next record sets the alive reference. (R386) -/
  | cvuArm (m : Fin 8) (n : Fin 16)
  /-- A write of FEED passes four bytes into the CRC. (R384) -/
  | cvuFeed (m : Fin 8) (n : Fin 16) (w : Word)
  /-- A write of FEED1 passes one byte into the CRC. (R384) -/
  | cvuFeed1 (m : Fin 8) (n : Fin 16) (w : Word)
  /-- A memory job ends with OK or MEM_FAIL and sets DONE. (R385) -/
  | cvuJobDone (n : Fin 16)
  /-- SUBMIT.GO checks a descriptor and queues it, or refuses it with a result code. (R388) -/
  | pressSubmit (m : Fin 8)
  /-- A Press job ends and pushes one completion record into the log. (R390) -/
  | pressJobDone
  /-- A read of DONE_W0 returns the oldest record, latches its other words and removes it. (R390) -/
  | pressDoneRead (m : Fin 8)
  /-- A complete SPI WRITE frame posts a 32-bit write to the internal address. (R419) -/
  | spiWrite (addr : BitVec 40) (w : Word)
  /-- A SPI READ frame reads a 32-bit word and returns it after a status byte. (R419) -/
  | spiRead (addr : BitVec 40)
  /-- A SPI STATUS frame returns WRITE_PENDING and ERROR, and clears ERROR. (R419) -/
  | spiStatus
  /-- An IP link whose lanes are locked, whose PCS has aligned and which signals no local fault goes UP and sets LINK_CHANGE. (R128) -/
  | ipLinkUp (p : Fin 8) (link : Fin 4)
  /-- The PCI Express link comes up, at most 100 ms after cold start or after a link loss, and BAR0 and DEVICE_ID become reachable. (R324) -/
  | pcieLinkUp
  /-- The copy of an armed salvo from a TAKE pin's write port into the shadow crosspoint bank completes. (R96) -/
  | pinCopyDone (n : Fin 4)
  /-- A heartbeat from the partner arrives on a Clasp lane or as a toggle of CLASP_HB_IN, restarting that path's 100 µs timer and setting HB_LANE or HB_PIN. (R317) -/
  | heartbeatReceive (pin : Bool)
  /-- A change on CO_IN[g], seen within 100 ns, updates CO_SEL and sets CHANGEOVER once the selector shows the new side. (R312) -/
  | coInChange (g : Fin 12) (level : Bool)
  /-- A continuous health test of the DRBG noise source fails, so GENERATE gives RNG_FAIL until cold power-up. (R369) -/
  | healthTestFail
  /-- The EXTEST instruction on the TAP takes the balls away from the device's own logic until a cold reset. (R421) -/
  | extest
  deriving DecidableEq, Repr

end Sys2Proof
end

