-- ==== Sys2Proof/Decode.lean ====
section
/-! DEFINITION. Words of the opcode table: its rows are commands of a block and give no bits. -/

namespace Sys2Proof

/-- The command that a word spells by the table's bits: the table gives no row any. -/
def decodeTableWord (_nbits _w : Nat) : Option Instr := none

end Sys2Proof
end

