-- ==== Sys2Proof/Machine/Assoc.lean ====
section
/-! DEFINITION. Sparse tables: lists of key and value pairs kept in rising order of a natural-number code of the
key. One home for the register file, the memory and every per-index record of the block. -/

namespace Sys2Proof.Machine

/-- The value a table lists under a key. -/
def Assoc.find {κ α : Type} (code : κ → Nat) (k : κ) : List (κ × α) → Option α
  | [] => none
  | (k', v) :: t => if code k' = code k then some v else Assoc.find code k t

/-- Write a value under a key, in rising order of the key's code. -/
def Assoc.set {κ α : Type} (code : κ → Nat) (k : κ) (v : α) : List (κ × α) → List (κ × α)
  | [] => [(k, v)]
  | (k', v') :: t =>
    if code k' = code k then (k, v) :: t
    else if code k < code k' then (k, v) :: (k', v') :: t
    else (k', v') :: Assoc.set code k v t

/-- Remove every entry under a key. -/
def Assoc.erase {κ α : Type} (code : κ → Nat) (k : κ) (l : List (κ × α)) : List (κ × α) :=
  l.filter fun e => code e.1 ≠ code k

/-- The codes of a table's keys rise strictly. -/
def Assoc.sorted {κ α : Type} (code : κ → Nat) : List (κ × α) → Bool
  | [] => true
  | [_] => true
  | a :: b :: t => decide (code a.1 < code b.1) && Assoc.sorted code (b :: t)

/-- A table of records by number: an unlisted number holds the default record. -/
abbrev Tab (α : Type) := List (Nat × α)

/-- The record under a number. -/
def Tab.at {α : Type} (d : α) (t : Tab α) (n : Nat) : α := (Assoc.find id n t).getD d

/-- Write the record under a number. -/
def Tab.put {α : Type} (n : Nat) (v : α) (t : Tab α) : Tab α := Assoc.set id n v t

/-- Remove the record under a number. -/
def Tab.del {α : Type} (n : Nat) (t : Tab α) : Tab α := Assoc.erase id n t

end Sys2Proof.Machine
end

