-- ==== Sys2Proof/Machine/Fields.lean ====
section
/-! DEFINITION. What a row of the manual's register tables says of a field (R9 to R12). -/

namespace Sys2Proof.Machine

/-- Access codes (R9). -/
inductive Access where
  | rw | ro | w1c | w1s | wo | rc
  deriving DecidableEq, Repr

/-- Field classes (R10, R33); `none` is the dash of a field that is no configuration. -/
inductive FieldClass where
  | live | shadow | idle | none
  deriving DecidableEq, Repr

/-- The Warm column (R11); `cold` where it names the Cold value of the page or cell, as R43 does. -/
inductive Warm where
  | kept
  | becomes (value : Nat)
  | cold
  deriving DecidableEq, Repr

/-- The values that a field may be written with; any other is reserved (R12). -/
inductive Legal where
  | any
  | le (max : Nat)
  | range (min max : Nat)
  deriving DecidableEq, Repr

/-- A row of a register table: offset in the page, lowest bit, width, access, class, cold value, warm value and
legal values. -/
structure Field where
  off : Nat
  lo : Nat
  width : Nat
  access : Access
  cls : FieldClass
  cold : Nat
  warm : Warm
  legal : Legal
  deriving DecidableEq, Repr

/-- Where a field lies in its page: one number for offset and lowest bit. -/
def Field.slot (f : Field) : Nat := f.off * 32 + f.lo

/-- The values that fit the field. -/
def Field.modulus (f : Field) : Nat := 2 ^ f.width

/-- Is the value one that the manual does not reserve? -/
def Legal.ok : Legal → Nat → Bool
  | .any, _ => true
  | .le m, v => decide (v ≤ m)
  | .range a b, v => decide (a ≤ v) && decide (v ≤ b)

/-- The field's bits in a register word. -/
def Field.extract (f : Field) (w : Nat) : Nat := w / 2 ^ f.lo % f.modulus

end Sys2Proof.Machine
end

