-- ==== Sys2Proof/Machine/RegMap.lean ====
section
/-! DEFINITION. The register map of the C1640: one definition per register field of the manual's register
tables (offset, lowest bit, width, access code, class, cold value, warm value, legal values), and the list of
the fields of every page kind. Cold values that depend on the page stand in `coldOf` (Ops.lean). -/

namespace Sys2Proof.Machine.F

/-- HDR, READY.CAUSE (R30). -/
def hdrReadyCause : Field := ⟨0x008, 4, 4, .ro, .none, 2, .becomes 1, .any⟩
/-- HDR, READY.DEGRADED (R30). -/
def hdrReadyDegraded : Field := ⟨0x008, 2, 1, .ro, .none, 0, .becomes 0, .any⟩
/-- HDR, READY.RESTORED (R30). -/
def hdrReadyRestored : Field := ⟨0x008, 1, 1, .ro, .none, 0, .becomes 0, .any⟩
/-- HDR, READY.READY (R29). -/
def hdrReady : Field := ⟨0x008, 0, 1, .ro, .none, 0, .becomes 0, .any⟩
/-- HDR, INT_VEC.PIN (R30). -/
def hdrIntVecPin : Field := ⟨0x01C, 15, 1, .rw, .live, 0, .kept, .any⟩
/-- HDR, INT_VEC.VECTOR (R30). -/
def hdrIntVecVector : Field := ⟨0x01C, 0, 9, .rw, .live, 0, .kept, .any⟩
/-- HDR, COMMIT.CANCEL (R30). -/
def hdrCommitCancel : Field := ⟨0x020, 5, 1, .wo, .none, 0, .becomes 0, .any⟩
/-- HDR, COMMIT.AT_FRAME (R30). -/
def hdrCommitAtFrame : Field := ⟨0x020, 1, 1, .rw, .live, 0, .becomes 0, .any⟩
/-- HDR, COMMIT.COMMIT (R29). -/
def hdrCommit : Field := ⟨0x020, 0, 1, .w1s, .none, 0, .becomes 0, .any⟩
/-- HDR, COMMIT_FRAME_LO.FRAME_LO (R30). -/
def hdrCommitFrameLoFrameLo : Field := ⟨0x024, 0, 32, .rw, .live, 0, .becomes 0, .any⟩
/-- HDR, COMMIT_FRAME_HI.FRAME_HI (R30). -/
def hdrCommitFrameHiFrameHi : Field := ⟨0x028, 0, 16, .rw, .live, 0, .becomes 0, .any⟩
/-- HDR, LOCK.HELD (R30). -/
def hdrLockHeld : Field := ⟨0x02C, 4, 1, .rw, .live, 0, .becomes 0, .any⟩
/-- HDR, LOCK.OWNER (R30). -/
def hdrLockOwner : Field := ⟨0x02C, 0, 3, .ro, .none, 0, .becomes 0, .any⟩
/-- HDR, POWER_REQ.QUEUED (R30). -/
def hdrPowerReqQueued : Field := ⟨0x030, 31, 1, .ro, .none, 0, .becomes 0, .any⟩
/-- HDR, POWER_REQ.DUR_CLASS (R30). -/
def hdrPowerReqDurClass : Field := ⟨0x030, 24, 4, .ro, .none, 0, .becomes 0, .any⟩
/-- HDR, POWER_REQ.MW (R30). -/
def hdrPowerReqMw : Field := ⟨0x030, 0, 16, .ro, .none, 0, .becomes 0, .any⟩
/-- HDR, POWER_GRANT.GRANTED (R30). -/
def hdrPowerGrantGranted : Field := ⟨0x034, 31, 1, .ro, .none, 0, .becomes 0, .any⟩
/-- HDR, POWER_GRANT.DEFERRED (R30). -/
def hdrPowerGrantDeferred : Field := ⟨0x034, 30, 1, .ro, .none, 0, .becomes 0, .any⟩
/-- HDR, POWER_GRANT.MW (R30). -/
def hdrPowerGrantMw : Field := ⟨0x034, 0, 16, .ro, .none, 0, .becomes 0, .any⟩
/-- HDR, RESTORE_POLICY.POLICY (R30). -/
def hdrRestorePolicyPolicy : Field := ⟨0x038, 0, 2, .rw, .live, 0, .kept, .le 2⟩
/-- HDR, FAULT.VALID (R30). -/
def hdrFaultValid : Field := ⟨0x03C, 31, 1, .w1c, .none, 0, .kept, .any⟩
/-- HDR, FAULT.CLASS (R30). -/
def hdrFaultClass : Field := ⟨0x03C, 24, 4, .ro, .none, 0, .kept, .any⟩
/-- HDR, FAULT.COUNT (R30). -/
def hdrFaultCount : Field := ⟨0x03C, 16, 8, .ro, .none, 0, .kept, .any⟩
/-- HDR, FAULT.INDEX (R30). -/
def hdrFaultIndex : Field := ⟨0x03C, 0, 12, .ro, .none, 0, .kept, .any⟩
/-- HDR, ERR (R30). -/
def hdrErr : Field := ⟨0x010, 0, 32, .w1c, .none, 0, .becomes 0, .any⟩
/-- HDR, INT_EN (R30). -/
def hdrIntEn : Field := ⟨0x014, 0, 32, .rw, .live, 0, .kept, .any⟩
/-- HDR, INT_STAT (R30). -/
def hdrIntStat : Field := ⟨0x018, 0, 32, .w1c, .none, 0, .becomes 0, .any⟩
/-- HDR, STATUS.ENG (R30). -/
def hdrStatusEng : Field := ⟨0x00C, 16, 16, .ro, .none, 0, .becomes 0, .any⟩
/-- HDR, STATUS.RUNNING (R30). -/
def hdrStatusRunning : Field := ⟨0x00C, 0, 1, .ro, .none, 0, .becomes 0, .any⟩
/-- HDR, STATUS.RESETTING (R30). -/
def hdrStatusResetting : Field := ⟨0x00C, 1, 1, .ro, .none, 0, .becomes 1, .any⟩

/-- The register fields of HDR. -/
def hdrFields : List Field :=
  [hdrStatusResetting, hdrStatusRunning, hdrStatusEng, hdrIntStat, hdrIntEn, hdrErr, hdrReadyCause,
   hdrReadyDegraded, hdrReadyRestored, hdrReady, hdrIntVecPin, hdrIntVecVector, hdrCommitCancel,
   hdrCommitAtFrame, hdrCommit, hdrCommitFrameLoFrameLo, hdrCommitFrameHiFrameHi, hdrLockHeld,
   hdrLockOwner, hdrPowerReqQueued, hdrPowerReqDurClass, hdrPowerReqMw, hdrPowerGrantGranted,
   hdrPowerGrantDeferred, hdrPowerGrantMw, hdrRestorePolicyPolicy, hdrFaultValid, hdrFaultClass,
   hdrFaultCount, hdrFaultIndex]

/-- DEV, DEVICE_ID.PART (R3). -/
def devDeviceIdPart : Field := ⟨0x080, 16, 16, .ro, .live, 5696, .kept, .any⟩
/-- DEV, DEVICE_ID.FAMILY (R3). -/
def devDeviceIdFamily : Field := ⟨0x080, 12, 4, .ro, .live, 2, .kept, .any⟩
/-- DEV, DEVICE_ID.GRADE (R3). -/
def devDeviceIdGrade : Field := ⟨0x080, 8, 4, .ro, .live, 0, .kept, .any⟩
/-- DEV, DEVICE_ID.STEP_MAJOR (R3). -/
def devDeviceIdStepMajor : Field := ⟨0x080, 4, 4, .ro, .live, 1, .kept, .any⟩
/-- DEV, DEVICE_ID.STEP_MINOR (R3). -/
def devDeviceIdStepMinor : Field := ⟨0x080, 0, 4, .ro, .live, 0, .kept, .any⟩
/-- DEV, RESET.KEY (R55). -/
def devResetKey : Field := ⟨0x0C0, 16, 16, .wo, .none, 0, .becomes 0, .any⟩
/-- DEV, RESET.SCOPE (R55). -/
def devResetScope : Field := ⟨0x0C0, 14, 2, .wo, .none, 0, .becomes 0, .any⟩
/-- DEV, RESET.PAGE (R55). -/
def devResetPage : Field := ⟨0x0C0, 0, 12, .wo, .none, 0, .becomes 0, .any⟩
/-- DEV, RESET_CAUSE.LOCKSTEP (R55). -/
def devResetCauseLockstep : Field := ⟨0x0C4, 5, 1, .ro, .none, 0, .becomes 0, .any⟩
/-- DEV, RESET_CAUSE.CONTROL (R55). -/
def devResetCauseControl : Field := ⟨0x0C4, 4, 1, .ro, .none, 0, .becomes 0, .any⟩
/-- DEV, RESET_CAUSE.DEV_RESET (R55). -/
def devResetCauseDevReset : Field := ⟨0x0C4, 3, 1, .ro, .none, 0, .becomes 0, .any⟩
/-- DEV, RESET_CAUSE.WATCHDOG (R55). -/
def devResetCauseWatchdog : Field := ⟨0x0C4, 2, 1, .ro, .none, 0, .becomes 0, .any⟩
/-- DEV, RESET_CAUSE.WRST_PIN (R55). -/
def devResetCauseWrstPin : Field := ⟨0x0C4, 1, 1, .ro, .none, 0, .becomes 0, .any⟩
/-- DEV, RESET_CAUSE.POR (R55). -/
def devResetCausePor : Field := ⟨0x0C4, 0, 1, .ro, .none, 1, .becomes 0, .any⟩
/-- DEV, PROFILE.GO (R343). -/
def devProfileGo : Field := ⟨0x100, 31, 1, .wo, .none, 0, .becomes 0, .any⟩
/-- DEV, PROFILE.TB (R343). -/
def devProfileTb : Field := ⟨0x100, 24, 2, .wo, .none, 0, .becomes 0, .any⟩
/-- DEV, PROFILE.SEL (R343). -/
def devProfileSel : Field := ⟨0x100, 0, 2, .wo, .none, 0, .becomes 0, .any⟩
/-- DEV, PROFILE_STATUS.CODE (R343). -/
def devProfileStatusCode : Field := ⟨0x104, 28, 4, .ro, .none, 15, .becomes 15, .any⟩
/-- DEV, PROFILE_STATUS.HANDLE (R343). -/
def devProfileStatusHandle : Field := ⟨0x104, 0, 16, .ro, .none, 0, .becomes 0, .any⟩
/-- DEV, FW_ADDR.ADDR (R343). -/
def devFwAddrAddr : Field := ⟨0x110, 2, 18, .rw, .live, 0, .becomes 0, .any⟩
/-- DEV, FW_DATA.WORD (R343). -/
def devFwDataWord : Field := ⟨0x114, 0, 32, .wo, .none, 0, .becomes 0, .any⟩
/-- DEV, FW_CTRL.GO (R343). -/
def devFwCtrlGo : Field := ⟨0x118, 0, 1, .wo, .none, 0, .becomes 0, .any⟩
/-- DEV, FW_VER.VERSION (R343). -/
def devFwVerVersion : Field := ⟨0x11C, 0, 32, .ro, .none, 0, .becomes 0, .any⟩
/-- DEV, HBMWIN.OFFSET_MB (R403). -/
def devHbmwinOffsetMb : Field := ⟨0x090, 0, 15, .rw, .live, 0, .kept, .le 32512⟩
/-- DEV, HBMWIN_STATUS.INFLIGHT (R403). -/
def devHbmwinStatusInflight : Field := ⟨0x094, 0, 1, .ro, .none, 0, .becomes 0, .any⟩
/-- DEV, DEVREG.BASE_GIB (R403). -/
def devDevregBaseGib : Field := ⟨0x0A0, 0, 6, .rw, .live, 8, .kept, .range 1 31⟩
/-- DEV, DEVREG_ADDR_LO.ADDR (R403). -/
def devDevregAddrLoAddr : Field := ⟨0x0A4, 0, 32, .ro, .none, 0, .becomes 0, .any⟩
/-- DEV, DEVREG_ADDR_HI.MASTER (R403). -/
def devDevregAddrHiMaster : Field := ⟨0x0A8, 8, 3, .ro, .none, 0, .becomes 0, .any⟩
/-- DEV, DEVREG_ADDR_HI.ADDR (R403). -/
def devDevregAddrHiAddr : Field := ⟨0x0A8, 0, 8, .ro, .none, 0, .becomes 0, .any⟩
/-- DEV, HBM_CH_INDEX.CH (R403). -/
def devHbmChIndexCh : Field := ⟨0x0B0, 0, 5, .rw, .live, 0, .becomes 0, .any⟩
/-- DEV, HBM_CH_STATUS.FAULTED (R403). -/
def devHbmChStatusFaulted : Field := ⟨0x0B4, 31, 1, .ro, .none, 0, .kept, .any⟩
/-- DEV, HBM_CH_STATUS.UE (R403). -/
def devHbmChStatusUe : Field := ⟨0x0B4, 8, 8, .ro, .none, 0, .kept, .any⟩
/-- DEV, HBM_CH_STATUS.CE (R403). -/
def devHbmChStatusCe : Field := ⟨0x0B4, 0, 8, .ro, .none, 0, .kept, .any⟩

/-- The register fields of DEV. -/
def devFields : List Field :=
  [devDeviceIdPart, devDeviceIdFamily, devDeviceIdGrade, devDeviceIdStepMajor, devDeviceIdStepMinor,
   devResetKey, devResetScope, devResetPage, devResetCauseLockstep, devResetCauseControl,
   devResetCauseDevReset, devResetCauseWatchdog, devResetCauseWrstPin, devResetCausePor, devProfileGo,
   devProfileTb, devProfileSel, devProfileStatusCode, devProfileStatusHandle, devFwAddrAddr,
   devFwDataWord, devFwCtrlGo, devFwVerVersion, devHbmwinOffsetMb, devHbmwinStatusInflight,
   devDevregBaseGib, devDevregAddrLoAddr, devDevregAddrHiMaster, devDevregAddrHiAddr, devHbmChIndexCh] ++
  [devHbmChStatusFaulted, devHbmChStatusUe, devHbmChStatusCe]

/-- PAU, BUDGET.MW (R347). -/
def pauBudgetMw : Field := ⟨0x080, 0, 20, .rw, .live, 100000, .kept, .any⟩
/-- PAU, RAMP.MA (R347). -/
def pauRampMa : Field := ⟨0x084, 0, 14, .rw, .live, 2000, .kept, .range 100 10000⟩
/-- PAU, TIMEOUT.MS (R347). -/
def pauTimeoutMs : Field := ⟨0x088, 0, 14, .rw, .live, 50, .kept, .range 1 10000⟩
/-- PAU, USED.MW (R347). -/
def pauUsedMw : Field := ⟨0x08C, 0, 20, .ro, .none, 0, .becomes 0, .any⟩
/-- PAU, QUEUE.DEPTH (R347). -/
def pauQueueDepth : Field := ⟨0x090, 0, 7, .ro, .none, 0, .becomes 0, .any⟩
/-- PAU, CNT.DEFERRED (R347). -/
def pauCntDeferred : Field := ⟨0x094, 16, 16, .rc, .none, 0, .becomes 0, .any⟩
/-- PAU, CNT.QFULL (R347). -/
def pauCntQfull : Field := ⟨0x094, 0, 16, .rc, .none, 0, .becomes 0, .any⟩
/-- PAU, Q_INDEX.POS (R347). -/
def pauQIndexPos : Field := ⟨0x0A0, 0, 6, .rw, .live, 0, .becomes 0, .any⟩
/-- PAU, Q_ENTRY.PAGE (R347). -/
def pauQEntryPage : Field := ⟨0x0A4, 20, 12, .ro, .none, 0, .becomes 0, .any⟩
/-- PAU, Q_ENTRY.DUR_CLASS (R347). -/
def pauQEntryDurClass : Field := ⟨0x0A4, 16, 4, .ro, .none, 0, .becomes 0, .any⟩
/-- PAU, Q_ENTRY.MW (R347). -/
def pauQEntryMw : Field := ⟨0x0A4, 0, 16, .ro, .none, 0, .becomes 0, .any⟩

/-- The register fields of PAU. -/
def pauFields : List Field :=
  [pauBudgetMw, pauRampMa, pauTimeoutMs, pauUsedMw, pauQueueDepth, pauCntDeferred, pauCntQfull,
   pauQIndexPos, pauQEntryPage, pauQEntryDurClass, pauQEntryMw]

/-- CAVE, CTRL.KEY (R334). -/
def caveCtrlKey : Field := ⟨0x080, 16, 16, .wo, .none, 0, .becomes 0, .any⟩
/-- CAVE, CTRL.CLEAR (R334). -/
def caveCtrlClear : Field := ⟨0x080, 0, 1, .wo, .none, 0, .becomes 0, .any⟩
/-- CAVE, STATUS.JOURNAL_WAIT (R334). -/
def caveStatusJournalWait : Field := ⟨0x084, 11, 1, .ro, .none, 0, .becomes 0, .any⟩
/-- CAVE, STATUS.JOURNAL (R334). -/
def caveStatusJournal : Field := ⟨0x084, 8, 3, .ro, .none, 0, .becomes 0, .any⟩
/-- CAVE, STATUS.FAB_CURRENT (R334). -/
def caveStatusFabCurrent : Field := ⟨0x084, 3, 1, .ro, .none, 0, .kept, .any⟩
/-- CAVE, STATUS.IPP_CURRENT (R334). -/
def caveStatusIppCurrent : Field := ⟨0x084, 2, 1, .ro, .none, 0, .kept, .any⟩
/-- CAVE, STATUS.ASH_CURRENT (R334). -/
def caveStatusAshCurrent : Field := ⟨0x084, 1, 1, .ro, .none, 0, .kept, .any⟩
/-- CAVE, STATUS.FLOW_CURRENT (R334). -/
def caveStatusFlowCurrent : Field := ⟨0x084, 0, 1, .ro, .none, 0, .kept, .any⟩
/-- CAVE, USED.UNITS (R334). -/
def caveUsedUnits : Field := ⟨0x088, 0, 12, .ro, .none, 0, .kept, .any⟩
/-- CAVE, LOST.UNITS (R334). -/
def caveLostUnits : Field := ⟨0x08C, 16, 16, .rc, .none, 0, .becomes 0, .any⟩
/-- CAVE, LOST.IMAGE (R334). -/
def caveLostImage : Field := ⟨0x08C, 0, 16, .rc, .none, 0, .becomes 0, .any⟩

/-- The register fields of CAVE. -/
def caveFields : List Field :=
  [caveCtrlKey, caveCtrlClear, caveStatusJournalWait, caveStatusJournal, caveStatusFabCurrent,
   caveStatusIppCurrent, caveStatusAshCurrent, caveStatusFlowCurrent, caveUsedUnits, caveLostUnits,
   caveLostImage]

/-- PROF, CTRL.PIN_START (R343). -/
def profCtrlPinStart : Field := ⟨0x080, 1, 1, .rw, .live, 0, .kept, .any⟩
/-- PROF, CTRL.PINS (R343). -/
def profCtrlPins : Field := ⟨0x080, 0, 1, .rw, .live, 0, .kept, .any⟩
/-- PROF, PROF_INDEX.CELL (R343). -/
def profProfIndexCell : Field := ⟨0x084, 0, 2, .rw, .live, 0, .becomes 0, .any⟩
/-- PROF, PROF_SRC_LO.ADDR (R343). -/
def profProfSrcLoAddr : Field := ⟨0x088, 3, 29, .rw, .live, 0, .becomes 0, .any⟩
/-- PROF, PROF_SRC_HI.ADDR (R343). -/
def profProfSrcHiAddr : Field := ⟨0x08C, 0, 8, .rw, .live, 0, .becomes 0, .any⟩
/-- PROF, PROF_LEN.BYTES (R343). -/
def profProfLenBytes : Field := ⟨0x090, 0, 20, .rw, .live, 0, .becomes 0, .any⟩
/-- PROF, PROF_OP.OP (R343). -/
def profProfOpOp : Field := ⟨0x094, 0, 2, .wo, .none, 0, .becomes 0, .any⟩
/-- PROF, PROF_RESULT.BUSY (R343). -/
def profProfResultBusy : Field := ⟨0x098, 31, 1, .ro, .none, 0, .becomes 0, .any⟩
/-- PROF, PROF_RESULT.ENTRY (R343). -/
def profProfResultEntry : Field := ⟨0x098, 4, 16, .ro, .none, 0, .becomes 0, .any⟩
/-- PROF, PROF_RESULT.CODE (R343). -/
def profProfResultCode : Field := ⟨0x098, 0, 4, .ro, .none, 15, .becomes 15, .any⟩
/-- PROF, CELL_STATUS.VALID (R343). -/
def profCellStatusValid : Field := ⟨0x09C, 31, 1, .ro, .none, 0, .kept, .any⟩
/-- PROF, CELL_STATUS.BYTES (R343). -/
def profCellStatusBytes : Field := ⟨0x09C, 0, 20, .ro, .none, 0, .kept, .any⟩
/-- PROF, PROF_STATUS.PIN_REFUSED (R343). -/
def profProfStatusPinRefused : Field := ⟨0x0A0, 16, 16, .rc, .none, 0, .becomes 0, .any⟩
/-- PROF, PROF_STATUS.PREPARING (R343). -/
def profProfStatusPreparing : Field := ⟨0x0A0, 5, 1, .ro, .none, 0, .becomes 0, .any⟩
/-- PROF, PROF_STATUS.PIN_EN (R343). -/
def profProfStatusPinEn : Field := ⟨0x0A0, 4, 1, .ro, .none, 0, .becomes 0, .any⟩
/-- PROF, PROF_STATUS.PIN_SEL (R343). -/
def profProfStatusPinSel : Field := ⟨0x0A0, 0, 2, .ro, .none, 0, .becomes 0, .any⟩
/-- PROF, PROF_LAST.CODE (R343). -/
def profProfLastCode : Field := ⟨0x0A4, 28, 4, .ro, .none, 15, .becomes 15, .any⟩
/-- PROF, PROF_LAST.CELL (R343). -/
def profProfLastCell : Field := ⟨0x0A4, 26, 2, .ro, .none, 0, .becomes 0, .any⟩
/-- PROF, PROF_LAST.TB (R343). -/
def profProfLastTb : Field := ⟨0x0A4, 24, 2, .ro, .none, 0, .becomes 0, .any⟩
/-- PROF, PROF_LAST.SKIP (R343). -/
def profProfLastSkip : Field := ⟨0x0A4, 12, 12, .ro, .none, 0, .becomes 0, .any⟩
/-- PROF, PROF_LAST.REFUSED (R343). -/
def profProfLastRefused : Field := ⟨0x0A4, 0, 12, .ro, .none, 0, .becomes 0, .any⟩
/-- PROF, LAST_FRAME_LO.FRAME (R343). -/
def profLastFrameLoFrame : Field := ⟨0x0A8, 0, 32, .ro, .none, 0, .becomes 0, .any⟩
/-- PROF, LAST_FRAME_HI.FRAME (R343). -/
def profLastFrameHiFrame : Field := ⟨0x0AC, 0, 16, .ro, .none, 0, .becomes 0, .any⟩

/-- The register fields of PROF. -/
def profFields : List Field :=
  [profCtrlPinStart, profCtrlPins, profProfIndexCell, profProfSrcLoAddr, profProfSrcHiAddr,
   profProfLenBytes, profProfOpOp, profProfResultBusy, profProfResultEntry, profProfResultCode,
   profCellStatusValid, profCellStatusBytes, profProfStatusPinRefused, profProfStatusPreparing,
   profProfStatusPinEn, profProfStatusPinSel, profProfLastCode, profProfLastCell, profProfLastTb,
   profProfLastSkip, profProfLastRefused, profLastFrameLoFrame, profLastFrameHiFrame]

/-- CLASP, CTRL.JOIN (R323). -/
def claspCtrlJoin : Field := ⟨0x080, 31, 1, .wo, .none, 0, .becomes 0, .any⟩
/-- CLASP, CTRL.RELEASE (R323). -/
def claspCtrlRelease : Field := ⟨0x080, 30, 1, .wo, .none, 0, .becomes 0, .any⟩
/-- CLASP, CTRL.LEAD (R323). -/
def claspCtrlLead : Field := ⟨0x080, 29, 1, .wo, .none, 0, .becomes 0, .any⟩
/-- CLASP, CTRL.RESET_MIRROR (R323). -/
def claspCtrlResetMirror : Field := ⟨0x080, 0, 1, .rw, .live, 1, .kept, .any⟩
/-- CLASP, STATE.JOIN_RESULT (R323). -/
def claspStateJoinResult : Field := ⟨0x084, 28, 3, .ro, .none, 0, .becomes 0, .any⟩
/-- CLASP, STATE.RESTARTS (R323). -/
def claspStateRestarts : Field := ⟨0x084, 24, 4, .ro, .none, 0, .becomes 0, .any⟩
/-- CLASP, STATE.SIDE (R323). -/
def claspStateSide : Field := ⟨0x084, 15, 1, .ro, .none, 0, .becomes 0, .any⟩
/-- CLASP, STATE.HB_PIN (R323). -/
def claspStateHbPin : Field := ⟨0x084, 14, 1, .ro, .none, 0, .becomes 0, .any⟩
/-- CLASP, STATE.HB_LANE (R323). -/
def claspStateHbLane : Field := ⟨0x084, 13, 1, .ro, .none, 0, .becomes 0, .any⟩
/-- CLASP, STATE.ROLE (R323). -/
def claspStateRole : Field := ⟨0x084, 8, 2, .ro, .none, 0, .becomes 0, .any⟩
/-- CLASP, STATE.STATE (R323). -/
def claspState : Field := ⟨0x084, 0, 3, .ro, .none, 0, .becomes 0, .any⟩
/-- CLASP, CO_SEL.SIDE (R323). -/
def claspCoSelSide : Field := ⟨0x088, 0, 12, .ro, .none, 0, .becomes 0, .any⟩
/-- CLASP, CO_FAULT.FAULT_B (R323). -/
def claspCoFaultFaultB : Field := ⟨0x08C, 16, 12, .w1c, .none, 0, .kept, .any⟩
/-- CLASP, CO_FAULT.FAULT_A (R323). -/
def claspCoFaultFaultA : Field := ⟨0x08C, 0, 12, .w1c, .none, 0, .kept, .any⟩
/-- CLASP, CO_CMD.GO (R323). -/
def claspCoCmdGo : Field := ⟨0x090, 31, 1, .wo, .none, 0, .becomes 0, .any⟩
/-- CLASP, CO_CMD.SIDE (R323). -/
def claspCoCmdSide : Field := ⟨0x090, 16, 1, .wo, .none, 0, .becomes 0, .any⟩
/-- CLASP, CO_CMD.GROUP (R323). -/
def claspCoCmdGroup : Field := ⟨0x090, 0, 4, .wo, .none, 0, .becomes 0, .any⟩
/-- CLASP, SEAL_CNT.MISMATCH (R323). -/
def claspSealCntMismatch : Field := ⟨0x094, 16, 16, .rc, .none, 0, .becomes 0, .any⟩
/-- CLASP, SEAL_CNT.WAIVED (R323). -/
def claspSealCntWaived : Field := ⟨0x094, 0, 16, .rc, .none, 0, .becomes 0, .any⟩
/-- CLASP, SEAL_LINES.COUNT (R323). -/
def claspSealLinesCount : Field := ⟨0x098, 0, 32, .rc, .none, 0, .becomes 0, .any⟩
/-- CLASP, TB_SKEW0.PS (R323). -/
def claspTbSkew0Ps : Field := ⟨0x0A0, 0, 32, .ro, .none, 0, .becomes 0, .any⟩
/-- CLASP, TB_SKEW1.PS (R323). -/
def claspTbSkew1Ps : Field := ⟨0x0A4, 0, 32, .ro, .none, 0, .becomes 0, .any⟩
/-- CLASP, TB_SKEW2.PS (R323). -/
def claspTbSkew2Ps : Field := ⟨0x0A8, 0, 32, .ro, .none, 0, .becomes 0, .any⟩
/-- CLASP, TB_SKEW3.PS (R323). -/
def claspTbSkew3Ps : Field := ⟨0x0AC, 0, 32, .ro, .none, 0, .becomes 0, .any⟩
/-- CLASP, MIRROR.PEAK_NS (R323). -/
def claspMirrorPeakNs : Field := ⟨0x0B0, 16, 16, .rc, .none, 0, .becomes 0, .any⟩
/-- CLASP, MIRROR.QUEUED (R323). -/
def claspMirrorQueued : Field := ⟨0x0B0, 0, 16, .ro, .none, 0, .becomes 0, .any⟩
/-- CLASP, JR_INDEX.RANGE (R323). -/
def claspJrIndexRange : Field := ⟨0x0C0, 0, 3, .rw, .live, 0, .becomes 0, .any⟩
/-- CLASP, JR_BASE_LO.ADDR (R323). -/
def claspJrBaseLoAddr : Field := ⟨0x0C4, 12, 20, .rw, .live, 0, .kept, .any⟩
/-- CLASP, JR_BASE_HI.ADDR (R323). -/
def claspJrBaseHiAddr : Field := ⟨0x0C8, 0, 8, .rw, .live, 0, .kept, .any⟩
/-- CLASP, JR_SIZE.PAGES (R323). -/
def claspJrSizePages : Field := ⟨0x0CC, 0, 23, .rw, .live, 0, .kept, .any⟩

/-- The register fields of CLASP. -/
def claspFields : List Field :=
  [claspCtrlJoin, claspCtrlRelease, claspCtrlLead, claspCtrlResetMirror, claspStateJoinResult,
   claspStateRestarts, claspStateSide, claspStateHbPin, claspStateHbLane, claspStateRole, claspState,
   claspCoSelSide, claspCoFaultFaultB, claspCoFaultFaultA, claspCoCmdGo, claspCoCmdSide,
   claspCoCmdGroup, claspSealCntMismatch, claspSealCntWaived, claspSealLinesCount, claspTbSkew0Ps,
   claspTbSkew1Ps, claspTbSkew2Ps, claspTbSkew3Ps, claspMirrorPeakNs, claspMirrorQueued,
   claspJrIndexRange, claspJrBaseLoAddr, claspJrBaseHiAddr, claspJrSizePages]

/-- FLT, COVER.SUPPLY (R323). -/
def fltCoverSupply : Field := ⟨0x080, 6, 1, .rw, .live, 0, .kept, .any⟩
/-- FLT, COVER.CFG_CMP (R323). -/
def fltCoverCfgCmp : Field := ⟨0x080, 5, 1, .rw, .live, 0, .kept, .any⟩
/-- FLT, COVER.LOCKSTEP (R323). -/
def fltCoverLockstep : Field := ⟨0x080, 4, 1, .rw, .live, 0, .kept, .any⟩
/-- FLT, COVER.CLKMON (R323). -/
def fltCoverClkmon : Field := ⟨0x080, 3, 1, .rw, .live, 0, .kept, .any⟩
/-- FLT, COVER.SCRUB (R323). -/
def fltCoverScrub : Field := ⟨0x080, 2, 1, .rw, .live, 0, .kept, .any⟩
/-- FLT, COVER.ECC (R323). -/
def fltCoverEcc : Field := ⟨0x080, 1, 1, .rw, .live, 0, .kept, .any⟩
/-- FLT, COVER.SEALS (R323). -/
def fltCoverSeals : Field := ⟨0x080, 0, 1, .rw, .live, 0, .kept, .any⟩
/-- FLT, STATUS.MASKING (R323). -/
def fltStatusMasking : Field := ⟨0x084, 1, 1, .ro, .none, 0, .becomes 0, .any⟩
/-- FLT, STATUS.COVERED (R323). -/
def fltStatusCovered : Field := ⟨0x084, 0, 1, .ro, .none, 0, .kept, .any⟩
/-- FLT, LOG_HEAD.SEQ (R323). -/
def fltLogHeadSeq : Field := ⟨0x088, 0, 16, .ro, .none, 0, .kept, .any⟩
/-- FLT, LOG_INDEX.SEQ (R323). -/
def fltLogIndexSeq : Field := ⟨0x08C, 0, 16, .rw, .live, 0, .becomes 0, .any⟩
/-- FLT, LOG_W0.WORD (R323). -/
def fltLogW0Word : Field := ⟨0x090, 0, 32, .ro, .none, 0, .becomes 0, .any⟩
/-- FLT, LOG_W1.WORD (R323). -/
def fltLogW1Word : Field := ⟨0x094, 0, 32, .ro, .none, 0, .becomes 0, .any⟩
/-- FLT, LOG_W2.WORD (R323). -/
def fltLogW2Word : Field := ⟨0x098, 0, 32, .ro, .none, 0, .becomes 0, .any⟩
/-- FLT, LOG_W3.WORD (R323). -/
def fltLogW3Word : Field := ⟨0x09C, 0, 32, .ro, .none, 0, .becomes 0, .any⟩
/-- FLT, LOG_W4.WORD (R323). -/
def fltLogW4Word : Field := ⟨0x0A0, 0, 32, .ro, .none, 0, .becomes 0, .any⟩
/-- FLT, LOG_W5.WORD (R323). -/
def fltLogW5Word : Field := ⟨0x0A4, 0, 32, .ro, .none, 0, .becomes 0, .any⟩

/-- The register fields of FLT. -/
def fltFields : List Field :=
  [fltCoverSupply, fltCoverCfgCmp, fltCoverLockstep, fltCoverClkmon, fltCoverScrub, fltCoverEcc,
   fltCoverSeals, fltStatusMasking, fltStatusCovered, fltLogHeadSeq, fltLogIndexSeq, fltLogW0Word,
   fltLogW1Word, fltLogW2Word, fltLogW3Word, fltLogW4Word, fltLogW5Word]

/-- MTXCFG, CFG.REMAP (R49). -/
def mtxCfgRemap : Field := ⟨0x080, 0, 1, .rw, .live, 0, .becomes 0, .any⟩

/-- The register fields of MTXCFG. -/
def mtxCfgFields : List Field :=
  [mtxCfgRemap]

/-- MTXMST, MST_CTRL.RESET (R50). -/
def mtxMstCtrlReset : Field := ⟨0x084, 31, 1, .wo, .none, 0, .becomes 0, .any⟩
/-- MTXMST, MST_CTRL.LIMIT (R50). -/
def mtxMstCtrlLimit : Field := ⟨0x084, 0, 7, .rw, .live, 0, .cold, .any⟩
/-- MTXMST, MST_STATUS.QUIESCED (R50). -/
def mtxMstStatusQuiesced : Field := ⟨0x088, 8, 1, .ro, .none, 1, .becomes 1, .any⟩
/-- MTXMST, MST_STATUS.OUTSTANDING (R50). -/
def mtxMstStatusOutstanding : Field := ⟨0x088, 0, 8, .ro, .none, 0, .becomes 0, .any⟩
/-- MTXMST, MST_INDEX.INDEX (R50). -/
def mtxMstIndexIndex : Field := ⟨0x080, 0, 3, .rw, .live, 0, .becomes 0, .any⟩
/-- MTXMST, MST_QUIESCED.QUIESCED (R50). -/
def mtxMstQuiescedQuiesced : Field := ⟨0x0A0, 0, 8, .ro, .none, 255, .becomes 255, .any⟩

/-- The register fields of MTXMST. -/
def mtxMstFields : List Field :=
  [mtxMstCtrlReset, mtxMstCtrlLimit, mtxMstStatusQuiesced, mtxMstStatusOutstanding, mtxMstIndexIndex,
   mtxMstQuiescedQuiesced]

/-- MTXTGT, TGT_INDEX.INDEX (). -/
def mtxTgtIndexIndex : Field := ⟨0x080, 0, 3, .rw, .live, 0, .becomes 0, .any⟩
/-- MTXTGT, TGT_STATUS.TIMEOUTS (). -/
def mtxTgtStatusTimeouts : Field := ⟨0x084, 16, 16, .rc, .none, 0, .becomes 0, .any⟩
/-- MTXTGT, TGT_STATUS.PARITY (). -/
def mtxTgtStatusParity : Field := ⟨0x084, 0, 16, .rc, .none, 0, .becomes 0, .any⟩

/-- The register fields of MTXTGT. -/
def mtxTgtFields : List Field :=
  [mtxTgtIndexIndex, mtxTgtStatusTimeouts, mtxTgtStatusParity]

/-- TB, CTRL.JUMP_EN (R70). -/
def tbCtrlJumpEn : Field := ⟨0x080, 8, 1, .rw, .live, 0, .kept, .any⟩
/-- TB, CTRL.ACQ_SLEW (R70). -/
def tbCtrlAcqSlew : Field := ⟨0x080, 7, 1, .rw, .live, 0, .kept, .any⟩
/-- TB, CTRL.SOURCE (R70). -/
def tbCtrlSource : Field := ⟨0x080, 1, 3, .rw, .shadow, 0, .kept, .le 4⟩
/-- TB, CTRL.RUN (R70). -/
def tbCtrlRun : Field := ⟨0x080, 0, 1, .rw, .live, 0, .kept, .any⟩
/-- TB, FORMAT.STRUCT (R70). -/
def tbFormatStruct : Field := ⟨0x084, 28, 4, .rw, .shadow, 0, .kept, .any⟩
/-- TB, FORMAT.RATE (R70). -/
def tbFormatRate : Field := ⟨0x084, 24, 4, .rw, .shadow, 5, .kept, .any⟩
/-- TB, PTP_SEL.SYNC_LOG (R70). -/
def tbPtpSelSyncLog : Field := ⟨0x088, 16, 4, .rw, .shadow, 3, .kept, .le 7⟩
/-- TB, PTP_SEL.PORT (R70). -/
def tbPtpSelPort : Field := ⟨0x088, 12, 3, .rw, .shadow, 0, .kept, .any⟩
/-- TB, PTP_SEL.LANE (R70). -/
def tbPtpSelLane : Field := ⟨0x088, 10, 2, .rw, .shadow, 0, .kept, .any⟩
/-- TB, PTP_SEL.DOMAIN (R70). -/
def tbPtpSelDomain : Field := ⟨0x088, 0, 8, .rw, .shadow, 127, .kept, .any⟩
/-- TB, REF_CFG.BEACON_TB (R70). -/
def tbRefCfgBeaconTb : Field := ⟨0x08C, 8, 2, .rw, .shadow, 0, .kept, .any⟩
/-- TB, REF_CFG.BEACON_PORT (R70). -/
def tbRefCfgBeaconPort : Field := ⟨0x08C, 4, 4, .rw, .shadow, 0, .kept, .any⟩
/-- TB, REF_CFG.REF_CLK (R70). -/
def tbRefCfgRefClk : Field := ⟨0x08C, 0, 2, .rw, .shadow, 1, .kept, .le 2⟩
/-- TB, GLITCH_WIN.WIN (R70). -/
def tbGlitchWinWin : Field := ⟨0x090, 0, 8, .rw, .live, 4, .kept, .range 1 255⟩
/-- TB, PHASE_SLEW.PPM (R70). -/
def tbPhaseSlewPpm : Field := ⟨0x094, 0, 10, .rw, .live, 50, .kept, .range 1 500⟩
/-- TB, PRESET_LO.FRAME_LO (R70). -/
def tbPresetLoFrameLo : Field := ⟨0x098, 0, 32, .rw, .live, 0, .kept, .any⟩
/-- TB, PRESET_HI.FRAME_HI (R70). -/
def tbPresetHiFrameHi : Field := ⟨0x09C, 0, 16, .rw, .live, 0, .kept, .any⟩
/-- TB, PRESET_ARM.ARM (R70). -/
def tbPresetArmArm : Field := ⟨0x0A0, 0, 1, .w1s, .none, 0, .becomes 0, .any⟩
/-- TB, STATE.JUMP_PENDING (R70). -/
def tbStateJumpPending : Field := ⟨0x0A4, 9, 1, .ro, .none, 0, .becomes 0, .any⟩
/-- TB, STATE.SLEWING (R70). -/
def tbStateSlewing : Field := ⟨0x0A4, 8, 1, .ro, .none, 0, .becomes 0, .any⟩
/-- TB, STATE.STATE (R70). -/
def tbState : Field := ⟨0x0A4, 0, 3, .ro, .none, 0, .becomes 0, .any⟩
/-- TB, FRAME_LO.FRAME_LO (R70). -/
def tbFrameLo : Field := ⟨0x0A8, 0, 32, .ro, .none, 0, .becomes 0, .any⟩
/-- TB, FRAME_HI.FRAME_HI (R70). -/
def tbFrameHi : Field := ⟨0x0AC, 0, 16, .ro, .none, 0, .becomes 0, .any⟩
/-- TB, POS.LINE (R70). -/
def tbPosLine : Field := ⟨0x0B0, 16, 13, .ro, .none, 0, .becomes 0, .any⟩
/-- TB, POS.SAMPLE (R70). -/
def tbPosSample : Field := ⟨0x0B0, 0, 16, .ro, .none, 0, .becomes 0, .any⟩
/-- TB, PHASE_ERR.PS (R70). -/
def tbPhaseErrPs : Field := ⟨0x0B4, 0, 32, .ro, .none, 0, .becomes 0, .any⟩
/-- TB, FREQ_OFS.PPT (R70). -/
def tbFreqOfsPpt : Field := ⟨0x0B8, 0, 32, .ro, .none, 0, .kept, .any⟩
/-- TB, GLITCH_CNT.COUNT (R70). -/
def tbGlitchCntCount : Field := ⟨0x0BC, 0, 32, .rc, .none, 0, .becomes 0, .any⟩
/-- TB, EVENT_CNT.LOSS (R70). -/
def tbEventCntLoss : Field := ⟨0x0C0, 16, 16, .rc, .none, 0, .becomes 0, .any⟩
/-- TB, EVENT_CNT.STEPS (R70). -/
def tbEventCntSteps : Field := ⟨0x0C0, 0, 16, .rc, .none, 0, .becomes 0, .any⟩

/-- The register fields of TB. -/
def tbFields : List Field :=
  [tbCtrlJumpEn, tbCtrlAcqSlew, tbCtrlSource, tbCtrlRun, tbFormatStruct, tbFormatRate,
   tbPtpSelSyncLog, tbPtpSelPort, tbPtpSelLane, tbPtpSelDomain, tbRefCfgBeaconTb, tbRefCfgBeaconPort,
   tbRefCfgRefClk, tbGlitchWinWin, tbPhaseSlewPpm, tbPresetLoFrameLo, tbPresetHiFrameHi,
   tbPresetArmArm, tbStateJumpPending, tbStateSlewing, tbState, tbFrameLo, tbFrameHi, tbPosLine,
   tbPosSample, tbPhaseErrPs, tbFreqOfsPpt, tbGlitchCntCount, tbEventCntLoss, tbEventCntSteps]

/-- SCHED, EV_W0.WORD (R83). -/
def schedEvW0Word : Field := ⟨0x080, 0, 32, .rw, .live, 0, .becomes 0, .any⟩
/-- SCHED, EV_W1.WORD (R83). -/
def schedEvW1Word : Field := ⟨0x084, 0, 32, .rw, .live, 0, .becomes 0, .any⟩
/-- SCHED, EV_W2.WORD (R83). -/
def schedEvW2Word : Field := ⟨0x088, 0, 32, .rw, .live, 0, .becomes 0, .any⟩
/-- SCHED, EV_W3.WORD (R83). -/
def schedEvW3Word : Field := ⟨0x08C, 0, 32, .rw, .live, 0, .becomes 0, .any⟩
/-- SCHED, EV_SUBMIT.GO (R83). -/
def schedEvSubmitGo : Field := ⟨0x090, 0, 1, .wo, .none, 0, .becomes 0, .any⟩
/-- SCHED, EV_RESULT.CODE (R83). -/
def schedEvResultCode : Field := ⟨0x094, 28, 4, .ro, .none, 15, .becomes 15, .any⟩
/-- SCHED, EV_RESULT.HANDLE (R83). -/
def schedEvResultHandle : Field := ⟨0x094, 0, 16, .ro, .none, 0, .becomes 0, .any⟩
/-- SCHED, EV_CANCEL.HANDLE (R83). -/
def schedEvCancelHandle : Field := ⟨0x098, 0, 16, .wo, .none, 0, .becomes 0, .any⟩
/-- SCHED, EV_QUERY.HANDLE (R83). -/
def schedEvQueryHandle : Field := ⟨0x09C, 0, 16, .rw, .live, 0, .becomes 0, .any⟩
/-- SCHED, EV_QSTATE.STATE (R83). -/
def schedEvQstateState : Field := ⟨0x0A0, 0, 3, .ro, .none, 0, .becomes 0, .any⟩
/-- SCHED, PENDING.COUNT (R83). -/
def schedPendingCount : Field := ⟨0x0A4, 0, 13, .ro, .none, 0, .becomes 0, .any⟩
/-- SCHED, DONE.VALID (R83). -/
def schedDoneValid : Field := ⟨0x0A8, 31, 1, .rc, .none, 0, .becomes 0, .any⟩
/-- SCHED, DONE.OVF (R83). -/
def schedDoneOvf : Field := ⟨0x0A8, 30, 1, .rc, .none, 0, .becomes 0, .any⟩
/-- SCHED, DONE.HANDLE (R83). -/
def schedDoneHandle : Field := ⟨0x0A8, 0, 16, .rc, .none, 0, .becomes 0, .any⟩
/-- SCHED, SALVO_INDEX.SALVO (R83). -/
def schedSalvoIndexSalvo : Field := ⟨0x0B0, 0, 8, .rw, .live, 0, .becomes 0, .any⟩
/-- SCHED, SALVO_COUNT.COUNT (R83). -/
def schedSalvoCountCount : Field := ⟨0x0B4, 0, 11, .rw, .live, 0, .becomes 0, .any⟩
/-- SCHED, SALVO_SRC_LO.ADDR (R83). -/
def schedSalvoSrcLoAddr : Field := ⟨0x0B8, 3, 29, .rw, .live, 0, .becomes 0, .any⟩
/-- SCHED, SALVO_SRC_HI.ADDR (R83). -/
def schedSalvoSrcHiAddr : Field := ⟨0x0BC, 0, 8, .rw, .live, 0, .becomes 0, .any⟩
/-- SCHED, SALVO_OP.OP (R83). -/
def schedSalvoOpOp : Field := ⟨0x0C0, 0, 2, .wo, .none, 0, .becomes 0, .any⟩
/-- SCHED, SALVO_RESULT.BUSY (R83). -/
def schedSalvoResultBusy : Field := ⟨0x0C4, 31, 1, .ro, .none, 0, .becomes 0, .any⟩
/-- SCHED, SALVO_RESULT.CODE (R83). -/
def schedSalvoResultCode : Field := ⟨0x0C4, 0, 4, .ro, .none, 15, .becomes 15, .any⟩
/-- SCHED, POOL_FREE.ENTRIES (R83). -/
def schedPoolFreeEntries : Field := ⟨0x0C8, 0, 17, .ro, .none, 65536, .becomes 65536, .any⟩

/-- The register fields of SCHED. -/
def schedFields : List Field :=
  [schedEvW0Word, schedEvW1Word, schedEvW2Word, schedEvW3Word, schedEvSubmitGo, schedEvResultCode,
   schedEvResultHandle, schedEvCancelHandle, schedEvQueryHandle, schedEvQstateState,
   schedPendingCount, schedDoneValid, schedDoneOvf, schedDoneHandle, schedSalvoIndexSalvo,
   schedSalvoCountCount, schedSalvoSrcLoAddr, schedSalvoSrcHiAddr, schedSalvoOpOp,
   schedSalvoResultBusy, schedSalvoResultCode, schedPoolFreeEntries]

/-- SYN, CTRL.BW (R357). -/
def synCtrlBw : Field := ⟨0x080, 8, 3, .rw, .shadow, 2, .kept, .le 3⟩
/-- SYN, CTRL.TB (R357). -/
def synCtrlTb : Field := ⟨0x080, 4, 2, .rw, .shadow, 0, .kept, .any⟩
/-- SYN, CTRL.SOURCE (R357). -/
def synCtrlSource : Field := ⟨0x080, 1, 1, .rw, .shadow, 0, .kept, .any⟩
/-- SYN, CTRL.EN (R357). -/
def synCtrlEn : Field := ⟨0x080, 0, 1, .rw, .live, 0, .kept, .any⟩
/-- SYN, NUM.NUM (R357). -/
def synNum : Field := ⟨0x084, 0, 32, .rw, .shadow, 1, .kept, .any⟩
/-- SYN, DEN.DEN (R357). -/
def synDen : Field := ⟨0x088, 0, 32, .rw, .shadow, 1, .kept, .range 1 4294967295⟩
/-- SYN, MDLL.N (R357). -/
def synMdllN : Field := ⟨0x08C, 0, 6, .rw, .shadow, 16, .kept, .range 4 40⟩
/-- SYN, BAND_SEL.BAND (R357). -/
def synBandSelBand : Field := ⟨0x090, 0, 5, .ro, .none, 0, .becomes 0, .any⟩
/-- SYN, TRIM.TRIM (R357). -/
def synTrim : Field := ⟨0x094, 0, 8, .ro, .none, 0, .kept, .any⟩
/-- SYN, BAND_INDEX.BAND (R357). -/
def synBandIndexBand : Field := ⟨0x0A0, 0, 5, .rw, .live, 0, .becomes 0, .any⟩
/-- SYN, BAND.MIN (R357). -/
def synBandMin : Field := ⟨0x0A4, 16, 16, .rw, .idle, 0, .kept, .any⟩
/-- SYN, BAND.MAX (R357). -/
def synBandMax : Field := ⟨0x0A4, 0, 16, .rw, .idle, 0, .kept, .any⟩
/-- SYN, OUT_INDEX.OUT (R357). -/
def synOutIndexOut : Field := ⟨0x0C0, 0, 3, .rw, .live, 0, .becomes 0, .any⟩
/-- SYN, OUT_CTRL.EN (R357). -/
def synOutCtrlEn : Field := ⟨0x0C4, 31, 1, .rw, .live, 0, .kept, .any⟩
/-- SYN, OUT_CTRL.DELAY (R357). -/
def synOutCtrlDelay : Field := ⟨0x0C4, 16, 6, .rw, .live, 0, .kept, .any⟩
/-- SYN, OUT_CTRL.DIV (R357). -/
def synOutCtrlDiv : Field := ⟨0x0C4, 0, 10, .rw, .shadow, 16, .kept, .range 1 1023⟩
/-- SYN, OUT_STATUS.IN_USE (R357). -/
def synOutStatusInUse : Field := ⟨0x0C8, 31, 1, .ro, .none, 0, .becomes 0, .any⟩
/-- SYN, OUT_STATUS.ALIGN_BUSY (R357). -/
def synOutStatusAlignBusy : Field := ⟨0x0C8, 30, 1, .ro, .none, 0, .becomes 0, .any⟩
/-- SYN, OUT_STATUS.USER (R357). -/
def synOutStatusUser : Field := ⟨0x0C8, 0, 12, .ro, .none, 0, .becomes 0, .any⟩

/-- The register fields of SYN. -/
def synFields : List Field :=
  [synCtrlBw, synCtrlTb, synCtrlSource, synCtrlEn, synNum, synDen, synMdllN, synBandSelBand, synTrim,
   synBandIndexBand, synBandMin, synBandMax, synOutIndexOut, synOutCtrlEn, synOutCtrlDelay,
   synOutCtrlDiv, synOutStatusInUse, synOutStatusAlignBusy, synOutStatusUser]

/-- KEY, CMD.OP (R382). -/
def keyCmdOp : Field := ⟨0x080, 28, 4, .rw, .live, 0, .becomes 0, .range 1 9⟩
/-- KEY, CMD.REPLACE (R382). -/
def keyCmdReplace : Field := ⟨0x080, 27, 1, .rw, .live, 0, .becomes 0, .any⟩
/-- KEY, CMD.ATTR (R382). -/
def keyCmdAttr : Field := ⟨0x080, 24, 2, .rw, .live, 0, .becomes 0, .any⟩
/-- KEY, CMD.SLOT (R382). -/
def keyCmdSlot : Field := ⟨0x080, 16, 7, .rw, .live, 0, .becomes 0, .any⟩
/-- KEY, CMD.PARENT (R382). -/
def keyCmdParent : Field := ⟨0x080, 8, 8, .rw, .live, 255, .becomes 255, .any⟩
/-- KEY, CMD.NEW_PARENT (R382). -/
def keyCmdNewParent : Field := ⟨0x080, 0, 8, .rw, .live, 255, .becomes 255, .any⟩
/-- KEY, CMD_SRC_LO.ADDR (R382). -/
def keyCmdSrcLoAddr : Field := ⟨0x084, 3, 29, .rw, .live, 0, .becomes 0, .any⟩
/-- KEY, CMD_DST_LO.ADDR (R382). -/
def keyCmdDstLoAddr : Field := ⟨0x08C, 3, 29, .rw, .live, 0, .becomes 0, .any⟩
/-- KEY, CMD_SRC_HI.ADDR (R382). -/
def keyCmdSrcHiAddr : Field := ⟨0x088, 0, 8, .rw, .live, 0, .becomes 0, .any⟩
/-- KEY, CMD_DST_HI.ADDR (R382). -/
def keyCmdDstHiAddr : Field := ⟨0x090, 0, 8, .rw, .live, 0, .becomes 0, .any⟩
/-- KEY, CMD_LEN.BYTES (R382). -/
def keyCmdLenBytes : Field := ⟨0x094, 0, 9, .rw, .live, 0, .becomes 0, .any⟩
/-- KEY, CMD_GO.GO (R382). -/
def keyCmdGoGo : Field := ⟨0x098, 0, 1, .wo, .none, 0, .becomes 0, .any⟩
/-- KEY, CMD_RESULT.CODE (R382). -/
def keyCmdResultCode : Field := ⟨0x09C, 28, 4, .ro, .none, 15, .becomes 15, .any⟩
/-- KEY, CMD_RESULT.ABANDONED (R382). -/
def keyCmdResultAbandoned : Field := ⟨0x09C, 27, 1, .ro, .none, 0, .becomes 0, .any⟩
/-- KEY, CTRL.IMPORT_LOCK (R382). -/
def keyCtrlImportLock : Field := ⟨0x0A0, 0, 1, .w1s, .none, 0, .kept, .any⟩
/-- KEY, LC_CTRL.KEY (R382). -/
def keyLcCtrlKey : Field := ⟨0x0A4, 16, 16, .wo, .none, 0, .becomes 0, .any⟩
/-- KEY, LC_CTRL.TARGET (R382). -/
def keyLcCtrlTarget : Field := ⟨0x0A4, 0, 2, .wo, .none, 0, .becomes 0, .any⟩
/-- KEY, LC_STATUS.RESULT (R382). -/
def keyLcStatusResult : Field := ⟨0x0A8, 28, 4, .ro, .none, 15, .kept, .any⟩
/-- KEY, LC_STATUS.BUSY (R382). -/
def keyLcStatusBusy : Field := ⟨0x0A8, 27, 1, .ro, .none, 0, .becomes 0, .any⟩
/-- KEY, LC_STATUS.PENDING (R382). -/
def keyLcStatusPending : Field := ⟨0x0A8, 4, 2, .ro, .none, 0, .kept, .any⟩
/-- KEY, LC_STATUS.STATE (R382). -/
def keyLcStatusState : Field := ⟨0x0A8, 0, 3, .ro, .none, 0, .kept, .any⟩
/-- KEY, SERIAL_LO.SERIAL (R382). -/
def keySerialLoSerial : Field := ⟨0x0AC, 0, 32, .ro, .none, 0, .kept, .any⟩
/-- KEY, SERIAL_HI.SERIAL (R382). -/
def keySerialHiSerial : Field := ⟨0x0B0, 0, 32, .ro, .none, 0, .kept, .any⟩
/-- KEY, DWK_KCV.KCV (R382). -/
def keyDwkKcvKcv : Field := ⟨0x0B4, 0, 32, .ro, .none, 0, .kept, .any⟩
/-- KEY, SLOT_INDEX.SLOT (R382). -/
def keySlotIndexSlot : Field := ⟨0x0C0, 0, 7, .rw, .live, 0, .becomes 0, .any⟩
/-- KEY, SLOT_INFO.STATE (R382). -/
def keySlotInfoState : Field := ⟨0x0C4, 30, 2, .ro, .none, 0, .kept, .any⟩
/-- KEY, SLOT_INFO.ATTR (R382). -/
def keySlotInfoAttr : Field := ⟨0x0C4, 28, 2, .ro, .none, 0, .kept, .any⟩
/-- KEY, SLOT_INFO.ORIGIN (R382). -/
def keySlotInfoOrigin : Field := ⟨0x0C4, 26, 2, .ro, .none, 0, .kept, .any⟩
/-- KEY, SLOT_INFO.PARENT (R382). -/
def keySlotInfoParent : Field := ⟨0x0C4, 0, 8, .ro, .none, 0, .kept, .any⟩
/-- KEY, SLOT_GEN.GEN (R382). -/
def keySlotGenGen : Field := ⟨0x0C8, 16, 16, .ro, .none, 0, .kept, .any⟩
/-- KEY, SLOT_GEN.PARENT_GEN (R382). -/
def keySlotGenParentGen : Field := ⟨0x0C8, 0, 16, .ro, .none, 0, .kept, .any⟩
/-- KEY, SLOT_KCV.KCV (R382). -/
def keySlotKcvKcv : Field := ⟨0x0CC, 0, 32, .ro, .none, 0, .kept, .any⟩
/-- KEY, SLOT_COUNT.ORPHANED (R382). -/
def keySlotCountOrphaned : Field := ⟨0x0D0, 16, 8, .ro, .none, 0, .kept, .any⟩
/-- KEY, SLOT_COUNT.VALID (R382). -/
def keySlotCountValid : Field := ⟨0x0D0, 0, 8, .ro, .none, 0, .kept, .any⟩
/-- KEY, OUT0.RESP (R382). -/
def keyOut0Resp : Field := ⟨0x100, 0, 32, .ro, .none, 0, .becomes 0, .any⟩
/-- KEY, OUT1.RESP (R382). -/
def keyOut1Resp : Field := ⟨0x104, 0, 32, .ro, .none, 0, .becomes 0, .any⟩
/-- KEY, OUT2.RESP (R382). -/
def keyOut2Resp : Field := ⟨0x108, 0, 32, .ro, .none, 0, .becomes 0, .any⟩
/-- KEY, OUT3.RESP (R382). -/
def keyOut3Resp : Field := ⟨0x10C, 0, 32, .ro, .none, 0, .becomes 0, .any⟩
/-- KEY, OUT4.RESP (R382). -/
def keyOut4Resp : Field := ⟨0x110, 0, 32, .ro, .none, 0, .becomes 0, .any⟩
/-- KEY, OUT5.RESP (R382). -/
def keyOut5Resp : Field := ⟨0x114, 0, 32, .ro, .none, 0, .becomes 0, .any⟩
/-- KEY, OUT6.RESP (R382). -/
def keyOut6Resp : Field := ⟨0x118, 0, 32, .ro, .none, 0, .becomes 0, .any⟩
/-- KEY, OUT7.RESP (R382). -/
def keyOut7Resp : Field := ⟨0x11C, 0, 32, .ro, .none, 0, .becomes 0, .any⟩
/-- KEY, DIGEST0.DIGEST (R382). -/
def keyDigest0Digest : Field := ⟨0x120, 0, 32, .ro, .none, 0, .becomes 0, .any⟩
/-- KEY, DIGEST1.DIGEST (R382). -/
def keyDigest1Digest : Field := ⟨0x124, 0, 32, .ro, .none, 0, .becomes 0, .any⟩
/-- KEY, DIGEST2.DIGEST (R382). -/
def keyDigest2Digest : Field := ⟨0x128, 0, 32, .ro, .none, 0, .becomes 0, .any⟩
/-- KEY, DIGEST3.DIGEST (R382). -/
def keyDigest3Digest : Field := ⟨0x12C, 0, 32, .ro, .none, 0, .becomes 0, .any⟩
/-- KEY, DIGEST4.DIGEST (R382). -/
def keyDigest4Digest : Field := ⟨0x130, 0, 32, .ro, .none, 0, .becomes 0, .any⟩
/-- KEY, DIGEST5.DIGEST (R382). -/
def keyDigest5Digest : Field := ⟨0x134, 0, 32, .ro, .none, 0, .becomes 0, .any⟩
/-- KEY, DIGEST6.DIGEST (R382). -/
def keyDigest6Digest : Field := ⟨0x138, 0, 32, .ro, .none, 0, .becomes 0, .any⟩
/-- KEY, DIGEST7.DIGEST (R382). -/
def keyDigest7Digest : Field := ⟨0x13C, 0, 32, .ro, .none, 0, .becomes 0, .any⟩

/-- The register fields of KEY. -/
def keyFields : List Field :=
  [keyCmdOp, keyCmdReplace, keyCmdAttr, keyCmdSlot, keyCmdParent, keyCmdNewParent, keyCmdSrcLoAddr,
   keyCmdDstLoAddr, keyCmdSrcHiAddr, keyCmdDstHiAddr, keyCmdLenBytes, keyCmdGoGo, keyCmdResultCode,
   keyCmdResultAbandoned, keyCtrlImportLock, keyLcCtrlKey, keyLcCtrlTarget, keyLcStatusResult,
   keyLcStatusBusy, keyLcStatusPending, keyLcStatusState, keySerialLoSerial, keySerialHiSerial,
   keyDwkKcvKcv, keySlotIndexSlot, keySlotInfoState, keySlotInfoAttr, keySlotInfoOrigin,
   keySlotInfoParent, keySlotGenGen] ++
  [keySlotGenParentGen, keySlotKcvKcv, keySlotCountOrphaned, keySlotCountValid, keyOut0Resp,
   keyOut1Resp, keyOut2Resp, keyOut3Resp, keyOut4Resp, keyOut5Resp, keyOut6Resp, keyOut7Resp,
   keyDigest0Digest, keyDigest1Digest, keyDigest2Digest, keyDigest3Digest, keyDigest4Digest,
   keyDigest5Digest, keyDigest6Digest, keyDigest7Digest]

/-- BEZ, CELL_INDEX.CELL (R209). -/
def bezCellIndexCell : Field := ⟨0x080, 0, 4, .rw, .live, 0, .becomes 0, .any⟩
/-- BEZ, CELL_KEY.BIND (R209). -/
def bezCellKeyBind : Field := ⟨0x0C0, 31, 1, .rw, .live, 0, .kept, .any⟩
/-- BEZ, CELL_KEY.SLOT (R209). -/
def bezCellKeySlot : Field := ⟨0x0C0, 0, 7, .rw, .live, 0, .kept, .any⟩
/-- BEZ, MSG_SRC_LO.ADDR (R209). -/
def bezMsgSrcLoAddr : Field := ⟨0x0C4, 4, 28, .rw, .live, 0, .becomes 0, .any⟩
/-- BEZ, MSG_SRC_HI.ADDR (R209). -/
def bezMsgSrcHiAddr : Field := ⟨0x0C8, 0, 8, .rw, .live, 0, .becomes 0, .any⟩
/-- BEZ, MSG_LEN.BYTES (R209). -/
def bezMsgLenBytes : Field := ⟨0x0CC, 0, 23, .rw, .live, 0, .becomes 0, .any⟩
/-- BEZ, MSG_GO.GO (R209). -/
def bezMsgGoGo : Field := ⟨0x0D0, 0, 1, .wo, .none, 0, .becomes 0, .any⟩
/-- BEZ, RESULT.CODE (R209). -/
def bezResultCode : Field := ⟨0x0D4, 28, 4, .ro, .none, 15, .becomes 15, .any⟩
/-- BEZ, RESULT.ALIVE_SKIP (R209). -/
def bezResultAliveSkip : Field := ⟨0x0D4, 3, 1, .ro, .none, 0, .becomes 0, .any⟩
/-- BEZ, CELL_STATUS.STALE (R209). -/
def bezCellStatusStale : Field := ⟨0x0D8, 6, 1, .ro, .none, 0, .becomes 0, .any⟩
/-- BEZ, CELL_STATUS.VISIBLE (R209). -/
def bezCellStatusVisible : Field := ⟨0x0D8, 5, 1, .ro, .none, 0, .kept, .any⟩
/-- BEZ, CELL_STATUS.IMAGE_PENDING (R209). -/
def bezCellStatusImagePending : Field := ⟨0x0D8, 4, 1, .ro, .none, 0, .becomes 0, .any⟩
/-- BEZ, CELL_STATUS.BUSY (R209). -/
def bezCellStatusBusy : Field := ⟨0x0D8, 3, 1, .ro, .none, 0, .becomes 0, .any⟩
/-- BEZ, CELL_STATUS.STATE (R209). -/
def bezCellStatusState : Field := ⟨0x0D8, 0, 3, .ro, .none, 0, .kept, .any⟩
/-- BEZ, LAST_ALIVE_LO.ALIVE (R209). -/
def bezLastAliveLoAlive : Field := ⟨0x0DC, 0, 32, .ro, .none, 0, .kept, .any⟩
/-- BEZ, LAST_ALIVE_HI.ALIVE (R209). -/
def bezLastAliveHiAlive : Field := ⟨0x0E0, 0, 32, .ro, .none, 0, .kept, .any⟩
/-- BEZ, APPLY_FRAME_LO.FRAME (R209). -/
def bezApplyFrameLoFrame : Field := ⟨0x0E4, 0, 32, .ro, .none, 0, .kept, .any⟩
/-- BEZ, APPLY_FRAME_HI.FRAME (R209). -/
def bezApplyFrameHiFrame : Field := ⟨0x0E8, 0, 16, .ro, .none, 0, .kept, .any⟩
/-- BEZ, STATE_XY.X (R209). -/
def bezStateXyX : Field := ⟨0x0EC, 16, 16, .ro, .none, 0, .kept, .any⟩
/-- BEZ, STATE_XY.Y (R209). -/
def bezStateXyY : Field := ⟨0x0EC, 0, 16, .ro, .none, 0, .kept, .any⟩
/-- BEZ, STATE_VIEW.ALPHA (R209). -/
def bezStateViewAlpha : Field := ⟨0x0F0, 24, 8, .ro, .none, 0, .kept, .any⟩
/-- BEZ, STATE_VIEW.WRAP (R209). -/
def bezStateViewWrap : Field := ⟨0x0F0, 17, 1, .ro, .none, 0, .kept, .any⟩
/-- BEZ, STATE_VIEW.VISIBLE (R209). -/
def bezStateViewVisible : Field := ⟨0x0F0, 16, 1, .ro, .none, 0, .kept, .any⟩
/-- BEZ, STATE_VIEW.VIEW_W (R209). -/
def bezStateViewViewW : Field := ⟨0x0F0, 0, 16, .ro, .none, 0, .kept, .any⟩
/-- BEZ, IMAGE_WH.W (R209). -/
def bezImageWhW : Field := ⟨0x0F4, 16, 16, .ro, .none, 0, .kept, .any⟩
/-- BEZ, IMAGE_WH.H (R209). -/
def bezImageWhH : Field := ⟨0x0F4, 0, 16, .ro, .none, 0, .kept, .any⟩
/-- BEZ, OFFSET.OFFSET (R209). -/
def bezOffset : Field := ⟨0x0F8, 0, 32, .ro, .none, 0, .kept, .any⟩
/-- BEZ, SCROLL.SCROLL (R209). -/
def bezScroll : Field := ⟨0x0FC, 0, 16, .ro, .none, 0, .kept, .any⟩
/-- BEZ, CNT.REFUSED (R209). -/
def bezCntRefused : Field := ⟨0x100, 16, 16, .rc, .none, 0, .becomes 0, .any⟩
/-- BEZ, CNT.ACCEPTED (R209). -/
def bezCntAccepted : Field := ⟨0x100, 0, 16, .rc, .none, 0, .becomes 0, .any⟩
/-- BEZ, STALE.FRAMES (R209). -/
def bezStaleFrames : Field := ⟨0x104, 0, 16, .rw, .live, 0, .kept, .any⟩

/-- The register fields of BEZ. -/
def bezFields : List Field :=
  [bezCellIndexCell, bezCellKeyBind, bezCellKeySlot, bezMsgSrcLoAddr, bezMsgSrcHiAddr, bezMsgLenBytes,
   bezMsgGoGo, bezResultCode, bezResultAliveSkip, bezCellStatusStale, bezCellStatusVisible,
   bezCellStatusImagePending, bezCellStatusBusy, bezCellStatusState, bezLastAliveLoAlive,
   bezLastAliveHiAlive, bezApplyFrameLoFrame, bezApplyFrameHiFrame, bezStateXyX, bezStateXyY,
   bezStateViewAlpha, bezStateViewWrap, bezStateViewVisible, bezStateViewViewW, bezImageWhW,
   bezImageWhH, bezOffset, bezScroll, bezCntRefused, bezCntAccepted] ++
  [bezStaleFrames]

/-- CVU, CFG.REFIN (R386). -/
def cvuCfgRefin : Field := ⟨0x080, 31, 1, .rw, .idle, 1, .kept, .any⟩
/-- CVU, CFG.REFOUT (R386). -/
def cvuCfgRefout : Field := ⟨0x080, 30, 1, .rw, .idle, 1, .kept, .any⟩
/-- CVU, CFG.INV (R386). -/
def cvuCfgInv : Field := ⟨0x080, 29, 1, .rw, .idle, 1, .kept, .any⟩
/-- CVU, CFG.CONT (R386). -/
def cvuCfgCont : Field := ⟨0x080, 28, 1, .rw, .idle, 0, .kept, .any⟩
/-- CVU, CFG.WIDTH (R386). -/
def cvuCfgWidth : Field := ⟨0x080, 16, 7, .rw, .idle, 32, .kept, .range 1 64⟩
/-- CVU, POLY_LO.POLY (R386). -/
def cvuPolyLoPoly : Field := ⟨0x084, 0, 32, .rw, .idle, 517762881, .kept, .any⟩
/-- CVU, POLY_HI.POLY (R386). -/
def cvuPolyHiPoly : Field := ⟨0x088, 0, 32, .rw, .idle, 0, .kept, .any⟩
/-- CVU, INIT_LO.INIT (R386). -/
def cvuInitLoInit : Field := ⟨0x08C, 0, 32, .rw, .idle, 4294967295, .kept, .any⟩
/-- CVU, INIT_HI.INIT (R386). -/
def cvuInitHiInit : Field := ⟨0x090, 0, 32, .rw, .idle, 4294967295, .kept, .any⟩
/-- CVU, SRC_LO.ADDR (R386). -/
def cvuSrcLoAddr : Field := ⟨0x094, 0, 32, .rw, .idle, 0, .kept, .any⟩
/-- CVU, SRC_HI.ADDR (R386). -/
def cvuSrcHiAddr : Field := ⟨0x098, 0, 8, .rw, .idle, 0, .kept, .any⟩
/-- CVU, LEN.BYTES (R386). -/
def cvuLenBytes : Field := ⟨0x09C, 0, 28, .rw, .idle, 0, .kept, .range 1 268435455⟩
/-- CVU, GO.ABORT (R386). -/
def cvuGoAbort : Field := ⟨0x0A0, 3, 1, .wo, .none, 0, .becomes 0, .any⟩
/-- CVU, GO.ARM (R386). -/
def cvuGoArm : Field := ⟨0x0A0, 2, 1, .wo, .none, 0, .becomes 0, .any⟩
/-- CVU, GO.RESTART (R386). -/
def cvuGoRestart : Field := ⟨0x0A0, 1, 1, .wo, .none, 0, .becomes 0, .any⟩
/-- CVU, GO.START (R386). -/
def cvuGoStart : Field := ⟨0x0A0, 0, 1, .wo, .none, 0, .becomes 0, .any⟩
/-- CVU, FEED.DATA (R386). -/
def cvuFeedData : Field := ⟨0x0A4, 0, 32, .wo, .none, 0, .becomes 0, .any⟩
/-- CVU, FEED1.DATA (R386). -/
def cvuFeed1Data : Field := ⟨0x0A8, 0, 8, .wo, .none, 0, .becomes 0, .any⟩
/-- CVU, RESULT_LO.RESULT (R386). -/
def cvuResultLoResult : Field := ⟨0x0B0, 0, 32, .ro, .none, 0, .becomes 0, .any⟩
/-- CVU, RESULT_HI.RESULT (R386). -/
def cvuResultHiResult : Field := ⟨0x0B4, 0, 32, .ro, .none, 0, .becomes 0, .any⟩
/-- CVU, RESULT_STAT.CODE (R386). -/
def cvuResultStatCode : Field := ⟨0x0B8, 28, 4, .ro, .none, 15, .becomes 15, .any⟩
/-- CVU, RESULT_STAT.BYTES (R386). -/
def cvuResultStatBytes : Field := ⟨0x0B8, 0, 28, .ro, .none, 0, .becomes 0, .any⟩
/-- CVU, ALIVE_CFG.EN (R386). -/
def cvuAliveCfgEn : Field := ⟨0x0C0, 31, 1, .rw, .idle, 0, .kept, .any⟩
/-- CVU, ALIVE_CFG.WIDTH_A (R386). -/
def cvuAliveCfgWidthA : Field := ⟨0x0C0, 24, 7, .rw, .idle, 8, .kept, .range 1 64⟩
/-- CVU, ALIVE_CFG.STEP (R386). -/
def cvuAliveCfgStep : Field := ⟨0x0C0, 16, 8, .rw, .idle, 1, .kept, .range 1 255⟩
/-- CVU, ALIVE_CFG.OFFSET (R386). -/
def cvuAliveCfgOffset : Field := ⟨0x0C0, 0, 16, .rw, .idle, 0, .kept, .any⟩
/-- CVU, RECLEN.BYTES (R386). -/
def cvuReclenBytes : Field := ⟨0x0C4, 0, 24, .rw, .idle, 0, .kept, .any⟩
/-- CVU, ALIVE_LAST_LO.LAST (R386). -/
def cvuAliveLastLoLast : Field := ⟨0x0C8, 0, 32, .ro, .none, 0, .becomes 0, .any⟩
/-- CVU, ALIVE_LAST_HI.LAST (R386). -/
def cvuAliveLastHiLast : Field := ⟨0x0CC, 0, 32, .ro, .none, 0, .becomes 0, .any⟩
/-- CVU, ALIVE_CNT.SKIP (R386). -/
def cvuAliveCntSkip : Field := ⟨0x0D0, 16, 16, .rc, .none, 0, .becomes 0, .any⟩
/-- CVU, ALIVE_CNT.REPEAT (R386). -/
def cvuAliveCntRepeat : Field := ⟨0x0D0, 0, 16, .rc, .none, 0, .becomes 0, .any⟩

/-- The register fields of CVU. -/
def cvuFields : List Field :=
  [cvuCfgRefin, cvuCfgRefout, cvuCfgInv, cvuCfgCont, cvuCfgWidth, cvuPolyLoPoly, cvuPolyHiPoly,
   cvuInitLoInit, cvuInitHiInit, cvuSrcLoAddr, cvuSrcHiAddr, cvuLenBytes, cvuGoAbort, cvuGoArm,
   cvuGoRestart, cvuGoStart, cvuFeedData, cvuFeed1Data, cvuResultLoResult, cvuResultHiResult,
   cvuResultStatCode, cvuResultStatBytes, cvuAliveCfgEn, cvuAliveCfgWidthA, cvuAliveCfgStep,
   cvuAliveCfgOffset, cvuReclenBytes, cvuAliveLastLoLast, cvuAliveLastHiLast, cvuAliveCntSkip] ++
  [cvuAliveCntRepeat]

/-- PRESS, SUB_W0.WORD (R393). -/
def pressSubW0Word : Field := ⟨0x080, 0, 32, .rw, .live, 0, .becomes 0, .any⟩
/-- PRESS, SUB_W1.WORD (R393). -/
def pressSubW1Word : Field := ⟨0x084, 0, 32, .rw, .live, 0, .becomes 0, .any⟩
/-- PRESS, SUB_W2.WORD (R393). -/
def pressSubW2Word : Field := ⟨0x088, 0, 32, .rw, .live, 0, .becomes 0, .any⟩
/-- PRESS, SUB_W3.WORD (R393). -/
def pressSubW3Word : Field := ⟨0x08C, 0, 32, .rw, .live, 0, .becomes 0, .any⟩
/-- PRESS, SUB_W4.WORD (R393). -/
def pressSubW4Word : Field := ⟨0x090, 0, 32, .rw, .live, 0, .becomes 0, .any⟩
/-- PRESS, SUB_W5.WORD (R393). -/
def pressSubW5Word : Field := ⟨0x094, 0, 32, .rw, .live, 0, .becomes 0, .any⟩
/-- PRESS, SUB_W6.WORD (R393). -/
def pressSubW6Word : Field := ⟨0x098, 0, 32, .rw, .live, 0, .becomes 0, .any⟩
/-- PRESS, SUB_W7.WORD (R393). -/
def pressSubW7Word : Field := ⟨0x09C, 0, 32, .rw, .live, 0, .becomes 0, .any⟩
/-- PRESS, SUBMIT.GO (R393). -/
def pressSubmitGo : Field := ⟨0x0A0, 0, 1, .wo, .none, 0, .becomes 0, .any⟩
/-- PRESS, SUB_RESULT.CODE (R393). -/
def pressSubResultCode : Field := ⟨0x0A4, 28, 4, .ro, .none, 15, .becomes 15, .any⟩
/-- PRESS, QUEUE.RUNNING_JOB (R393). -/
def pressQueueRunningJob : Field := ⟨0x0A8, 31, 1, .ro, .none, 0, .becomes 0, .any⟩
/-- PRESS, QUEUE.OPEN (R393). -/
def pressQueueOpen : Field := ⟨0x0A8, 30, 1, .ro, .none, 0, .becomes 0, .any⟩
/-- PRESS, QUEUE.DEPTH (R393). -/
def pressQueueDepth : Field := ⟨0x0A8, 0, 7, .ro, .none, 0, .becomes 0, .any⟩
/-- PRESS, DONE_W0.RECORD (R393). -/
def pressDoneW0Record : Field := ⟨0x0B0, 0, 32, .rc, .none, 0, .becomes 0, .any⟩
/-- PRESS, DONE_W1.RECORD (R393). -/
def pressDoneW1Record : Field := ⟨0x0B4, 0, 32, .ro, .none, 0, .becomes 0, .any⟩
/-- PRESS, DONE_W2.RECORD (R393). -/
def pressDoneW2Record : Field := ⟨0x0B8, 0, 32, .ro, .none, 0, .becomes 0, .any⟩
/-- PRESS, DONE_W3.RECORD (R393). -/
def pressDoneW3Record : Field := ⟨0x0BC, 0, 32, .ro, .none, 0, .becomes 0, .any⟩
/-- PRESS, CNT.JOBS (R393). -/
def pressCntJobs : Field := ⟨0x0C0, 16, 16, .rc, .none, 0, .becomes 0, .any⟩
/-- PRESS, CNT.FAILED (R393). -/
def pressCntFailed : Field := ⟨0x0C0, 0, 16, .rc, .none, 0, .becomes 0, .any⟩

/-- The register fields of PRESS. -/
def pressFields : List Field :=
  [pressSubW0Word, pressSubW1Word, pressSubW2Word, pressSubW3Word, pressSubW4Word, pressSubW5Word,
   pressSubW6Word, pressSubW7Word, pressSubmitGo, pressSubResultCode, pressQueueRunningJob,
   pressQueueOpen, pressQueueDepth, pressDoneW0Record, pressDoneW1Record, pressDoneW2Record,
   pressDoneW3Record, pressCntJobs, pressCntFailed]

/-- SDIRX, CTRL.CRC_CONCEAL (R126). -/
def sdirxCtrlCrcConceal : Field := ⟨0x080, 8, 1, .rw, .shadow, 1, .kept, .any⟩
/-- SDIRX, CTRL.RATE (R126). -/
def sdirxCtrlRate : Field := ⟨0x080, 4, 3, .rw, .idle, 0, .kept, .le 5⟩
/-- SDIRX, CTRL.EN (R126). -/
def sdirxCtrlEn : Field := ⟨0x080, 0, 1, .rw, .live, 0, .kept, .any⟩
/-- SDIRX, QUAD.QEN (R126). -/
def sdirxQuadQen : Field := ⟨0x084, 31, 1, .rw, .idle, 0, .kept, .any⟩
/-- SDIRX, QUAD.LINK (R126). -/
def sdirxQuadLink : Field := ⟨0x084, 8, 2, .rw, .idle, 0, .kept, .any⟩
/-- SDIRX, QUAD.LEAD (R126). -/
def sdirxQuadLead : Field := ⟨0x084, 0, 7, .rw, .idle, 0, .kept, .le 95⟩
/-- SDIRX, FMT.STRUCT (R126). -/
def sdirxFmtStruct : Field := ⟨0x088, 28, 4, .ro, .none, 0, .becomes 0, .any⟩
/-- SDIRX, FMT.RATE (R126). -/
def sdirxFmtRate : Field := ⟨0x088, 24, 4, .ro, .none, 0, .becomes 0, .any⟩
/-- SDIRX, FMT.SAMPLING (R126). -/
def sdirxFmtSampling : Field := ⟨0x088, 22, 2, .ro, .none, 0, .becomes 0, .any⟩
/-- SDIRX, FMT.DEPTH (R126). -/
def sdirxFmtDepth : Field := ⟨0x088, 20, 2, .ro, .none, 0, .becomes 0, .any⟩
/-- SDIRX, FMT.LINK (R126). -/
def sdirxFmtLink : Field := ⟨0x088, 16, 4, .ro, .none, 0, .becomes 0, .any⟩
/-- SDIRX, FMT.PID_PRESENT (R126). -/
def sdirxFmtPidPresent : Field := ⟨0x088, 1, 1, .ro, .none, 0, .becomes 0, .any⟩
/-- SDIRX, FMT.VALID (R126). -/
def sdirxFmtValid : Field := ⟨0x088, 0, 1, .ro, .none, 0, .becomes 0, .any⟩
/-- SDIRX, PID.BYTES (R126). -/
def sdirxPidBytes : Field := ⟨0x08C, 0, 32, .ro, .none, 0, .becomes 0, .any⟩
/-- SDIRX, CRC_CNT.LINES (R126). -/
def sdirxCrcCntLines : Field := ⟨0x090, 0, 32, .rc, .none, 0, .becomes 0, .any⟩
/-- SDIRX, ANC_CNT.CS_ERR (R126). -/
def sdirxAncCntCsErr : Field := ⟨0x094, 16, 16, .rc, .none, 0, .becomes 0, .any⟩
/-- SDIRX, ANC_CNT.UNMATCHED (R126). -/
def sdirxAncCntUnmatched : Field := ⟨0x094, 0, 16, .rc, .none, 0, .becomes 0, .any⟩
/-- SDIRX, SLIP_CNT.DROP (R126). -/
def sdirxSlipCntDrop : Field := ⟨0x098, 16, 16, .rc, .none, 0, .becomes 0, .any⟩
/-- SDIRX, SLIP_CNT.REPEAT (R126). -/
def sdirxSlipCntRepeat : Field := ⟨0x098, 0, 16, .rc, .none, 0, .becomes 0, .any⟩
/-- SDIRX, ANC_INDEX.FILTER (R126). -/
def sdirxAncIndexFilter : Field := ⟨0x0A0, 0, 4, .rw, .live, 0, .becomes 0, .any⟩
/-- SDIRX, ANC_FILT.EN (R126). -/
def sdirxAncFiltEn : Field := ⟨0x0A4, 31, 1, .rw, .shadow, 0, .kept, .any⟩
/-- SDIRX, ANC_FILT.STREAM (R126). -/
def sdirxAncFiltStream : Field := ⟨0x0A4, 24, 2, .rw, .shadow, 0, .kept, .any⟩
/-- SDIRX, ANC_FILT.DID (R126). -/
def sdirxAncFiltDid : Field := ⟨0x0A4, 16, 8, .rw, .shadow, 0, .kept, .any⟩
/-- SDIRX, ANC_FILT.SDID (R126). -/
def sdirxAncFiltSdid : Field := ⟨0x0A4, 8, 8, .rw, .shadow, 0, .kept, .any⟩
/-- SDIRX, ANC_FILT.SDID_ANY (R126). -/
def sdirxAncFiltSdidAny : Field := ⟨0x0A4, 7, 1, .rw, .shadow, 0, .kept, .any⟩
/-- SDIRX, ANC_FILT.AREA (R126). -/
def sdirxAncFiltArea : Field := ⟨0x0A4, 0, 2, .rw, .shadow, 0, .kept, .le 2⟩
/-- SDIRX, AUD_STAT.UNSUPPORTED (R259). -/
def sdirxAudStatUnsupported : Field := ⟨0x0B0, 24, 8, .ro, .none, 0, .becomes 0, .any⟩
/-- SDIRX, AUD_STAT.ASYNC (R259). -/
def sdirxAudStatAsync : Field := ⟨0x0B0, 16, 8, .ro, .none, 0, .becomes 0, .any⟩
/-- SDIRX, AUD_STAT.PRESENT (R259). -/
def sdirxAudStatPresent : Field := ⟨0x0B0, 0, 8, .ro, .none, 0, .becomes 0, .any⟩

/-- The register fields of SDIRX. -/
def sdirxFields : List Field :=
  [sdirxCtrlCrcConceal, sdirxCtrlRate, sdirxCtrlEn, sdirxQuadQen, sdirxQuadLink, sdirxQuadLead,
   sdirxFmtStruct, sdirxFmtRate, sdirxFmtSampling, sdirxFmtDepth, sdirxFmtLink, sdirxFmtPidPresent,
   sdirxFmtValid, sdirxPidBytes, sdirxCrcCntLines, sdirxAncCntCsErr, sdirxAncCntUnmatched,
   sdirxSlipCntDrop, sdirxSlipCntRepeat, sdirxAncIndexFilter, sdirxAncFiltEn, sdirxAncFiltStream,
   sdirxAncFiltDid, sdirxAncFiltSdid, sdirxAncFiltSdidAny, sdirxAncFiltArea, sdirxAudStatUnsupported,
   sdirxAudStatAsync, sdirxAudStatPresent]

/-- SDITX, CTRL.PID_EN (R126). -/
def sditxCtrlPidEn : Field := ⟨0x080, 8, 1, .rw, .shadow, 1, .kept, .any⟩
/-- SDITX, CTRL.LINK (R126). -/
def sditxCtrlLink : Field := ⟨0x080, 4, 3, .rw, .shadow, 0, .kept, .le 6⟩
/-- SDITX, CTRL.EN (R126). -/
def sditxCtrlEn : Field := ⟨0x080, 0, 1, .rw, .live, 0, .kept, .any⟩
/-- SDITX, CLK_SRC.KIND (R126). -/
def sditxClkSrcKind : Field := ⟨0x084, 8, 1, .rw, .idle, 0, .kept, .any⟩
/-- SDITX, CLK_SRC.SYN (R126). -/
def sditxClkSrcSyn : Field := ⟨0x084, 4, 4, .rw, .idle, 0, .kept, .any⟩
/-- SDITX, CLK_SRC.OUT (R126). -/
def sditxClkSrcOut : Field := ⟨0x084, 0, 3, .rw, .idle, 0, .kept, .any⟩
/-- SDITX, QUAD.QEN (R126). -/
def sditxQuadQen : Field := ⟨0x088, 31, 1, .rw, .idle, 0, .kept, .any⟩
/-- SDITX, QUAD.LINK (R126). -/
def sditxQuadLink : Field := ⟨0x088, 8, 2, .rw, .idle, 0, .kept, .any⟩
/-- SDITX, QUAD.LEAD (R126). -/
def sditxQuadLead : Field := ⟨0x088, 0, 7, .rw, .idle, 0, .kept, .le 95⟩
/-- SDITX, FILL.Y (R126). -/
def sditxFillY : Field := ⟨0x08C, 20, 10, .rw, .shadow, 64, .kept, .any⟩
/-- SDITX, FILL.CB (R126). -/
def sditxFillCb : Field := ⟨0x08C, 10, 10, .rw, .shadow, 512, .kept, .any⟩
/-- SDITX, FILL.CR (R126). -/
def sditxFillCr : Field := ⟨0x08C, 0, 10, .rw, .shadow, 512, .kept, .any⟩
/-- SDITX, FS_READ.DELAY (R126). -/
def sditxFsReadDelay : Field := ⟨0x090, 0, 3, .rw, .shadow, 0, .kept, .le 5⟩
/-- SDITX, ANC_CNT.OVF (R126). -/
def sditxAncCntOvf : Field := ⟨0x094, 16, 16, .rc, .none, 0, .becomes 0, .any⟩
/-- SDITX, ANC_CNT.DEFER (R126). -/
def sditxAncCntDefer : Field := ⟨0x094, 0, 16, .rc, .none, 0, .becomes 0, .any⟩
/-- SDITX, AUD_GRP.EN (R259). -/
def sditxAudGrpEn : Field := ⟨0x0A0, 0, 8, .rw, .shadow, 15, .kept, .any⟩
/-- SDITX, AUD_ACT.ACT (R259). -/
def sditxAudActAct : Field := ⟨0x0A4, 0, 32, .rw, .shadow, 4294967295, .kept, .any⟩

/-- The register fields of SDITX. -/
def sditxFields : List Field :=
  [sditxCtrlPidEn, sditxCtrlLink, sditxCtrlEn, sditxClkSrcKind, sditxClkSrcSyn, sditxClkSrcOut,
   sditxQuadQen, sditxQuadLink, sditxQuadLead, sditxFillY, sditxFillCb, sditxFillCr, sditxFsReadDelay,
   sditxAncCntOvf, sditxAncCntDefer, sditxAudGrpEn, sditxAudActAct]

/-- IPP, CTRL.FEC25 (R151). -/
def ippCtrlFec25 : Field := ⟨0x080, 2, 1, .rw, .idle, 1, .kept, .any⟩
/-- IPP, CTRL.MODE (R151). -/
def ippCtrlMode : Field := ⟨0x080, 1, 1, .rw, .idle, 0, .kept, .any⟩
/-- IPP, CTRL.EN (R151). -/
def ippCtrlEn : Field := ⟨0x080, 0, 1, .rw, .live, 0, .kept, .any⟩
/-- IPP, LINK_INDEX.LINK (R151). -/
def ippLinkIndexLink : Field := ⟨0x084, 0, 2, .rw, .live, 0, .becomes 0, .any⟩
/-- IPP, LINK_MAC_LO.MAC (R151). -/
def ippLinkMacLoMac : Field := ⟨0x088, 0, 32, .rw, .live, 0, .kept, .any⟩
/-- IPP, LINK_MAC_HI.MAC (R151). -/
def ippLinkMacHiMac : Field := ⟨0x08C, 0, 16, .rw, .live, 0, .kept, .any⟩
/-- IPP, LINK_STATUS.REMOTE_FAULT (R151). -/
def ippLinkStatusRemoteFault : Field := ⟨0x090, 2, 1, .ro, .none, 0, .becomes 0, .any⟩
/-- IPP, LINK_STATUS.LOCAL_FAULT (R151). -/
def ippLinkStatusLocalFault : Field := ⟨0x090, 1, 1, .ro, .none, 0, .becomes 0, .any⟩
/-- IPP, LINK_STATUS.UP (R151). -/
def ippLinkStatusUp : Field := ⟨0x090, 0, 1, .ro, .none, 0, .becomes 0, .any⟩
/-- IPP, LINK_CNT.BAD_FRAME (R151). -/
def ippLinkCntBadFrame : Field := ⟨0x094, 16, 16, .rc, .none, 0, .becomes 0, .any⟩
/-- IPP, LINK_CNT.FEC_UE (R151). -/
def ippLinkCntFecUe : Field := ⟨0x094, 0, 16, .rc, .none, 0, .becomes 0, .any⟩
/-- IPP, PTP_MID_LO.ID (R151). -/
def ippPtpMidLoId : Field := ⟨0x0A0, 0, 32, .rw, .live, 0, .kept, .any⟩
/-- IPP, PTP_MID_HI.ID (R151). -/
def ippPtpMidHiId : Field := ⟨0x0A4, 0, 32, .rw, .live, 0, .kept, .any⟩
/-- IPP, PTP_CFG.MPORT (R151). -/
def ippPtpCfgMport : Field := ⟨0x0A8, 16, 16, .rw, .live, 0, .kept, .any⟩
/-- IPP, PTP_CFG.DREQ_LOG (R151). -/
def ippPtpCfgDreqLog : Field := ⟨0x0A8, 8, 4, .rw, .live, 3, .kept, .le 7⟩
/-- IPP, PTP_CFG.UNICAST (R151). -/
def ippPtpCfgUnicast : Field := ⟨0x0A8, 0, 1, .rw, .live, 0, .kept, .any⟩
/-- IPP, PTP_ASYM.PS (R151). -/
def ippPtpAsymPs : Field := ⟨0x0AC, 0, 32, .rw, .live, 0, .kept, .any⟩
/-- IPP, SEC_CTRL.TX_AN (R151). -/
def ippSecCtrlTxAn : Field := ⟨0x0C0, 4, 2, .rw, .live, 0, .kept, .any⟩
/-- IPP, SEC_CTRL.VALIDATE (R151). -/
def ippSecCtrlValidate : Field := ⟨0x0C0, 3, 1, .rw, .live, 1, .kept, .any⟩
/-- IPP, SEC_CTRL.XPN (R151). -/
def ippSecCtrlXpn : Field := ⟨0x0C0, 2, 1, .rw, .idle, 0, .kept, .any⟩
/-- IPP, SEC_CTRL.EN (R151). -/
def ippSecCtrlEn : Field := ⟨0x0C0, 0, 1, .rw, .live, 0, .kept, .any⟩
/-- IPP, SA_INDEX.DIR (R151). -/
def ippSaIndexDir : Field := ⟨0x0C4, 2, 1, .rw, .live, 0, .becomes 0, .any⟩
/-- IPP, SA_INDEX.AN (R151). -/
def ippSaIndexAn : Field := ⟨0x0C4, 0, 2, .rw, .live, 0, .becomes 0, .any⟩
/-- IPP, SA_CFG.EN (R151). -/
def ippSaCfgEn : Field := ⟨0x0C8, 31, 1, .rw, .live, 0, .becomes 0, .any⟩
/-- IPP, SA_CFG.KEY_LOST (R151). -/
def ippSaCfgKeyLost : Field := ⟨0x0C8, 30, 1, .ro, .none, 0, .becomes 0, .any⟩
/-- IPP, SA_CFG.SLOT (R151). -/
def ippSaCfgSlot : Field := ⟨0x0C8, 16, 7, .rw, .live, 0, .kept, .any⟩
/-- IPP, SA_CFG.REPLAY_WIN (R151). -/
def ippSaCfgReplayWin : Field := ⟨0x0C8, 0, 16, .rw, .live, 0, .kept, .any⟩
/-- IPP, SA_PN_LO.PN (R151). -/
def ippSaPnLoPn : Field := ⟨0x0CC, 0, 32, .rw, .live, 1, .becomes 1, .any⟩
/-- IPP, SA_PN_HI.PN (R151). -/
def ippSaPnHiPn : Field := ⟨0x0D0, 0, 32, .rw, .live, 0, .becomes 0, .any⟩
/-- IPP, SA_SALT0.SALT (R151). -/
def ippSaSalt0Salt : Field := ⟨0x0D4, 0, 32, .wo, .none, 0, .becomes 0, .any⟩
/-- IPP, SA_SALT1.SALT (R151). -/
def ippSaSalt1Salt : Field := ⟨0x0D8, 0, 32, .wo, .none, 0, .becomes 0, .any⟩
/-- IPP, SA_SALT2.SALT (R151). -/
def ippSaSalt2Salt : Field := ⟨0x0DC, 0, 32, .wo, .none, 0, .becomes 0, .any⟩
/-- IPP, SA_SSCI.SSCI (R151). -/
def ippSaSsciSsci : Field := ⟨0x0E0, 0, 32, .rw, .live, 0, .kept, .any⟩
/-- IPP, SEC_CNT.DROPPED (R151). -/
def ippSecCntDropped : Field := ⟨0x0E4, 16, 16, .rc, .none, 0, .becomes 0, .any⟩
/-- IPP, SEC_CNT.UNPROTECTED (R151). -/
def ippSecCntUnprotected : Field := ⟨0x0E4, 0, 16, .rc, .none, 0, .becomes 0, .any⟩
/-- IPP, RST_INDEX.RASTER (R151). -/
def ippRstIndexRaster : Field := ⟨0x0FC, 0, 4, .rw, .live, 0, .becomes 0, .any⟩
/-- IPP, STRM_INDEX.DIR (R151). -/
def ippStrmIndexDir : Field := ⟨0x280, 6, 1, .rw, .live, 0, .becomes 0, .any⟩
/-- IPP, STRM_INDEX.SLOT (R151). -/
def ippStrmIndexSlot : Field := ⟨0x280, 0, 6, .rw, .live, 0, .becomes 0, .any⟩
/-- IPP, STRM_CFG.EN (R151). -/
def ippStrmCfgEn : Field := ⟨0x284, 31, 1, .rw, .live, 0, .kept, .any⟩
/-- IPP, STRM_CFG.ESSENCE (R151). -/
def ippStrmCfgEssence : Field := ⟨0x284, 28, 3, .rw, .idle, 0, .kept, .le 3⟩
/-- IPP, STRM_CFG.LINK (R151). -/
def ippStrmCfgLink : Field := ⟨0x284, 26, 2, .rw, .idle, 0, .kept, .any⟩
/-- IPP, STRM_CFG.PACE (R151). -/
def ippStrmCfgPace : Field := ⟨0x284, 24, 2, .rw, .shadow, 1, .kept, .le 2⟩
/-- IPP, STRM_CFG.PM (R151). -/
def ippStrmCfgPm : Field := ⟨0x284, 23, 1, .rw, .shadow, 0, .kept, .any⟩
/-- IPP, STRM_CFG.RELEASE (R151). -/
def ippStrmCfgRelease : Field := ⟨0x284, 22, 1, .rw, .shadow, 0, .kept, .any⟩
/-- IPP, STRM_CFG.PATH2_EN (R151). -/
def ippStrmCfgPath2En : Field := ⟨0x284, 21, 1, .rw, .shadow, 0, .kept, .any⟩
/-- IPP, STRM_CFG.SRC_FILT (R151). -/
def ippStrmCfgSrcFilt : Field := ⟨0x284, 20, 1, .rw, .shadow, 0, .kept, .any⟩
/-- IPP, STRM_CFG.VLAN_EN (R151). -/
def ippStrmCfgVlanEn : Field := ⟨0x284, 19, 1, .rw, .shadow, 0, .kept, .any⟩
/-- IPP, STRM_CFG.PTIME (R151). -/
def ippStrmCfgPtime : Field := ⟨0x284, 18, 1, .rw, .shadow, 0, .kept, .any⟩
/-- IPP, STRM_CFG.L16 (R151). -/
def ippStrmCfgL16 : Field := ⟨0x284, 17, 1, .rw, .shadow, 0, .kept, .any⟩
/-- IPP, STRM_CFG.RASTER (R151). -/
def ippStrmCfgRaster : Field := ⟨0x284, 12, 4, .rw, .shadow, 0, .kept, .any⟩
/-- IPP, STRM_CFG.VLAN (R151). -/
def ippStrmCfgVlan : Field := ⟨0x284, 0, 12, .rw, .shadow, 0, .kept, .any⟩
/-- IPP, STRM_DST.ADDR (R151). -/
def ippStrmDstAddr : Field := ⟨0x288, 0, 32, .rw, .shadow, 0, .kept, .any⟩
/-- IPP, STRM_DST2.ADDR (R151). -/
def ippStrmDst2Addr : Field := ⟨0x298, 0, 32, .rw, .shadow, 0, .kept, .any⟩
/-- IPP, STRM_SRC.ADDR (R151). -/
def ippStrmSrcAddr : Field := ⟨0x28C, 0, 32, .rw, .shadow, 0, .kept, .any⟩
/-- IPP, STRM_SRC2.ADDR (R151). -/
def ippStrmSrc2Addr : Field := ⟨0x29C, 0, 32, .rw, .shadow, 0, .kept, .any⟩
/-- IPP, STRM_PORT.UDP (R151). -/
def ippStrmPortUdp : Field := ⟨0x290, 16, 16, .rw, .shadow, 5004, .kept, .any⟩
/-- IPP, STRM_PORT.DSCP (R151). -/
def ippStrmPortDscp : Field := ⟨0x290, 10, 6, .rw, .shadow, 0, .kept, .any⟩
/-- IPP, STRM_PORT.PT (R151). -/
def ippStrmPortPt : Field := ⟨0x290, 0, 7, .rw, .shadow, 96, .kept, .any⟩
/-- IPP, STRM_PATH2.VLAN (R151). -/
def ippStrmPath2Vlan : Field := ⟨0x294, 16, 12, .rw, .shadow, 0, .kept, .any⟩
/-- IPP, STRM_PATH2.PORT (R151). -/
def ippStrmPath2Port : Field := ⟨0x294, 4, 3, .rw, .shadow, 0, .kept, .any⟩
/-- IPP, STRM_PATH2.LINK (R151). -/
def ippStrmPath2Link : Field := ⟨0x294, 0, 2, .rw, .shadow, 0, .kept, .any⟩
/-- IPP, STRM_DMAC_LO.MAC (R151). -/
def ippStrmDmacLoMac : Field := ⟨0x2A0, 0, 32, .rw, .shadow, 0, .kept, .any⟩
/-- IPP, STRM_DMAC_HI.MAC (R151). -/
def ippStrmDmacHiMac : Field := ⟨0x2A4, 0, 16, .rw, .shadow, 0, .kept, .any⟩
/-- IPP, STRM_DELAY.RX_DELAY (R151). -/
def ippStrmDelayRxDelay : Field := ⟨0x2A8, 0, 24, .rw, .shadow, 0, .kept, .any⟩
/-- IPP, STRM_SSRC.SSRC (R151). -/
def ippStrmSsrcSsrc : Field := ⟨0x2AC, 0, 32, .rw, .shadow, 0, .kept, .any⟩
/-- IPP, STRM_COMMIT.CANCEL (R151). -/
def ippStrmCommitCancel : Field := ⟨0x2B0, 5, 1, .wo, .none, 0, .becomes 0, .any⟩
/-- IPP, STRM_COMMIT.COMMIT (R151). -/
def ippStrmCommitCommit : Field := ⟨0x2B0, 0, 1, .w1s, .none, 0, .becomes 0, .any⟩
/-- IPP, STRM_STATUS.KEY_LOST (R151). -/
def ippStrmStatusKeyLost : Field := ⟨0x2B4, 6, 1, .ro, .none, 0, .becomes 0, .any⟩
/-- IPP, STRM_STATUS.FMT_MISMATCH (R151). -/
def ippStrmStatusFmtMismatch : Field := ⟨0x2B4, 5, 1, .ro, .none, 0, .becomes 0, .any⟩
/-- IPP, STRM_STATUS.TYPE_MISMATCH (R151). -/
def ippStrmStatusTypeMismatch : Field := ⟨0x2B4, 4, 1, .ro, .none, 0, .becomes 0, .any⟩
/-- IPP, STRM_STATUS.FALLBACK (R151). -/
def ippStrmStatusFallback : Field := ⟨0x2B4, 3, 1, .ro, .none, 0, .becomes 0, .any⟩
/-- IPP, STRM_STATUS.PATH2_UP (R151). -/
def ippStrmStatusPath2Up : Field := ⟨0x2B4, 2, 1, .ro, .none, 0, .becomes 0, .any⟩
/-- IPP, STRM_STATUS.PATH1_UP (R151). -/
def ippStrmStatusPath1Up : Field := ⟨0x2B4, 1, 1, .ro, .none, 0, .becomes 0, .any⟩
/-- IPP, STRM_STATUS.RECEIVING (R151). -/
def ippStrmStatusReceiving : Field := ⟨0x2B4, 0, 1, .ro, .none, 0, .becomes 0, .any⟩
/-- IPP, STRM_CNT.LOST (R151). -/
def ippStrmCntLost : Field := ⟨0x2B8, 16, 16, .rc, .none, 0, .becomes 0, .any⟩
/-- IPP, STRM_CNT.MISTIMED (R151). -/
def ippStrmCntMistimed : Field := ⟨0x2B8, 0, 16, .rc, .none, 0, .becomes 0, .any⟩
/-- IPP, STRM_CNT2.RECOVERED (R151). -/
def ippStrmCnt2Recovered : Field := ⟨0x2BC, 16, 16, .rc, .none, 0, .becomes 0, .any⟩
/-- IPP, STRM_CNT2.BAD (R151). -/
def ippStrmCnt2Bad : Field := ⟨0x2BC, 0, 16, .rc, .none, 0, .becomes 0, .any⟩
/-- IPP, RXQ_STATUS.DROP (R151). -/
def ippRxqStatusDrop : Field := ⟨0x300, 16, 16, .rc, .none, 0, .becomes 0, .any⟩
/-- IPP, RXQ_STATUS.RECORDS (R151). -/
def ippRxqStatusRecords : Field := ⟨0x300, 0, 16, .ro, .none, 0, .becomes 0, .any⟩
/-- IPP, RXQ_DATA.WORD (R151). -/
def ippRxqDataWord : Field := ⟨0x304, 0, 32, .rc, .none, 0, .becomes 0, .any⟩
/-- IPP, TXQ_DATA.WORD (R151). -/
def ippTxqDataWord : Field := ⟨0x308, 0, 32, .wo, .none, 0, .becomes 0, .any⟩
/-- IPP, TXQ_PUSH.PUSH (R151). -/
def ippTxqPushPush : Field := ⟨0x30C, 0, 1, .wo, .none, 0, .becomes 0, .any⟩
/-- IPP, STRM_AMASK_LO.MASK (R259). -/
def ippStrmAmaskLoMask : Field := ⟨0x2C0, 0, 32, .rw, .shadow, 4294967295, .kept, .any⟩
/-- IPP, STRM_AMASK_HI.MASK (R259). -/
def ippStrmAmaskHiMask : Field := ⟨0x2C4, 0, 32, .rw, .shadow, 4294967295, .kept, .any⟩

/-- The register fields of IPP. -/
def ippFields : List Field :=
  [ippCtrlFec25, ippCtrlMode, ippCtrlEn, ippLinkIndexLink, ippLinkMacLoMac, ippLinkMacHiMac,
   ippLinkStatusRemoteFault, ippLinkStatusLocalFault, ippLinkStatusUp, ippLinkCntBadFrame,
   ippLinkCntFecUe, ippPtpMidLoId, ippPtpMidHiId, ippPtpCfgMport, ippPtpCfgDreqLog, ippPtpCfgUnicast,
   ippPtpAsymPs, ippSecCtrlTxAn, ippSecCtrlValidate, ippSecCtrlXpn, ippSecCtrlEn, ippSaIndexDir,
   ippSaIndexAn, ippSaCfgEn, ippSaCfgKeyLost, ippSaCfgSlot, ippSaCfgReplayWin, ippSaPnLoPn,
   ippSaPnHiPn, ippSaSalt0Salt] ++
  [ippSaSalt1Salt, ippSaSalt2Salt, ippSaSsciSsci, ippSecCntDropped, ippSecCntUnprotected,
   ippRstIndexRaster, ippStrmIndexDir, ippStrmIndexSlot, ippStrmCfgEn, ippStrmCfgEssence,
   ippStrmCfgLink, ippStrmCfgPace, ippStrmCfgPm, ippStrmCfgRelease, ippStrmCfgPath2En,
   ippStrmCfgSrcFilt, ippStrmCfgVlanEn, ippStrmCfgPtime, ippStrmCfgL16, ippStrmCfgRaster,
   ippStrmCfgVlan, ippStrmDstAddr, ippStrmDst2Addr, ippStrmSrcAddr, ippStrmSrc2Addr, ippStrmPortUdp,
   ippStrmPortDscp, ippStrmPortPt, ippStrmPath2Vlan, ippStrmPath2Port] ++
  [ippStrmPath2Link, ippStrmDmacLoMac, ippStrmDmacHiMac, ippStrmDelayRxDelay, ippStrmSsrcSsrc,
   ippStrmCommitCancel, ippStrmCommitCommit, ippStrmStatusKeyLost, ippStrmStatusFmtMismatch,
   ippStrmStatusTypeMismatch, ippStrmStatusFallback, ippStrmStatusPath2Up, ippStrmStatusPath1Up,
   ippStrmStatusReceiving, ippStrmCntLost, ippStrmCntMistimed, ippStrmCnt2Recovered, ippStrmCnt2Bad,
   ippRxqStatusDrop, ippRxqStatusRecords, ippRxqDataWord, ippTxqDataWord, ippTxqPushPush,
   ippStrmAmaskLoMask, ippStrmAmaskHiMask]

/-- FAB, FID.VALID (R298). -/
def fabFidValid : Field := ⟨0x080, 31, 1, .rw, .idle, 0, .kept, .any⟩
/-- FAB, FID.ID (R298). -/
def fabFidId : Field := ⟨0x080, 0, 14, .rw, .idle, 0, .kept, .any⟩
/-- FAB, FEVT_W0.WORD (R298). -/
def fabFevtW0Word : Field := ⟨0x084, 0, 32, .rw, .live, 0, .becomes 0, .any⟩
/-- FAB, FEVT_W1.WORD (R298). -/
def fabFevtW1Word : Field := ⟨0x088, 0, 32, .rw, .live, 0, .becomes 0, .any⟩
/-- FAB, FEVT_W2.WORD (R298). -/
def fabFevtW2Word : Field := ⟨0x08C, 0, 32, .rw, .live, 0, .becomes 0, .any⟩
/-- FAB, FEVT_W3.WORD (R298). -/
def fabFevtW3Word : Field := ⟨0x090, 0, 32, .rw, .live, 0, .becomes 0, .any⟩
/-- FAB, FEVT_RT_LO.PORTS (R298). -/
def fabFevtRtLoPorts : Field := ⟨0x094, 0, 28, .rw, .live, 0, .becomes 0, .any⟩
/-- FAB, FEVT_RT_HI.DST_DEV (R298). -/
def fabFevtRtHiDstDev : Field := ⟨0x098, 16, 14, .rw, .live, 0, .becomes 0, .any⟩
/-- FAB, FEVT_RT_HI.HOPS (R298). -/
def fabFevtRtHiHops : Field := ⟨0x098, 0, 3, .rw, .live, 0, .becomes 0, .any⟩
/-- FAB, FEVT_TAG.TAG (R298). -/
def fabFevtTagTag : Field := ⟨0x09C, 0, 16, .rw, .live, 0, .becomes 0, .any⟩
/-- FAB, FEVT_SUBMIT.GO (R298). -/
def fabFevtSubmitGo : Field := ⟨0x0A0, 0, 1, .wo, .none, 0, .becomes 0, .any⟩
/-- FAB, FEVT_RESULT.CODE (R298). -/
def fabFevtResultCode : Field := ⟨0x0A4, 28, 4, .ro, .none, 15, .becomes 15, .any⟩
/-- FAB, FEVT_ACK.VALID (R298). -/
def fabFevtAckValid : Field := ⟨0x0A8, 31, 1, .rc, .none, 0, .becomes 0, .any⟩
/-- FAB, FEVT_ACK.OVF (R298). -/
def fabFevtAckOvf : Field := ⟨0x0A8, 30, 1, .rc, .none, 0, .becomes 0, .any⟩
/-- FAB, FEVT_ACK.CODE (R298). -/
def fabFevtAckCode : Field := ⟨0x0A8, 26, 4, .rc, .none, 0, .becomes 0, .any⟩
/-- FAB, FEVT_ACK.TAG (R298). -/
def fabFevtAckTag : Field := ⟨0x0A8, 0, 16, .rc, .none, 0, .becomes 0, .any⟩
/-- FAB, FEVT_ACK_H.HANDLE (R298). -/
def fabFevtAckHHandle : Field := ⟨0x0AC, 0, 16, .ro, .none, 0, .becomes 0, .any⟩
/-- FAB, FEVT_PENDING.COUNT (R298). -/
def fabFevtPendingCount : Field := ⟨0x0B0, 0, 7, .ro, .none, 0, .becomes 0, .any⟩
/-- FAB, CTRL.BEACON_OUT (R298). -/
def fabCtrlBeaconOut : Field := ⟨0x0C0, 8, 4, .rw, .live, 0, .kept, .any⟩
/-- FAB, CTRL.TX_SET (R298). -/
def fabCtrlTxSet : Field := ⟨0x0C0, 3, 1, .rw, .live, 0, .kept, .any⟩
/-- FAB, CTRL.ENC_REQ (R298). -/
def fabCtrlEncReq : Field := ⟨0x0C0, 2, 1, .rw, .live, 0, .kept, .any⟩
/-- FAB, CTRL.ENC (R298). -/
def fabCtrlEnc : Field := ⟨0x0C0, 1, 1, .rw, .idle, 0, .kept, .any⟩
/-- FAB, CTRL.EN (R298). -/
def fabCtrlEn : Field := ⟨0x0C0, 0, 1, .rw, .live, 0, .kept, .any⟩
/-- FAB, PORT_STATUS.NBR_VALID (R298). -/
def fabPortStatusNbrValid : Field := ⟨0x0C4, 8, 1, .ro, .none, 0, .becomes 0, .any⟩
/-- FAB, PORT_STATUS.LANES_UP (R298). -/
def fabPortStatusLanesUp : Field := ⟨0x0C4, 4, 4, .ro, .none, 0, .becomes 0, .any⟩
/-- FAB, PORT_STATUS.ID_CLASH (R298). -/
def fabPortStatusIdClash : Field := ⟨0x0C4, 3, 1, .ro, .none, 0, .becomes 0, .any⟩
/-- FAB, PORT_STATUS.STATE (R298). -/
def fabPortStatusState : Field := ⟨0x0C4, 0, 3, .ro, .none, 0, .becomes 0, .any⟩
/-- FAB, NEIGHBOUR.DEV (R298). -/
def fabNeighbourDev : Field := ⟨0x0C8, 16, 14, .ro, .none, 0, .becomes 0, .any⟩
/-- FAB, NEIGHBOUR.PORT (R298). -/
def fabNeighbourPort : Field := ⟨0x0C8, 0, 4, .ro, .none, 0, .becomes 0, .any⟩
/-- FAB, LINK_DELAY.PS (R298). -/
def fabLinkDelayPs : Field := ⟨0x0CC, 0, 32, .ro, .none, 0, .becomes 0, .any⟩
/-- FAB, LINK_ASYM.PS (R298). -/
def fabLinkAsymPs : Field := ⟨0x0D0, 0, 32, .rw, .live, 0, .kept, .any⟩
/-- FAB, KEY_TX.V1 (R298). -/
def fabKeyTxV1 : Field := ⟨0x0D4, 15, 1, .rw, .live, 0, .becomes 0, .any⟩
/-- FAB, KEY_TX.SLOT1 (R298). -/
def fabKeyTxSlot1 : Field := ⟨0x0D4, 8, 7, .rw, .live, 0, .becomes 0, .any⟩
/-- FAB, KEY_TX.V0 (R298). -/
def fabKeyTxV0 : Field := ⟨0x0D4, 7, 1, .rw, .live, 0, .becomes 0, .any⟩
/-- FAB, KEY_TX.SLOT0 (R298). -/
def fabKeyTxSlot0 : Field := ⟨0x0D4, 0, 7, .rw, .live, 0, .becomes 0, .any⟩
/-- FAB, KEY_RX.V1 (R298). -/
def fabKeyRxV1 : Field := ⟨0x0D8, 15, 1, .rw, .live, 0, .kept, .any⟩
/-- FAB, KEY_RX.SLOT1 (R298). -/
def fabKeyRxSlot1 : Field := ⟨0x0D8, 8, 7, .rw, .live, 0, .kept, .any⟩
/-- FAB, KEY_RX.V0 (R298). -/
def fabKeyRxV0 : Field := ⟨0x0D8, 7, 1, .rw, .live, 0, .kept, .any⟩
/-- FAB, KEY_RX.SLOT0 (R298). -/
def fabKeyRxSlot0 : Field := ⟨0x0D8, 0, 7, .rw, .live, 0, .kept, .any⟩
/-- FAB, BEACON_STAT.DEPTH (R298). -/
def fabBeaconStatDepth : Field := ⟨0x0DC, 28, 4, .ro, .none, 0, .becomes 0, .any⟩
/-- FAB, BEACON_STAT.TB (R298). -/
def fabBeaconStatTb : Field := ⟨0x0DC, 26, 2, .ro, .none, 0, .becomes 0, .any⟩
/-- FAB, BEACON_STAT.STATE (R298). -/
def fabBeaconStatState : Field := ⟨0x0DC, 23, 3, .ro, .none, 0, .becomes 0, .any⟩
/-- FAB, BEACON_STAT.SRC_DEV (R298). -/
def fabBeaconStatSrcDev : Field := ⟨0x0DC, 0, 14, .ro, .none, 0, .becomes 0, .any⟩
/-- FAB, CNT0.ROUTE_DROP (R298). -/
def fabCnt0RouteDrop : Field := ⟨0x0E0, 16, 16, .rc, .none, 0, .becomes 0, .any⟩
/-- FAB, CNT0.UNMATCHED (R298). -/
def fabCnt0Unmatched : Field := ⟨0x0E0, 0, 16, .rc, .none, 0, .becomes 0, .any⟩
/-- FAB, CNT1.AUTH_FAIL (R298). -/
def fabCnt1AuthFail : Field := ⟨0x0E4, 16, 16, .rc, .none, 0, .becomes 0, .any⟩
/-- FAB, CNT1.MISROUTE (R298). -/
def fabCnt1Misroute : Field := ⟨0x0E4, 8, 8, .rc, .none, 0, .becomes 0, .any⟩
/-- FAB, CNT1.OVERFLOW (R298). -/
def fabCnt1Overflow : Field := ⟨0x0E4, 0, 8, .rc, .none, 0, .becomes 0, .any⟩
/-- FAB, SLOT_INDEX.DIR (R298). -/
def fabSlotIndexDir : Field := ⟨0x100, 8, 1, .rw, .live, 0, .becomes 0, .any⟩
/-- FAB, SLOT_INDEX.SLOT (R298). -/
def fabSlotIndexSlot : Field := ⟨0x100, 0, 8, .rw, .live, 0, .becomes 0, .any⟩
/-- FAB, SLOT_SRC.EN (R298). -/
def fabSlotSrcEn : Field := ⟨0x104, 31, 1, .rw, .live, 0, .kept, .any⟩
/-- FAB, SLOT_SRC.SRC_DEV (R298). -/
def fabSlotSrcSrcDev : Field := ⟨0x104, 16, 14, .rw, .live, 0, .kept, .any⟩
/-- FAB, SLOT_SRC.SRC_FLOW (R298). -/
def fabSlotSrcSrcFlow : Field := ⟨0x104, 0, 12, .rw, .live, 0, .kept, .any⟩
/-- FAB, SLOT_RT_LO.PORTS (R298). -/
def fabSlotRtLoPorts : Field := ⟨0x108, 0, 28, .rw, .live, 0, .kept, .any⟩
/-- FAB, SLOT_RT_HI.DST_DEV (R298). -/
def fabSlotRtHiDstDev : Field := ⟨0x10C, 16, 14, .rw, .live, 0, .kept, .any⟩
/-- FAB, SLOT_RT_HI.HOPS (R298). -/
def fabSlotRtHiHops : Field := ⟨0x10C, 0, 3, .rw, .live, 0, .kept, .any⟩

/-- The register fields of FAB. -/
def fabFields : List Field :=
  [fabFidValid, fabFidId, fabFevtW0Word, fabFevtW1Word, fabFevtW2Word, fabFevtW3Word,
   fabFevtRtLoPorts, fabFevtRtHiDstDev, fabFevtRtHiHops, fabFevtTagTag, fabFevtSubmitGo,
   fabFevtResultCode, fabFevtAckValid, fabFevtAckOvf, fabFevtAckCode, fabFevtAckTag,
   fabFevtAckHHandle, fabFevtPendingCount, fabCtrlBeaconOut, fabCtrlTxSet, fabCtrlEncReq, fabCtrlEnc,
   fabCtrlEn, fabPortStatusNbrValid, fabPortStatusLanesUp, fabPortStatusIdClash, fabPortStatusState,
   fabNeighbourDev, fabNeighbourPort, fabLinkDelayPs] ++
  [fabLinkAsymPs, fabKeyTxV1, fabKeyTxSlot1, fabKeyTxV0, fabKeyTxSlot0, fabKeyRxV1, fabKeyRxSlot1,
   fabKeyRxV0, fabKeyRxSlot0, fabBeaconStatDepth, fabBeaconStatTb, fabBeaconStatState,
   fabBeaconStatSrcDev, fabCnt0RouteDrop, fabCnt0Unmatched, fabCnt1AuthFail, fabCnt1Misroute,
   fabCnt1Overflow, fabSlotIndexDir, fabSlotIndexSlot, fabSlotSrcEn, fabSlotSrcSrcDev,
   fabSlotSrcSrcFlow, fabSlotRtLoPorts, fabSlotRtHiDstDev, fabSlotRtHiHops]

/-- CORE, CFG.AUTO_FENCE (R426). -/
def coreCfgAutoFence : Field := ⟨0x080, 8, 1, .rw, .live, 1, .kept, .any⟩
/-- CORE, CFG.CE_LIMIT (R426). -/
def coreCfgCeLimit : Field := ⟨0x080, 0, 8, .rw, .live, 16, .kept, .any⟩
/-- CORE, PIN_CFG0.ARM (R426). -/
def corePinCfg0Arm : Field := ⟨0x090, 31, 1, .rw, .live, 0, .becomes 0, .any⟩
/-- CORE, PIN_CFG1.ARM (R426). -/
def corePinCfg1Arm : Field := ⟨0x094, 31, 1, .rw, .live, 0, .becomes 0, .any⟩
/-- CORE, PIN_CFG2.ARM (R426). -/
def corePinCfg2Arm : Field := ⟨0x098, 31, 1, .rw, .live, 0, .becomes 0, .any⟩
/-- CORE, PIN_CFG3.ARM (R426). -/
def corePinCfg3Arm : Field := ⟨0x09C, 31, 1, .rw, .live, 0, .becomes 0, .any⟩
/-- CORE, PIN_CFG0.TB (R426). -/
def corePinCfg0Tb : Field := ⟨0x090, 24, 2, .rw, .live, 0, .kept, .any⟩
/-- CORE, PIN_CFG1.TB (R426). -/
def corePinCfg1Tb : Field := ⟨0x094, 24, 2, .rw, .live, 0, .kept, .any⟩
/-- CORE, PIN_CFG2.TB (R426). -/
def corePinCfg2Tb : Field := ⟨0x098, 24, 2, .rw, .live, 0, .kept, .any⟩
/-- CORE, PIN_CFG3.TB (R426). -/
def corePinCfg3Tb : Field := ⟨0x09C, 24, 2, .rw, .live, 0, .kept, .any⟩
/-- CORE, PIN_CFG0.SALVO (R426). -/
def corePinCfg0Salvo : Field := ⟨0x090, 0, 8, .rw, .live, 0, .kept, .any⟩
/-- CORE, PIN_CFG1.SALVO (R426). -/
def corePinCfg1Salvo : Field := ⟨0x094, 0, 8, .rw, .live, 0, .kept, .any⟩
/-- CORE, PIN_CFG2.SALVO (R426). -/
def corePinCfg2Salvo : Field := ⟨0x098, 0, 8, .rw, .live, 0, .kept, .any⟩
/-- CORE, PIN_CFG3.SALVO (R426). -/
def corePinCfg3Salvo : Field := ⟨0x09C, 0, 8, .rw, .live, 0, .kept, .any⟩
/-- CORE, PIN_STATUS.DUP (R426). -/
def corePinStatusDup : Field := ⟨0x0A0, 12, 4, .w1c, .none, 0, .becomes 0, .any⟩
/-- CORE, PIN_STATUS.GATED (R426). -/
def corePinStatusGated : Field := ⟨0x0A0, 8, 4, .w1c, .none, 0, .becomes 0, .any⟩
/-- CORE, PIN_STATUS.PENDING (R426). -/
def corePinStatusPending : Field := ⟨0x0A0, 0, 4, .ro, .none, 0, .becomes 0, .any⟩
/-- CORE, TAKE_CNT.COUNT (R426). -/
def coreTakeCntCount : Field := ⟨0x0A4, 0, 32, .rc, .none, 0, .becomes 0, .any⟩
/-- CORE, TAKE_SKIP.COUNT (R426). -/
def coreTakeSkipCount : Field := ⟨0x0A8, 0, 32, .rc, .none, 0, .becomes 0, .any⟩
/-- CORE, VAT_INDEX.BANK (R426). -/
def coreVatIndexBank : Field := ⟨0x0B0, 0, 7, .rw, .live, 0, .becomes 0, .le 65⟩
/-- CORE, VAT_CTRL.FENCE (R426). -/
def coreVatCtrlFence : Field := ⟨0x0B4, 31, 1, .wo, .none, 0, .becomes 0, .any⟩
/-- CORE, VAT_CTRL.TEST (R426). -/
def coreVatCtrlTest : Field := ⟨0x0B4, 30, 1, .wo, .none, 0, .becomes 0, .any⟩
/-- CORE, VAT_CTRL.UNFENCE (R426). -/
def coreVatCtrlUnfence : Field := ⟨0x0B4, 29, 1, .wo, .none, 0, .becomes 0, .any⟩
/-- CORE, VAT_STATUS.STATE (R426). -/
def coreVatStatusState : Field := ⟨0x0B8, 28, 4, .ro, .none, 0, .kept, .any⟩
/-- CORE, VAT_STATUS.SLOT (R426). -/
def coreVatStatusSlot : Field := ⟨0x0B8, 16, 7, .ro, .none, 0, .kept, .any⟩
/-- CORE, VAT_STATUS.UE (R426). -/
def coreVatStatusUe : Field := ⟨0x0B8, 8, 8, .ro, .none, 0, .kept, .any⟩
/-- CORE, VAT_STATUS.CE (R426). -/
def coreVatStatusCe : Field := ⟨0x0B8, 0, 8, .ro, .none, 0, .kept, .any⟩
/-- CORE, VAT_SUMMARY.IN_SERVICE (R426). -/
def coreVatSummaryInService : Field := ⟨0x0BC, 16, 7, .ro, .none, 64, .kept, .any⟩
/-- CORE, VAT_SUMMARY.SPARES (R426). -/
def coreVatSummarySpares : Field := ⟨0x0BC, 8, 8, .ro, .none, 2, .kept, .any⟩

/-- The register fields of CORE. -/
def coreFields : List Field :=
  [coreCfgAutoFence, coreCfgCeLimit, corePinCfg0Arm, corePinCfg1Arm, corePinCfg2Arm, corePinCfg3Arm,
   corePinCfg0Tb, corePinCfg1Tb, corePinCfg2Tb, corePinCfg3Tb, corePinCfg0Salvo, corePinCfg1Salvo,
   corePinCfg2Salvo, corePinCfg3Salvo, corePinStatusDup, corePinStatusGated, corePinStatusPending,
   coreTakeCntCount, coreTakeSkipCount, coreVatIndexBank, coreVatCtrlFence, coreVatCtrlTest,
   coreVatCtrlUnfence, coreVatStatusState, coreVatStatusSlot, coreVatStatusUe, coreVatStatusCe,
   coreVatSummaryInService, coreVatSummarySpares]

/-- FLOWWIN, CTX0.VALID (R87). -/
def flowwinCtx0Valid : Field := ⟨0x0A0, 31, 1, .ro, .none, 0, .kept, .any⟩
/-- FLOWWIN, CTX0.EN (R87). -/
def flowwinCtx0En : Field := ⟨0x0A0, 30, 1, .rw, .live, 0, .kept, .any⟩
/-- FLOWWIN, CTX0.DIR (R87). -/
def flowwinCtx0Dir : Field := ⟨0x0A0, 29, 1, .ro, .none, 0, .kept, .any⟩
/-- FLOWWIN, CTX0.TYPE (R87). -/
def flowwinCtx0Type : Field := ⟨0x0A0, 27, 2, .ro, .none, 0, .kept, .any⟩
/-- FLOWWIN, CTX0.PORT_KIND (R87). -/
def flowwinCtx0PortKind : Field := ⟨0x0A0, 20, 4, .rw, .idle, 0, .kept, .le 6⟩
/-- FLOWWIN, CTX0.PORT (R87). -/
def flowwinCtx0Port : Field := ⟨0x0A0, 12, 8, .rw, .idle, 0, .kept, .any⟩
/-- FLOWWIN, CTX0.STREAM (R87). -/
def flowwinCtx0Stream : Field := ⟨0x0A0, 4, 8, .rw, .idle, 0, .kept, .any⟩
/-- FLOWWIN, CTX0.TB (R87). -/
def flowwinCtx0Tb : Field := ⟨0x0A0, 0, 2, .rw, .idle, 0, .kept, .any⟩
/-- FLOWWIN, CTX1.STRUCT (R87). -/
def flowwinCtx1Struct : Field := ⟨0x0A4, 28, 4, .rw, .idle, 0, .kept, .any⟩
/-- FLOWWIN, CTX1.RATE (R87). -/
def flowwinCtx1Rate : Field := ⟨0x0A4, 24, 4, .rw, .idle, 5, .kept, .any⟩
/-- FLOWWIN, CTX1.SAMPLING (R87). -/
def flowwinCtx1Sampling : Field := ⟨0x0A4, 22, 2, .rw, .idle, 0, .kept, .le 2⟩
/-- FLOWWIN, CTX1.DEPTH (R87). -/
def flowwinCtx1Depth : Field := ⟨0x0A4, 20, 2, .rw, .idle, 0, .kept, .le 2⟩
/-- FLOWWIN, CTX1.CHANNELS (R87). -/
def flowwinCtx1Channels : Field := ⟨0x0A4, 8, 8, .rw, .idle, 0, .kept, .le 64⟩
/-- FLOWWIN, CTX1.SRATE (R87). -/
def flowwinCtx1Srate : Field := ⟨0x0A4, 4, 4, .rw, .idle, 2, .kept, .le 6⟩
/-- FLOWWIN, CTX2.FS_EN (R87). -/
def flowwinCtx2FsEn : Field := ⟨0x0A8, 31, 1, .rw, .idle, 0, .kept, .any⟩
/-- FLOWWIN, CTX2.FS_DEPTH (R87). -/
def flowwinCtx2FsDepth : Field := ⟨0x0A8, 24, 4, .rw, .idle, 3, .kept, .range 3 8⟩
/-- FLOWWIN, CTX3.SYNC_POLICY (R87). -/
def flowwinCtx3SyncPolicy : Field := ⟨0x0AC, 30, 2, .rw, .shadow, 1, .kept, .le 2⟩
/-- FLOWWIN, CTX3.LOSS_POLICY (R87). -/
def flowwinCtx3LossPolicy : Field := ⟨0x0AC, 28, 2, .rw, .shadow, 0, .kept, .le 2⟩
/-- FLOWWIN, CTX3.BYPASS_WIN (R87). -/
def flowwinCtx3BypassWin : Field := ⟨0x0AC, 0, 8, .rw, .shadow, 8, .kept, .range 1 255⟩
/-- FLOWWIN, CTX4.OFFSET (R87). -/
def flowwinCtx4Offset : Field := ⟨0x0B0, 0, 27, .rw, .shadow, 0, .kept, .any⟩
/-- FLOWWIN, CTX5.AF_EN (R87). -/
def flowwinCtx5AfEn : Field := ⟨0x0B4, 31, 1, .rw, .shadow, 0, .kept, .any⟩
/-- FLOWWIN, CTX5.AF_FLOW (R87). -/
def flowwinCtx5AfFlow : Field := ⟨0x0B4, 0, 12, .rw, .shadow, 0, .kept, .any⟩
/-- FLOWWIN, CTX6.SEAL_EN (R87). -/
def flowwinCtx6SealEn : Field := ⟨0x0B8, 31, 1, .rw, .idle, 1, .kept, .any⟩
/-- FLOWWIN, CTX6.SEAL_ERR (R87). -/
def flowwinCtx6SealErr : Field := ⟨0x0B8, 30, 1, .w1c, .none, 0, .becomes 0, .any⟩
/-- FLOWWIN, CTX6.FANOUT (R87). -/
def flowwinCtx6Fanout : Field := ⟨0x0B8, 0, 13, .ro, .none, 0, .kept, .any⟩
/-- FLOWWIN, CTX7.TIMED (R87). -/
def flowwinCtx7Timed : Field := ⟨0x0BC, 31, 1, .ro, .none, 0, .becomes 0, .any⟩
/-- FLOWWIN, CTX7.FS_ENGAGED (R87). -/
def flowwinCtx7FsEngaged : Field := ⟨0x0BC, 30, 1, .ro, .none, 0, .becomes 0, .any⟩
/-- FLOWWIN, CTX7.TIMING_ERR (R87). -/
def flowwinCtx7TimingErr : Field := ⟨0x0BC, 29, 1, .ro, .none, 0, .becomes 0, .any⟩
/-- FLOWWIN, CTX7.SRC_LOST (R87). -/
def flowwinCtx7SrcLost : Field := ⟨0x0BC, 28, 1, .ro, .none, 0, .becomes 0, .any⟩
/-- FLOWWIN, CTX7.FS_ACTIVE (R87). -/
def flowwinCtx7FsActive : Field := ⟨0x0BC, 27, 1, .ro, .none, 0, .becomes 0, .any⟩
/-- FLOWWIN, CTX7.FS_MISSING (R87). -/
def flowwinCtx7FsMissing : Field := ⟨0x0BC, 26, 1, .ro, .none, 0, .becomes 0, .any⟩
/-- FLOWWIN, CTX7.POLICY_MODE (R87). -/
def flowwinCtx7PolicyMode : Field := ⟨0x0BC, 25, 1, .ro, .none, 0, .becomes 0, .any⟩
/-- FLOWWIN, CTX7.PHASE (R87). -/
def flowwinCtx7Phase : Field := ⟨0x0BC, 0, 24, .ro, .none, 0, .becomes 0, .any⟩
/-- FLOWWIN, FLOW_INDEX.FLOW (R426). -/
def flowwinFlowIndexFlow : Field := ⟨0x080, 0, 12, .rw, .live, 0, .becomes 0, .any⟩
/-- FLOWWIN, FLOW_CMD.OP (R426). -/
def flowwinFlowCmdOp : Field := ⟨0x084, 28, 4, .wo, .none, 0, .becomes 0, .any⟩
/-- FLOWWIN, FLOW_CMD.TYPE (R426). -/
def flowwinFlowCmdType : Field := ⟨0x084, 24, 2, .wo, .none, 0, .becomes 0, .any⟩
/-- FLOWWIN, FLOW_CMD.DIR (R426). -/
def flowwinFlowCmdDir : Field := ⟨0x084, 20, 1, .wo, .none, 0, .becomes 0, .any⟩
/-- FLOWWIN, FLOW_RESULT.CODE (R426). -/
def flowwinFlowResultCode : Field := ⟨0x088, 28, 4, .ro, .none, 15, .becomes 15, .any⟩
/-- FLOWWIN, FLOW_RESULT.FLOW (R426). -/
def flowwinFlowResultFlow : Field := ⟨0x088, 0, 12, .ro, .none, 0, .becomes 0, .any⟩
/-- FLOWWIN, FLOW_COMMIT.CANCEL (R426). -/
def flowwinFlowCommitCancel : Field := ⟨0x08C, 5, 1, .wo, .none, 0, .becomes 0, .any⟩
/-- FLOWWIN, FLOW_COMMIT.COMMIT (R426). -/
def flowwinFlowCommitCommit : Field := ⟨0x08C, 0, 1, .w1s, .none, 0, .becomes 0, .any⟩
/-- FLOWWIN, FREE_COUNT.COUNT (R426). -/
def flowwinFreeCountCount : Field := ⟨0x090, 0, 13, .ro, .none, 4096, .kept, .any⟩
/-- FLOWWIN, XP_LO.ENTRY_LO (R426). -/
def flowwinXpLoEntryLo : Field := ⟨0x0C0, 0, 32, .ro, .none, 0, .kept, .any⟩
/-- FLOWWIN, XP_HI.ENTRY_HI (R426). -/
def flowwinXpHiEntryHi : Field := ⟨0x0C4, 0, 32, .ro, .none, 0, .kept, .any⟩

/-- The register fields of FLOWWIN. -/
def flowwinFields : List Field :=
  [flowwinCtx0Valid, flowwinCtx0En, flowwinCtx0Dir, flowwinCtx0Type, flowwinCtx0PortKind,
   flowwinCtx0Port, flowwinCtx0Stream, flowwinCtx0Tb, flowwinCtx1Struct, flowwinCtx1Rate,
   flowwinCtx1Sampling, flowwinCtx1Depth, flowwinCtx1Channels, flowwinCtx1Srate, flowwinCtx2FsEn,
   flowwinCtx2FsDepth, flowwinCtx3SyncPolicy, flowwinCtx3LossPolicy, flowwinCtx3BypassWin,
   flowwinCtx4Offset, flowwinCtx5AfEn, flowwinCtx5AfFlow, flowwinCtx6SealEn, flowwinCtx6SealErr,
   flowwinCtx6Fanout, flowwinCtx7Timed, flowwinCtx7FsEngaged, flowwinCtx7TimingErr,
   flowwinCtx7SrcLost, flowwinCtx7FsActive] ++
  [flowwinCtx7FsMissing, flowwinCtx7PolicyMode, flowwinCtx7Phase, flowwinFlowIndexFlow,
   flowwinFlowCmdOp, flowwinFlowCmdType, flowwinFlowCmdDir, flowwinFlowResultCode,
   flowwinFlowResultFlow, flowwinFlowCommitCancel, flowwinFlowCommitCommit, flowwinFreeCountCount,
   flowwinXpLoEntryLo, flowwinXpHiEntryHi]

/-- CNV, CTRL.OUT_TB (R175). -/
def cnvCtrlOutTb : Field := ⟨0x080, 4, 2, .rw, .idle, 0, .kept, .any⟩
/-- CNV, CTRL.TIMING (R175). -/
def cnvCtrlTiming : Field := ⟨0x080, 2, 1, .rw, .idle, 0, .kept, .any⟩
/-- CNV, CTRL.MODE (R175). -/
def cnvCtrlMode : Field := ⟨0x080, 1, 1, .rw, .idle, 0, .kept, .any⟩
/-- CNV, CTRL.EN (R175). -/
def cnvCtrlEn : Field := ⟨0x080, 0, 1, .rw, .live, 0, .kept, .any⟩
/-- CNV, OFFSET.SAMPLES (R175). -/
def cnvOffsetSamples : Field := ⟨0x084, 0, 27, .rw, .shadow, 0, .kept, .any⟩
/-- CNV, CELL_INDEX.CELL (R175). -/
def cnvCellIndexCell : Field := ⟨0x088, 0, 2, .rw, .live, 0, .becomes 0, .any⟩
/-- CNV, LUT_OP.OP (R175). -/
def cnvLutOpOp : Field := ⟨0x08C, 30, 2, .wo, .none, 0, .becomes 0, .any⟩
/-- CNV, LUT_OP.SEL (R175). -/
def cnvLutOpSel : Field := ⟨0x08C, 28, 2, .wo, .none, 0, .becomes 0, .any⟩
/-- CNV, LUT_SRC_LO.ADDR (R175). -/
def cnvLutSrcLoAddr : Field := ⟨0x090, 3, 29, .rw, .live, 0, .becomes 0, .any⟩
/-- CNV, LUT_SRC_HI.ADDR (R175). -/
def cnvLutSrcHiAddr : Field := ⟨0x094, 0, 8, .rw, .live, 0, .becomes 0, .any⟩
/-- CNV, LUT_STATUS.BUSY (R175). -/
def cnvLutStatusBusy : Field := ⟨0x098, 31, 1, .ro, .none, 0, .becomes 0, .any⟩
/-- CNV, LUT_STATUS.CODE (R175). -/
def cnvLutStatusCode : Field := ⟨0x098, 0, 4, .ro, .none, 15, .becomes 15, .any⟩
/-- CNV, CELL_CTRL.RESET (R175). -/
def cnvCellCtrlReset : Field := ⟨0x0C0, 31, 1, .wo, .none, 0, .becomes 0, .any⟩
/-- CNV, CELL_CTRL.AUD_EN (R175). -/
def cnvCellCtrlAudEn : Field := ⟨0x0C0, 1, 1, .rw, .shadow, 0, .kept, .any⟩
/-- CNV, CELL_CTRL.EN (R175). -/
def cnvCellCtrlEn : Field := ⟨0x0C0, 0, 1, .rw, .live, 1, .kept, .any⟩
/-- CNV, SRC.FLOW (R175). -/
def cnvSrcFlow : Field := ⟨0x0C4, 0, 12, .rw, .shadow, 0, .kept, .any⟩
/-- CNV, OUT_FMT.STRUCT (R175). -/
def cnvOutFmtStruct : Field := ⟨0x0C8, 28, 4, .rw, .shadow, 0, .kept, .le 6⟩
/-- CNV, OUT_FMT.SAMPLING (R175). -/
def cnvOutFmtSampling : Field := ⟨0x0C8, 22, 2, .rw, .shadow, 0, .kept, .le 2⟩
/-- CNV, OUT_FMT.DEPTH (R175). -/
def cnvOutFmtDepth : Field := ⟨0x0C8, 20, 2, .rw, .shadow, 0, .kept, .le 2⟩
/-- CNV, CROP_XY.X (R175). -/
def cnvCropXyX : Field := ⟨0x0CC, 16, 13, .rw, .shadow, 0, .kept, .any⟩
/-- CNV, DST_XY.X (R175). -/
def cnvDstXyX : Field := ⟨0x0D4, 16, 13, .rw, .shadow, 0, .kept, .any⟩
/-- CNV, CROP_XY.Y (R175). -/
def cnvCropXyY : Field := ⟨0x0CC, 0, 13, .rw, .shadow, 0, .kept, .any⟩
/-- CNV, DST_XY.Y (R175). -/
def cnvDstXyY : Field := ⟨0x0D4, 0, 13, .rw, .shadow, 0, .kept, .any⟩
/-- CNV, CROP_WH.W (R175). -/
def cnvCropWhW : Field := ⟨0x0D0, 16, 13, .rw, .shadow, 0, .kept, .any⟩
/-- CNV, DST_WH.W (R175). -/
def cnvDstWhW : Field := ⟨0x0D8, 16, 13, .rw, .shadow, 0, .kept, .any⟩
/-- CNV, CROP_WH.H (R175). -/
def cnvCropWhH : Field := ⟨0x0D0, 0, 13, .rw, .shadow, 0, .kept, .any⟩
/-- CNV, DST_WH.H (R175). -/
def cnvDstWhH : Field := ⟨0x0D8, 0, 13, .rw, .shadow, 0, .kept, .any⟩
/-- CNV, SCALE.FILTER (R175). -/
def cnvScaleFilter : Field := ⟨0x0DC, 0, 2, .rw, .shadow, 1, .kept, .le 2⟩
/-- CNV, DEINT.CADENCE_EN (R175). -/
def cnvDeintCadenceEn : Field := ⟨0x0E0, 2, 1, .rw, .shadow, 1, .kept, .any⟩
/-- CNV, DEINT.MODE (R175). -/
def cnvDeintMode : Field := ⟨0x0E0, 0, 2, .rw, .shadow, 0, .kept, .le 2⟩
/-- CNV, CLR.BYPASS (R175). -/
def cnvClrBypass : Field := ⟨0x0E4, 9, 1, .rw, .shadow, 1, .kept, .any⟩
/-- CNV, CLR.LUT_HOST (R175). -/
def cnvClrLutHost : Field := ⟨0x0E4, 8, 1, .rw, .shadow, 0, .kept, .any⟩
/-- CNV, CLR.OUT_TF (R175). -/
def cnvClrOutTf : Field := ⟨0x0E4, 6, 2, .rw, .shadow, 0, .kept, .le 2⟩
/-- CNV, CLR.OUT_CS (R175). -/
def cnvClrOutCs : Field := ⟨0x0E4, 4, 2, .rw, .shadow, 1, .kept, .le 2⟩
/-- CNV, CLR.IN_TF (R175). -/
def cnvClrInTf : Field := ⟨0x0E4, 2, 2, .rw, .shadow, 0, .kept, .le 2⟩
/-- CNV, CLR.IN_CS (R175). -/
def cnvClrInCs : Field := ⟨0x0E4, 0, 2, .rw, .shadow, 1, .kept, .le 2⟩
/-- CNV, FRC.SCENE_PCT (R175). -/
def cnvFrcScenePct : Field := ⟨0x0E8, 16, 7, .rw, .shadow, 60, .kept, .range 1 100⟩
/-- CNV, FRC.CONF_MIN (R175). -/
def cnvFrcConfMin : Field := ⟨0x0E8, 8, 8, .rw, .shadow, 64, .kept, .any⟩
/-- CNV, FRC.MODE (R175). -/
def cnvFrcMode : Field := ⟨0x0E8, 0, 2, .rw, .shadow, 0, .kept, .any⟩
/-- CNV, FILL.Y (R175). -/
def cnvFillY : Field := ⟨0x0EC, 20, 10, .rw, .shadow, 64, .kept, .any⟩
/-- CNV, FILL.CB (R175). -/
def cnvFillCb : Field := ⟨0x0EC, 10, 10, .rw, .shadow, 512, .kept, .any⟩
/-- CNV, FILL.CR (R175). -/
def cnvFillCr : Field := ⟨0x0EC, 0, 10, .rw, .shadow, 512, .kept, .any⟩
/-- CNV, CELL_STATUS.CADENCE (R175). -/
def cnvCellStatusCadence : Field := ⟨0x100, 5, 2, .ro, .none, 0, .becomes 0, .any⟩
/-- CNV, CELL_STATUS.CROP_ERR (R175). -/
def cnvCellStatusCropErr : Field := ⟨0x100, 4, 1, .ro, .none, 0, .becomes 0, .any⟩
/-- CNV, CELL_STATUS.RATE_MISMATCH (R175). -/
def cnvCellStatusRateMismatch : Field := ⟨0x100, 3, 1, .ro, .none, 0, .becomes 0, .any⟩
/-- CNV, CELL_STATUS.FS_MISSING (R175). -/
def cnvCellStatusFsMissing : Field := ⟨0x100, 2, 1, .ro, .none, 0, .becomes 0, .any⟩
/-- CNV, CELL_STATUS.WAITING (R175). -/
def cnvCellStatusWaiting : Field := ⟨0x100, 1, 1, .ro, .none, 0, .becomes 0, .any⟩
/-- CNV, CELL_STATUS.PRODUCING (R175). -/
def cnvCellStatusProducing : Field := ⟨0x100, 0, 1, .ro, .none, 0, .becomes 0, .any⟩
/-- CNV, SRC_TAG_LO.FRAME_LO (R175). -/
def cnvSrcTagLoFrameLo : Field := ⟨0x104, 0, 32, .ro, .none, 0, .becomes 0, .any⟩
/-- CNV, SRC_TAG_HI.PHASE (R175). -/
def cnvSrcTagHiPhase : Field := ⟨0x108, 24, 8, .ro, .none, 0, .becomes 0, .any⟩
/-- CNV, SRC_TAG_HI.FRAME_HI (R175). -/
def cnvSrcTagHiFrameHi : Field := ⟨0x108, 0, 16, .ro, .none, 0, .becomes 0, .any⟩
/-- CNV, DELAY_NS.NS (R175). -/
def cnvDelayNsNs : Field := ⟨0x10C, 0, 32, .ro, .none, 0, .kept, .any⟩
/-- CNV, SLIP_CNT.DROP (R175). -/
def cnvSlipCntDrop : Field := ⟨0x110, 16, 16, .rc, .none, 0, .becomes 0, .any⟩
/-- CNV, SLIP_CNT.REPEAT (R175). -/
def cnvSlipCntRepeat : Field := ⟨0x110, 0, 16, .rc, .none, 0, .becomes 0, .any⟩
/-- CNV, RC_STAT.SCENE_CUTS (R175). -/
def cnvRcStatSceneCuts : Field := ⟨0x114, 16, 16, .rc, .none, 0, .becomes 0, .any⟩
/-- CNV, RC_STAT.LOWCONF (R175). -/
def cnvRcStatLowconf : Field := ⟨0x114, 0, 10, .ro, .none, 0, .becomes 0, .any⟩

/-- The register fields of CNV. -/
def cnvFields : List Field :=
  [cnvCtrlOutTb, cnvCtrlTiming, cnvCtrlMode, cnvCtrlEn, cnvOffsetSamples, cnvCellIndexCell,
   cnvLutOpOp, cnvLutOpSel, cnvLutSrcLoAddr, cnvLutSrcHiAddr, cnvLutStatusBusy, cnvLutStatusCode,
   cnvCellCtrlReset, cnvCellCtrlAudEn, cnvCellCtrlEn, cnvSrcFlow, cnvOutFmtStruct, cnvOutFmtSampling,
   cnvOutFmtDepth, cnvCropXyX, cnvDstXyX, cnvCropXyY, cnvDstXyY, cnvCropWhW, cnvDstWhW, cnvCropWhH,
   cnvDstWhH, cnvScaleFilter, cnvDeintCadenceEn, cnvDeintMode] ++
  [cnvClrBypass, cnvClrLutHost, cnvClrOutTf, cnvClrOutCs, cnvClrInTf, cnvClrInCs, cnvFrcScenePct,
   cnvFrcConfMin, cnvFrcMode, cnvFillY, cnvFillCb, cnvFillCr, cnvCellStatusCadence,
   cnvCellStatusCropErr, cnvCellStatusRateMismatch, cnvCellStatusFsMissing, cnvCellStatusWaiting,
   cnvCellStatusProducing, cnvSrcTagLoFrameLo, cnvSrcTagHiPhase, cnvSrcTagHiFrameHi, cnvDelayNsNs,
   cnvSlipCntDrop, cnvSlipCntRepeat, cnvRcStatSceneCuts, cnvRcStatLowconf]

/-- CPO, CTRL.AUD_LAYER (R209). -/
def cpoCtrlAudLayer : Field := ⟨0x080, 6, 2, .rw, .shadow, 0, .kept, .any⟩
/-- CPO, CTRL.AUD_EN (R209). -/
def cpoCtrlAudEn : Field := ⟨0x080, 5, 1, .rw, .shadow, 0, .kept, .any⟩
/-- CPO, CTRL.LEASE_GUARD (R209). -/
def cpoCtrlLeaseGuard : Field := ⟨0x080, 2, 1, .rw, .live, 1, .kept, .any⟩
/-- CPO, CTRL.ORDER (R209). -/
def cpoCtrlOrder : Field := ⟨0x080, 1, 1, .rw, .shadow, 0, .kept, .any⟩
/-- CPO, CTRL.EN (R209). -/
def cpoCtrlEn : Field := ⟨0x080, 0, 1, .rw, .live, 0, .kept, .any⟩
/-- CPO, ORDER_MAP.POS (R209). -/
def cpoOrderMapPos : Field := ⟨0x084, 0, 21, .rw, .shadow, 1754760, .kept, .any⟩
/-- CPO, OUT_FMT.CS (R209). -/
def cpoOutFmtCs : Field := ⟨0x088, 4, 2, .rw, .shadow, 1, .kept, .le 2⟩
/-- CPO, OUT_FMT.DEPTH (R209). -/
def cpoOutFmtDepth : Field := ⟨0x088, 2, 2, .rw, .shadow, 0, .kept, .le 2⟩
/-- CPO, OUT_FMT.SAMPLING (R209). -/
def cpoOutFmtSampling : Field := ⟨0x088, 0, 2, .rw, .shadow, 0, .kept, .le 2⟩
/-- CPO, BG.Y (R209). -/
def cpoBgY : Field := ⟨0x08C, 20, 10, .rw, .shadow, 64, .kept, .any⟩
/-- CPO, BG.CB (R209). -/
def cpoBgCb : Field := ⟨0x08C, 10, 10, .rw, .shadow, 512, .kept, .any⟩
/-- CPO, BG.CR (R209). -/
def cpoBgCr : Field := ⟨0x08C, 0, 10, .rw, .shadow, 512, .kept, .any⟩
/-- CPO, FETCH.MBPS (R209). -/
def cpoFetchMbps : Field := ⟨0x090, 0, 17, .ro, .none, 0, .kept, .any⟩
/-- CPO, LEASE_ADDR_LO.ADDR (R209). -/
def cpoLeaseAddrLoAddr : Field := ⟨0x094, 0, 32, .ro, .none, 0, .becomes 0, .any⟩
/-- CPO, LEASE_ADDR_HI.MASTER (R209). -/
def cpoLeaseAddrHiMaster : Field := ⟨0x098, 8, 3, .ro, .none, 0, .becomes 0, .any⟩
/-- CPO, LEASE_ADDR_HI.ADDR (R209). -/
def cpoLeaseAddrHiAddr : Field := ⟨0x098, 0, 8, .ro, .none, 0, .becomes 0, .any⟩
/-- CPO, CELL_INDEX.CELL (R209). -/
def cpoCellIndexCell : Field := ⟨0x09C, 0, 3, .rw, .live, 0, .becomes 0, .any⟩
/-- CPO, L_CTRL.ALPHA (R209). -/
def cpoLCtrlAlpha : Field := ⟨0x200, 24, 8, .rw, .shadow, 255, .kept, .any⟩
/-- CPO, L_CTRL.PIXFMT (R209). -/
def cpoLCtrlPixfmt : Field := ⟨0x200, 16, 3, .rw, .shadow, 0, .kept, .le 2⟩
/-- CPO, L_CTRL.LAYOUT (R209). -/
def cpoLCtrlLayout : Field := ⟨0x200, 15, 1, .rw, .shadow, 0, .kept, .any⟩
/-- CPO, L_CTRL.PREMULT (R209). -/
def cpoLCtrlPremult : Field := ⟨0x200, 14, 1, .rw, .shadow, 0, .kept, .any⟩
/-- CPO, L_CTRL.FILTER (R209). -/
def cpoLCtrlFilter : Field := ⟨0x200, 12, 2, .rw, .shadow, 1, .kept, .le 2⟩
/-- CPO, L_CTRL.FENCE_EN (R209). -/
def cpoLCtrlFenceEn : Field := ⟨0x200, 6, 1, .rw, .shadow, 0, .kept, .any⟩
/-- CPO, L_CTRL.PREDECIMATE_AUTO (R209). -/
def cpoLCtrlPredecimateAuto : Field := ⟨0x200, 5, 1, .rw, .shadow, 0, .kept, .any⟩
/-- CPO, L_CTRL.REQUIRED (R209). -/
def cpoLCtrlRequired : Field := ⟨0x200, 4, 1, .rw, .shadow, 0, .kept, .any⟩
/-- CPO, L_CTRL.NOTREADY (R209). -/
def cpoLCtrlNotready : Field := ⟨0x200, 2, 2, .rw, .shadow, 0, .kept, .le 2⟩
/-- CPO, L_CTRL.EN (R209). -/
def cpoLCtrlEn : Field := ⟨0x200, 0, 1, .rw, .shadow, 0, .kept, .any⟩
/-- CPO, L_SRC.FLOW (R209). -/
def cpoLSrcFlow : Field := ⟨0x204, 0, 12, .rw, .shadow, 0, .kept, .any⟩
/-- CPO, L_BASE_LO.ADDR (R209). -/
def cpoLBaseLoAddr : Field := ⟨0x208, 6, 26, .rw, .shadow, 0, .kept, .any⟩
/-- CPO, L_BASE_HI.ADDR (R209). -/
def cpoLBaseHiAddr : Field := ⟨0x20C, 0, 8, .rw, .shadow, 0, .kept, .any⟩
/-- CPO, L_STRIDE.BYTES (R209). -/
def cpoLStrideBytes : Field := ⟨0x210, 6, 18, .rw, .shadow, 0, .kept, .any⟩
/-- CPO, L_SIZE.W (R209). -/
def cpoLSizeW : Field := ⟨0x214, 16, 15, .rw, .shadow, 0, .kept, .any⟩
/-- CPO, L_SIZE.H (R209). -/
def cpoLSizeH : Field := ⟨0x214, 0, 15, .rw, .shadow, 0, .kept, .any⟩
/-- CPO, L_CROP_XY.X (R209). -/
def cpoLCropXyX : Field := ⟨0x218, 16, 14, .rw, .shadow, 0, .kept, .any⟩
/-- CPO, L_DST_XY.X (R209). -/
def cpoLDstXyX : Field := ⟨0x220, 16, 14, .rw, .shadow, 0, .kept, .any⟩
/-- CPO, L_CROP_XY.Y (R209). -/
def cpoLCropXyY : Field := ⟨0x218, 0, 14, .rw, .shadow, 0, .kept, .any⟩
/-- CPO, L_DST_XY.Y (R209). -/
def cpoLDstXyY : Field := ⟨0x220, 0, 14, .rw, .shadow, 0, .kept, .any⟩
/-- CPO, L_CROP_WH.W (R209). -/
def cpoLCropWhW : Field := ⟨0x21C, 16, 15, .rw, .shadow, 0, .kept, .any⟩
/-- CPO, L_DST_WH.W (R209). -/
def cpoLDstWhW : Field := ⟨0x224, 16, 15, .rw, .shadow, 0, .kept, .any⟩
/-- CPO, L_CROP_WH.H (R209). -/
def cpoLCropWhH : Field := ⟨0x21C, 0, 15, .rw, .shadow, 0, .kept, .any⟩
/-- CPO, L_DST_WH.H (R209). -/
def cpoLDstWhH : Field := ⟨0x224, 0, 15, .rw, .shadow, 0, .kept, .any⟩
/-- CPO, L_FILL.Y (R209). -/
def cpoLFillY : Field := ⟨0x228, 20, 10, .rw, .shadow, 64, .kept, .any⟩
/-- CPO, L_FILL.CB (R209). -/
def cpoLFillCb : Field := ⟨0x228, 10, 10, .rw, .shadow, 512, .kept, .any⟩
/-- CPO, L_FILL.CR (R209). -/
def cpoLFillCr : Field := ⟨0x228, 0, 10, .rw, .shadow, 512, .kept, .any⟩
/-- CPO, L_WAIT.FENCE (R209). -/
def cpoLWaitFence : Field := ⟨0x22C, 0, 32, .rw, .shadow, 0, .kept, .any⟩
/-- CPO, L_FENCE.VALUE (R209). -/
def cpoLFenceValue : Field := ⟨0x230, 0, 32, .rw, .live, 0, .becomes 0, .any⟩
/-- CPO, L_COMMIT.CANCEL (R209). -/
def cpoLCommitCancel : Field := ⟨0x234, 5, 1, .wo, .none, 0, .becomes 0, .any⟩
/-- CPO, L_COMMIT.AT_FRAME (R209). -/
def cpoLCommitAtFrame : Field := ⟨0x234, 1, 1, .rw, .live, 0, .becomes 0, .any⟩
/-- CPO, L_COMMIT.COMMIT (R209). -/
def cpoLCommitCommit : Field := ⟨0x234, 0, 1, .w1s, .none, 0, .becomes 0, .any⟩
/-- CPO, L_COMMIT_FRAME_LO.FRAME_LO (R209). -/
def cpoLCommitFrameLoFrameLo : Field := ⟨0x238, 0, 32, .rw, .live, 0, .becomes 0, .any⟩
/-- CPO, L_COMMIT_FRAME_HI.FRAME_HI (R209). -/
def cpoLCommitFrameHiFrameHi : Field := ⟨0x23C, 0, 16, .rw, .live, 0, .becomes 0, .any⟩
/-- CPO, L_STATUS.FLIP_SEQ (R209). -/
def cpoLStatusFlipSeq : Field := ⟨0x240, 16, 16, .ro, .none, 0, .becomes 0, .any⟩
/-- CPO, L_STATUS.FAULTED (R209). -/
def cpoLStatusFaulted : Field := ⟨0x240, 11, 1, .ro, .none, 0, .becomes 0, .any⟩
/-- CPO, L_STATUS.FETCH_OVER (R209). -/
def cpoLStatusFetchOver : Field := ⟨0x240, 10, 1, .ro, .none, 0, .becomes 0, .any⟩
/-- CPO, L_STATUS.SCALE_OVER (R209). -/
def cpoLStatusScaleOver : Field := ⟨0x240, 9, 1, .ro, .none, 0, .becomes 0, .any⟩
/-- CPO, L_STATUS.LB_SHORT (R209). -/
def cpoLStatusLbShort : Field := ⟨0x240, 8, 1, .ro, .none, 0, .becomes 0, .any⟩
/-- CPO, L_STATUS.LB_DECIMATED (R209). -/
def cpoLStatusLbDecimated : Field := ⟨0x240, 7, 1, .ro, .none, 0, .becomes 0, .any⟩
/-- CPO, L_STATUS.DECIMATE (R209). -/
def cpoLStatusDecimate : Field := ⟨0x240, 5, 2, .ro, .none, 0, .becomes 0, .any⟩
/-- CPO, L_STATUS.FS_MISSING (R209). -/
def cpoLStatusFsMissing : Field := ⟨0x240, 4, 1, .ro, .none, 0, .becomes 0, .any⟩
/-- CPO, L_STATUS.NOT_READY (R209). -/
def cpoLStatusNotReady : Field := ⟨0x240, 3, 1, .ro, .none, 0, .becomes 0, .any⟩
/-- CPO, L_STATUS.SHOWING (R209). -/
def cpoLStatusShowing : Field := ⟨0x240, 2, 1, .ro, .none, 0, .becomes 0, .any⟩
/-- CPO, L_STATUS.LEASED (R209). -/
def cpoLStatusLeased : Field := ⟨0x240, 1, 1, .ro, .none, 0, .becomes 0, .any⟩
/-- CPO, L_FLIP_FRAME_LO.FRAME (R209). -/
def cpoLFlipFrameLoFrame : Field := ⟨0x244, 0, 32, .ro, .none, 0, .becomes 0, .any⟩
/-- CPO, L_FLIP_FRAME_HI.FRAME (R209). -/
def cpoLFlipFrameHiFrame : Field := ⟨0x248, 0, 16, .ro, .none, 0, .becomes 0, .any⟩
/-- CPO, L_FLIP_S_LO.SEC (R209). -/
def cpoLFlipSLoSec : Field := ⟨0x24C, 0, 32, .ro, .none, 0, .becomes 0, .any⟩
/-- CPO, L_FLIP_S_HI.TS_VALID (R209). -/
def cpoLFlipSHiTsValid : Field := ⟨0x250, 31, 1, .ro, .none, 0, .becomes 0, .any⟩
/-- CPO, L_FLIP_S_HI.SEC (R209). -/
def cpoLFlipSHiSec : Field := ⟨0x250, 0, 16, .ro, .none, 0, .becomes 0, .any⟩
/-- CPO, L_FLIP_NS.NS (R209). -/
def cpoLFlipNsNs : Field := ⟨0x254, 0, 30, .ro, .none, 0, .becomes 0, .any⟩
/-- CPO, L_REL_FRAME_LO.FRAME (R209). -/
def cpoLRelFrameLoFrame : Field := ⟨0x258, 0, 32, .ro, .none, 0, .becomes 0, .any⟩
/-- CPO, L_REL_FRAME_HI.FRAME (R209). -/
def cpoLRelFrameHiFrame : Field := ⟨0x25C, 0, 16, .ro, .none, 0, .becomes 0, .any⟩
/-- CPO, L_CNT.CURD_ERR (R209). -/
def cpoLCntCurdErr : Field := ⟨0x260, 16, 16, .rc, .none, 0, .becomes 0, .any⟩
/-- CPO, L_CNT.UNDERRUN (R209). -/
def cpoLCntUnderrun : Field := ⟨0x260, 0, 16, .rc, .none, 0, .becomes 0, .any⟩
/-- CPO, L_SLIP.DROP (R209). -/
def cpoLSlipDrop : Field := ⟨0x264, 16, 16, .rc, .none, 0, .becomes 0, .any⟩
/-- CPO, L_SLIP.REPEAT (R209). -/
def cpoLSlipRepeat : Field := ⟨0x264, 0, 16, .rc, .none, 0, .becomes 0, .any⟩

/-- The register fields of CPO. -/
def cpoFields : List Field :=
  [cpoCtrlAudLayer, cpoCtrlAudEn, cpoCtrlLeaseGuard, cpoCtrlOrder, cpoCtrlEn, cpoOrderMapPos,
   cpoOutFmtCs, cpoOutFmtDepth, cpoOutFmtSampling, cpoBgY, cpoBgCb, cpoBgCr, cpoFetchMbps,
   cpoLeaseAddrLoAddr, cpoLeaseAddrHiMaster, cpoLeaseAddrHiAddr, cpoCellIndexCell, cpoLCtrlAlpha,
   cpoLCtrlPixfmt, cpoLCtrlLayout, cpoLCtrlPremult, cpoLCtrlFilter, cpoLCtrlFenceEn,
   cpoLCtrlPredecimateAuto, cpoLCtrlRequired, cpoLCtrlNotready, cpoLCtrlEn, cpoLSrcFlow,
   cpoLBaseLoAddr, cpoLBaseHiAddr] ++
  [cpoLStrideBytes, cpoLSizeW, cpoLSizeH, cpoLCropXyX, cpoLDstXyX, cpoLCropXyY, cpoLDstXyY,
   cpoLCropWhW, cpoLDstWhW, cpoLCropWhH, cpoLDstWhH, cpoLFillY, cpoLFillCb, cpoLFillCr, cpoLWaitFence,
   cpoLFenceValue, cpoLCommitCancel, cpoLCommitAtFrame, cpoLCommitCommit, cpoLCommitFrameLoFrameLo,
   cpoLCommitFrameHiFrameHi, cpoLStatusFlipSeq, cpoLStatusFaulted, cpoLStatusFetchOver,
   cpoLStatusScaleOver, cpoLStatusLbShort, cpoLStatusLbDecimated, cpoLStatusDecimate,
   cpoLStatusFsMissing, cpoLStatusNotReady] ++
  [cpoLStatusShowing, cpoLStatusLeased, cpoLFlipFrameLoFrame, cpoLFlipFrameHiFrame, cpoLFlipSLoSec,
   cpoLFlipSHiTsValid, cpoLFlipSHiSec, cpoLFlipNsNs, cpoLRelFrameLoFrame, cpoLRelFrameHiFrame,
   cpoLCntCurdErr, cpoLCntUnderrun, cpoLSlipDrop, cpoLSlipRepeat]

/-- ASH, FLOW_Q.FLOW (R259). -/
def ashFlowQFlow : Field := ⟨0x080, 0, 12, .rw, .live, 0, .becomes 0, .any⟩
/-- ASH, FLOW_INFO.VALID (R259). -/
def ashFlowInfoValid : Field := ⟨0x084, 31, 1, .ro, .none, 0, .kept, .any⟩
/-- ASH, FLOW_INFO.DIR (R259). -/
def ashFlowInfoDir : Field := ⟨0x084, 30, 1, .ro, .none, 0, .kept, .any⟩
/-- ASH, FLOW_INFO.BASE (R259). -/
def ashFlowInfoBase : Field := ⟨0x084, 16, 13, .ro, .none, 0, .kept, .any⟩
/-- ASH, FLOW_INFO.CHANNELS (R259). -/
def ashFlowInfoChannels : Field := ⟨0x084, 0, 7, .ro, .none, 0, .kept, .any⟩
/-- ASH, FLOW_ATTR.ASRC_MODE (R259). -/
def ashFlowAttrAsrcMode : Field := ⟨0x088, 30, 2, .rw, .live, 2, .kept, .le 2⟩
/-- ASH, FLOW_ATTR.DELAY (R259). -/
def ashFlowAttrDelay : Field := ⟨0x088, 0, 14, .rw, .live, 0, .kept, .any⟩
/-- ASH, AF_CFG.CONCEAL_RAMP (R259). -/
def ashAfCfgConcealRamp : Field := ⟨0x08C, 8, 6, .rw, .live, 4, .kept, .range 1 40⟩
/-- ASH, AF_CFG.FOLLOW_RAMP (R259). -/
def ashAfCfgFollowRamp : Field := ⟨0x08C, 0, 6, .rw, .live, 4, .kept, .range 1 40⟩
/-- ASH, ROUTE_INDEX.OUT (R259). -/
def ashRouteIndexOut : Field := ⟨0x090, 0, 13, .rw, .live, 0, .becomes 0, .le 6143⟩
/-- ASH, ROUTE.EN (R259). -/
def ashRouteEn : Field := ⟨0x094, 31, 1, .rw, .live, 0, .kept, .any⟩
/-- ASH, ROUTE.ASRC (R259). -/
def ashRouteAsrc : Field := ⟨0x094, 30, 1, .rw, .live, 0, .kept, .any⟩
/-- ASH, ROUTE.RAMP (R259). -/
def ashRouteRamp : Field := ⟨0x094, 24, 6, .rw, .live, 4, .kept, .range 1 40⟩
/-- ASH, ROUTE.GAIN (R259). -/
def ashRouteGain : Field := ⟨0x094, 16, 8, .rw, .live, 0, .kept, .any⟩
/-- ASH, ROUTE.SOURCE (R259). -/
def ashRouteSource : Field := ⟨0x094, 0, 13, .rw, .live, 0, .kept, .le 6143⟩
/-- ASH, ROUTE_STATUS.RAMPING (R259). -/
def ashRouteStatusRamping : Field := ⟨0x098, 31, 1, .ro, .none, 0, .becomes 0, .any⟩
/-- ASH, ROUTE_STATUS.RATE_ERR (R259). -/
def ashRouteStatusRateErr : Field := ⟨0x098, 30, 1, .ro, .none, 0, .becomes 0, .any⟩
/-- ASH, ROUTE_STATUS.NO_ASRC (R259). -/
def ashRouteStatusNoAsrc : Field := ⟨0x098, 29, 1, .ro, .none, 0, .becomes 0, .any⟩
/-- ASH, ROUTE_STATUS.HELD (R259). -/
def ashRouteStatusHeld : Field := ⟨0x098, 28, 1, .ro, .none, 0, .becomes 0, .any⟩
/-- ASH, ROUTE_STATUS.ASRC_CH (R259). -/
def ashRouteStatusAsrcCh : Field := ⟨0x098, 0, 10, .ro, .none, 1023, .becomes 1023, .any⟩
/-- ASH, RS_INDEX.SET (R259). -/
def ashRsIndexSet : Field := ⟨0x0A0, 0, 8, .rw, .live, 0, .becomes 0, .any⟩
/-- ASH, RS_COUNT.COUNT (R259). -/
def ashRsCountCount : Field := ⟨0x0A4, 0, 13, .rw, .live, 0, .becomes 0, .any⟩
/-- ASH, RS_SRC_LO.ADDR (R259). -/
def ashRsSrcLoAddr : Field := ⟨0x0A8, 3, 29, .rw, .live, 0, .becomes 0, .any⟩
/-- ASH, RS_SRC_HI.ADDR (R259). -/
def ashRsSrcHiAddr : Field := ⟨0x0AC, 0, 8, .rw, .live, 0, .becomes 0, .any⟩
/-- ASH, RS_OP.OP (R259). -/
def ashRsOpOp : Field := ⟨0x0B0, 0, 2, .wo, .none, 0, .becomes 0, .any⟩
/-- ASH, RS_RESULT.BUSY (R259). -/
def ashRsResultBusy : Field := ⟨0x0B4, 31, 1, .ro, .none, 0, .becomes 0, .any⟩
/-- ASH, RS_RESULT.CODE (R259). -/
def ashRsResultCode : Field := ⟨0x0B4, 0, 4, .ro, .none, 15, .becomes 15, .any⟩
/-- ASH, RS_FREE.ENTRIES (R259). -/
def ashRsFreeEntries : Field := ⟨0x0B8, 0, 15, .ro, .none, 16384, .becomes 16384, .any⟩
/-- ASH, CNT.ROUTE_SKIP (R259). -/
def ashCntRouteSkip : Field := ⟨0x0C0, 16, 16, .rc, .none, 0, .becomes 0, .any⟩
/-- ASH, CNT.SLIP (R259). -/
def ashCntSlip : Field := ⟨0x0C0, 0, 16, .rc, .none, 0, .becomes 0, .any⟩
/-- ASH, BANK_INDEX.BANK (R259). -/
def ashBankIndexBank : Field := ⟨0x0D0, 0, 5, .rw, .live, 0, .becomes 0, .le 23⟩
/-- ASH, BANK_STATUS.FAULTED (R259). -/
def ashBankStatusFaulted : Field := ⟨0x0D4, 31, 1, .ro, .none, 0, .becomes 0, .any⟩

/-- The register fields of ASH. -/
def ashFields : List Field :=
  [ashFlowQFlow, ashFlowInfoValid, ashFlowInfoDir, ashFlowInfoBase, ashFlowInfoChannels,
   ashFlowAttrAsrcMode, ashFlowAttrDelay, ashAfCfgConcealRamp, ashAfCfgFollowRamp, ashRouteIndexOut,
   ashRouteEn, ashRouteAsrc, ashRouteRamp, ashRouteGain, ashRouteSource, ashRouteStatusRamping,
   ashRouteStatusRateErr, ashRouteStatusNoAsrc, ashRouteStatusHeld, ashRouteStatusAsrcCh,
   ashRsIndexSet, ashRsCountCount, ashRsSrcLoAddr, ashRsSrcHiAddr, ashRsOpOp, ashRsResultBusy,
   ashRsResultCode, ashRsFreeEntries, ashCntRouteSkip, ashCntSlip] ++
  [ashBankIndexBank, ashBankStatusFaulted]

/-- ASRC, CH_INDEX.CH (R259). -/
def asrcChIndexCh : Field := ⟨0x080, 0, 7, .rw, .live, 0, .becomes 0, .any⟩
/-- ASRC, CH_STATUS.BOUND (R259). -/
def asrcChStatusBound : Field := ⟨0x084, 31, 1, .ro, .none, 0, .becomes 0, .any⟩
/-- ASRC, CH_STATUS.LOCKED (R259). -/
def asrcChStatusLocked : Field := ⟨0x084, 30, 1, .ro, .none, 0, .becomes 0, .any⟩
/-- ASRC, CH_STATUS.OUT (R259). -/
def asrcChStatusOut : Field := ⟨0x084, 0, 13, .ro, .none, 0, .becomes 0, .any⟩
/-- ASRC, CH_RATIO.RATIO (R259). -/
def asrcChRatioRatio : Field := ⟨0x088, 0, 32, .ro, .none, 0, .becomes 0, .any⟩

/-- The register fields of ASRC. -/
def asrcFields : List Field :=
  [asrcChIndexCh, asrcChStatusBound, asrcChStatusLocked, asrcChStatusOut, asrcChRatioRatio]

/-- AUP, CTRL.TB (R259). -/
def aupCtrlTb : Field := ⟨0x080, 24, 2, .rw, .idle, 0, .kept, .any⟩
/-- AUP, CTRL.HARD (R259). -/
def aupCtrlHard : Field := ⟨0x080, 22, 1, .rw, .live, 0, .kept, .any⟩
/-- AUP, CTRL.PACK (R259). -/
def aupCtrlPack : Field := ⟨0x080, 20, 2, .rw, .idle, 0, .kept, .le 2⟩
/-- AUP, CTRL.TRIG (R259). -/
def aupCtrlTrig : Field := ⟨0x080, 16, 2, .rw, .idle, 0, .kept, .le 2⟩
/-- AUP, CTRL.HOOP_EN (R259). -/
def aupCtrlHoopEn : Field := ⟨0x080, 15, 1, .rw, .idle, 0, .kept, .any⟩
/-- AUP, CTRL.SRC (R259). -/
def aupCtrlSrc : Field := ⟨0x080, 14, 1, .rw, .idle, 0, .kept, .any⟩
/-- AUP, CTRL.NCO_MODE (R259). -/
def aupCtrlNcoMode : Field := ⟨0x080, 13, 1, .rw, .idle, 0, .kept, .any⟩
/-- AUP, CTRL.RATE (R259). -/
def aupCtrlRate : Field := ⟨0x080, 8, 3, .rw, .idle, 2, .kept, .le 6⟩
/-- AUP, CTRL.FMT (R259). -/
def aupCtrlFmt : Field := ⟨0x080, 4, 1, .rw, .idle, 0, .kept, .any⟩
/-- AUP, CTRL.MASTER (R259). -/
def aupCtrlMaster : Field := ⟨0x080, 2, 1, .rw, .idle, 1, .kept, .any⟩
/-- AUP, CTRL.DIR (R259). -/
def aupCtrlDir : Field := ⟨0x080, 1, 1, .rw, .idle, 0, .kept, .any⟩
/-- AUP, CTRL.EN (R259). -/
def aupCtrlEn : Field := ⟨0x080, 0, 1, .rw, .live, 0, .kept, .any⟩
/-- AUP, ZC.TIMEOUT (R259). -/
def aupZcTimeout : Field := ⟨0x084, 0, 6, .rw, .live, 8, .kept, .range 1 40⟩
/-- AUP, RATE_TOL.PPM (R259). -/
def aupRateTolPpm : Field := ⟨0x088, 0, 16, .rw, .live, 500, .kept, .range 1 10000⟩
/-- AUP, HOOP_BASE_LO.ADDR (R259). -/
def aupHoopBaseLoAddr : Field := ⟨0x08C, 6, 26, .rw, .idle, 0, .kept, .any⟩
/-- AUP, HOOP_BASE_HI.ADDR (R259). -/
def aupHoopBaseHiAddr : Field := ⟨0x090, 0, 8, .rw, .idle, 0, .kept, .any⟩
/-- AUP, HOOP_SIZE.FRAMES (R259). -/
def aupHoopSizeFrames : Field := ⟨0x094, 0, 24, .rw, .idle, 4096, .kept, .range 16 16777215⟩
/-- AUP, HOOP_WR.FRAME (R259). -/
def aupHoopWrFrame : Field := ⟨0x098, 0, 24, .rw, .live, 0, .becomes 0, .any⟩
/-- AUP, HOOP_RD.FRAME (R259). -/
def aupHoopRdFrame : Field := ⟨0x09C, 0, 24, .rw, .live, 0, .becomes 0, .any⟩
/-- AUP, LOOP.KP (R259). -/
def aupLoopKp : Field := ⟨0x0A0, 24, 8, .rw, .live, 50, .kept, .any⟩
/-- AUP, LOOP.KI (R259). -/
def aupLoopKi : Field := ⟨0x0A0, 16, 8, .rw, .live, 1, .kept, .any⟩
/-- AUP, LOOP.TARGET (R259). -/
def aupLoopTarget : Field := ⟨0x0A0, 0, 16, .rw, .live, 0, .kept, .any⟩
/-- AUP, LOOP_SLEW.LOCK_WIN (R259). -/
def aupLoopSlewLockWin : Field := ⟨0x0A4, 24, 8, .rw, .live, 8, .kept, .any⟩
/-- AUP, LOOP_SLEW.STEP (R259). -/
def aupLoopSlewStep : Field := ⟨0x0A4, 0, 24, .rw, .live, 10, .kept, .any⟩
/-- AUP, NCO_OFS.OFS (R259). -/
def aupNcoOfsOfs : Field := ⟨0x0A8, 0, 32, .ro, .none, 0, .becomes 0, .any⟩
/-- AUP, RATE_MEAS.CLASS (R259). -/
def aupRateMeasClass : Field := ⟨0x0AC, 28, 4, .ro, .none, 0, .becomes 0, .any⟩
/-- AUP, RATE_MEAS.RATE (R259). -/
def aupRateMeasRate : Field := ⟨0x0AC, 0, 25, .ro, .none, 0, .becomes 0, .any⟩
/-- AUP, START_FRAME_LO.FRAME (R259). -/
def aupStartFrameLoFrame : Field := ⟨0x0B0, 0, 32, .ro, .none, 0, .becomes 0, .any⟩
/-- AUP, START_FRAME_HI.FRAME (R259). -/
def aupStartFrameHiFrame : Field := ⟨0x0B4, 0, 16, .ro, .none, 0, .becomes 0, .any⟩
/-- AUP, START_POS.LINE (R259). -/
def aupStartPosLine : Field := ⟨0x0B8, 16, 13, .ro, .none, 0, .becomes 0, .any⟩
/-- AUP, START_POS.SAMPLE (R259). -/
def aupStartPosSample : Field := ⟨0x0B8, 0, 16, .ro, .none, 0, .becomes 0, .any⟩
/-- AUP, CNT.UNDERRUN (R259). -/
def aupCntUnderrun : Field := ⟨0x0BC, 16, 16, .rc, .none, 0, .becomes 0, .any⟩
/-- AUP, CNT.OVERRUN (R259). -/
def aupCntOverrun : Field := ⟨0x0BC, 0, 16, .rc, .none, 0, .becomes 0, .any⟩
/-- AUP, GLITCH.COUNT (R259). -/
def aupGlitchCount : Field := ⟨0x0C0, 0, 32, .rc, .none, 0, .becomes 0, .any⟩

/-- The register fields of AUP. -/
def aupFields : List Field :=
  [aupCtrlTb, aupCtrlHard, aupCtrlPack, aupCtrlTrig, aupCtrlHoopEn, aupCtrlSrc, aupCtrlNcoMode,
   aupCtrlRate, aupCtrlFmt, aupCtrlMaster, aupCtrlDir, aupCtrlEn, aupZcTimeout, aupRateTolPpm,
   aupHoopBaseLoAddr, aupHoopBaseHiAddr, aupHoopSizeFrames, aupHoopWrFrame, aupHoopRdFrame, aupLoopKp,
   aupLoopKi, aupLoopTarget, aupLoopSlewLockWin, aupLoopSlewStep, aupNcoOfsOfs, aupRateMeasClass,
   aupRateMeasRate, aupStartFrameLoFrame, aupStartFrameHiFrame, aupStartPosLine] ++
  [aupStartPosSample, aupCntUnderrun, aupCntOverrun, aupGlitchCount]

/-- RST, RST_CTRL.FREE_SYN (R230). -/
def rstCtrlFreeSyn : Field := ⟨0x100, 12, 4, .rw, .shadow, 0, .kept, .any⟩
/-- RST, RST_CTRL.FREE_OUT (R230). -/
def rstCtrlFreeOut : Field := ⟨0x100, 8, 3, .rw, .shadow, 0, .kept, .any⟩
/-- RST, RST_CTRL.JUMP_EN (R230). -/
def rstCtrlJumpEn : Field := ⟨0x100, 7, 1, .rw, .live, 0, .kept, .any⟩
/-- RST, RST_CTRL.TB (R230). -/
def rstCtrlTb : Field := ⟨0x100, 4, 2, .rw, .shadow, 0, .kept, .any⟩
/-- RST, RST_CTRL.MODE (R230). -/
def rstCtrlMode : Field := ⟨0x100, 0, 3, .rw, .shadow, 0, .kept, .le 3⟩
/-- RST, RST_FORMAT.STRUCT (R230). -/
def rstFormatStruct : Field := ⟨0x104, 28, 4, .rw, .shadow, 0, .kept, .any⟩
/-- RST, RST_FORMAT.RATE (R230). -/
def rstFormatRate : Field := ⟨0x104, 24, 4, .rw, .shadow, 5, .kept, .any⟩
/-- RST, RST_OFFSET.SAMPLES (R230). -/
def rstOffsetSamples : Field := ⟨0x108, 0, 27, .rw, .shadow, 0, .kept, .any⟩
/-- RST, RST_VB.VB_MAX (R230). -/
def rstVbVbMax : Field := ⟨0x10C, 16, 13, .rw, .shadow, 1170, .kept, .any⟩
/-- RST, RST_VB.VB_MIN (R230). -/
def rstVbVbMin : Field := ⟨0x10C, 0, 13, .rw, .shadow, 41, .kept, .any⟩
/-- RST, RST_SLEW.TRACK_LAYER (R230). -/
def rstSlewTrackLayer : Field := ⟨0x110, 16, 2, .rw, .shadow, 0, .kept, .any⟩
/-- RST, RST_SLEW.SLEW_MAX (R230). -/
def rstSlewSlewMax : Field := ⟨0x110, 0, 13, .rw, .shadow, 16, .kept, .any⟩
/-- RST, RST_FREEZE.FRZ_EN (R230). -/
def rstFreezeFrzEn : Field := ⟨0x114, 31, 1, .rw, .live, 1, .kept, .any⟩
/-- RST, RST_FREEZE.FRZ_LAYER (R230). -/
def rstFreezeFrzLayer : Field := ⟨0x114, 16, 2, .rw, .live, 0, .kept, .any⟩
/-- RST, RST_FREEZE.FREEZE_N (R230). -/
def rstFreezeFreezeN : Field := ⟨0x114, 0, 8, .rw, .live, 3, .kept, .range 1 255⟩
/-- RST, RST_COMMIT.CANCEL (R230). -/
def rstCommitCancel : Field := ⟨0x118, 5, 1, .wo, .none, 0, .becomes 0, .any⟩
/-- RST, RST_COMMIT.AT_FRAME (R230). -/
def rstCommitAtFrame : Field := ⟨0x118, 1, 1, .rw, .live, 0, .becomes 0, .any⟩
/-- RST, RST_COMMIT.COMMIT (R230). -/
def rstCommit : Field := ⟨0x118, 0, 1, .w1s, .none, 0, .becomes 0, .any⟩
/-- RST, RST_COMMIT_FRAME_LO.FRAME_LO (R230). -/
def rstCommitFrameLoFrameLo : Field := ⟨0x11C, 0, 32, .rw, .live, 0, .becomes 0, .any⟩
/-- RST, RST_COMMIT_FRAME_HI.FRAME_HI (R230). -/
def rstCommitFrameHiFrameHi : Field := ⟨0x120, 0, 16, .rw, .live, 0, .becomes 0, .any⟩
/-- RST, RST_STATUS.TRACK_OK (R230). -/
def rstStatusTrackOk : Field := ⟨0x140, 9, 1, .ro, .none, 0, .becomes 0, .any⟩
/-- RST, RST_STATUS.CLK_BAD (R230). -/
def rstStatusClkBad : Field := ⟨0x140, 8, 1, .ro, .none, 0, .becomes 0, .any⟩
/-- RST, RST_STATUS.FREEZE (R230). -/
def rstStatusFreeze : Field := ⟨0x140, 7, 1, .ro, .none, 0, .becomes 0, .any⟩
/-- RST, RST_STATUS.FORMAT_GAP (R230). -/
def rstStatusFormatGap : Field := ⟨0x140, 6, 1, .ro, .none, 0, .becomes 0, .any⟩
/-- RST, RST_STATUS.ADJUSTING (R230). -/
def rstStatusAdjusting : Field := ⟨0x140, 5, 1, .ro, .none, 0, .becomes 0, .any⟩
/-- RST, RST_STATUS.SLEWING (R230). -/
def rstStatusSlewing : Field := ⟨0x140, 4, 1, .ro, .none, 0, .becomes 0, .any⟩
/-- RST, RST_STATUS.OUT_LOCKED (R230). -/
def rstStatusOutLocked : Field := ⟨0x140, 3, 1, .ro, .none, 0, .becomes 0, .any⟩
/-- RST, RST_STATUS.MODE (R230). -/
def rstStatusMode : Field := ⟨0x140, 0, 3, .ro, .none, 0, .becomes 0, .any⟩
/-- RST, RST_PHASE.SAMPLES (R230). -/
def rstPhaseSamples : Field := ⟨0x144, 0, 32, .ro, .none, 0, .becomes 0, .any⟩
/-- RST, RST_FRAME_LO.FRAME_LO (R230). -/
def rstFrameLo : Field := ⟨0x148, 0, 32, .ro, .none, 0, .becomes 0, .any⟩
/-- RST, RST_FRAME_HI.FRAME_HI (R230). -/
def rstFrameHi : Field := ⟨0x14C, 0, 16, .ro, .none, 0, .becomes 0, .any⟩
/-- RST, RST_POS.LINE (R230). -/
def rstPosLine : Field := ⟨0x150, 16, 14, .ro, .none, 0, .becomes 0, .any⟩
/-- RST, RST_POS.SAMPLE (R230). -/
def rstPosSample : Field := ⟨0x150, 0, 16, .ro, .none, 0, .becomes 0, .any⟩
/-- RST, RST_FLEN.LINES (R230). -/
def rstFlenLines : Field := ⟨0x154, 16, 14, .ro, .none, 0, .becomes 0, .any⟩
/-- RST, RST_FLEN.LAST_LINE (R230). -/
def rstFlenLastLine : Field := ⟨0x154, 0, 16, .ro, .none, 0, .becomes 0, .any⟩
/-- RST, RST_FLIP_FRAME_LO.FRAME (R230). -/
def rstFlipFrameLoFrame : Field := ⟨0x158, 0, 32, .ro, .none, 0, .becomes 0, .any⟩
/-- RST, RST_FLIP_FRAME_HI.FRAME (R230). -/
def rstFlipFrameHiFrame : Field := ⟨0x15C, 0, 16, .ro, .none, 0, .becomes 0, .any⟩
/-- RST, RST_FLIP_S_LO.SEC (R230). -/
def rstFlipSLoSec : Field := ⟨0x160, 0, 32, .ro, .none, 0, .becomes 0, .any⟩
/-- RST, RST_FLIP_S_HI.TS_VALID (R230). -/
def rstFlipSHiTsValid : Field := ⟨0x164, 31, 1, .ro, .none, 0, .becomes 0, .any⟩
/-- RST, RST_FLIP_S_HI.SEC (R230). -/
def rstFlipSHiSec : Field := ⟨0x164, 0, 16, .ro, .none, 0, .becomes 0, .any⟩
/-- RST, RST_FLIP_NS.NS (R230). -/
def rstFlipNsNs : Field := ⟨0x168, 0, 30, .ro, .none, 0, .becomes 0, .any⟩
/-- RST, RST_SIG.CRC (R230). -/
def rstSigCrc : Field := ⟨0x16C, 0, 32, .ro, .none, 0, .becomes 0, .any⟩
/-- RST, RST_CNT.UNDERRUN (R230). -/
def rstCntUnderrun : Field := ⟨0x170, 16, 16, .rc, .none, 0, .becomes 0, .any⟩
/-- RST, RST_CNT.ADJUST (R230). -/
def rstCntAdjust : Field := ⟨0x170, 0, 16, .rc, .none, 0, .becomes 0, .any⟩
/-- RST, RST_EVENT.FRAME_SKIP (R230). -/
def rstEventFrameSkip : Field := ⟨0x174, 8, 1, .w1c, .none, 0, .becomes 0, .any⟩
/-- RST, RST_EVENT.CLK_BAD (R230). -/
def rstEventClkBad : Field := ⟨0x174, 7, 1, .w1c, .none, 0, .becomes 0, .any⟩
/-- RST, RST_EVENT.UNFREEZE (R230). -/
def rstEventUnfreeze : Field := ⟨0x174, 6, 1, .w1c, .none, 0, .becomes 0, .any⟩
/-- RST, RST_EVENT.FREEZE (R230). -/
def rstEventFreeze : Field := ⟨0x174, 5, 1, .w1c, .none, 0, .becomes 0, .any⟩
/-- RST, RST_EVENT.UNDERRUN (R230). -/
def rstEventUnderrun : Field := ⟨0x174, 4, 1, .w1c, .none, 0, .becomes 0, .any⟩
/-- RST, RST_EVENT.FORMAT_START (R230). -/
def rstEventFormatStart : Field := ⟨0x174, 3, 1, .w1c, .none, 0, .becomes 0, .any⟩
/-- RST, RST_EVENT.ADJUST (R230). -/
def rstEventAdjust : Field := ⟨0x174, 2, 1, .w1c, .none, 0, .becomes 0, .any⟩
/-- RST, RST_EVENT.TRACK_CHANGE (R230). -/
def rstEventTrackChange : Field := ⟨0x174, 1, 1, .w1c, .none, 0, .becomes 0, .any⟩
/-- RST, RST_EVENT.OUT_LOCKED_CHANGE (R230). -/
def rstEventOutLockedChange : Field := ⟨0x174, 0, 1, .w1c, .none, 0, .becomes 0, .any⟩
/-- RST, RST_EVENT_EN.EN (R230). -/
def rstEventEnEn : Field := ⟨0x178, 0, 9, .rw, .live, 447, .kept, .any⟩

/-- The register fields of RST. -/
def rstFields : List Field :=
  [rstCtrlFreeSyn, rstCtrlFreeOut, rstCtrlJumpEn, rstCtrlTb, rstCtrlMode, rstFormatStruct,
   rstFormatRate, rstOffsetSamples, rstVbVbMax, rstVbVbMin, rstSlewTrackLayer, rstSlewSlewMax,
   rstFreezeFrzEn, rstFreezeFrzLayer, rstFreezeFreezeN, rstCommitCancel, rstCommitAtFrame, rstCommit,
   rstCommitFrameLoFrameLo, rstCommitFrameHiFrameHi, rstStatusTrackOk, rstStatusClkBad,
   rstStatusFreeze, rstStatusFormatGap, rstStatusAdjusting, rstStatusSlewing, rstStatusOutLocked,
   rstStatusMode, rstPhaseSamples, rstFrameLo] ++
  [rstFrameHi, rstPosLine, rstPosSample, rstFlenLines, rstFlenLastLine, rstFlipFrameLoFrame,
   rstFlipFrameHiFrame, rstFlipSLoSec, rstFlipSHiTsValid, rstFlipSHiSec, rstFlipNsNs, rstSigCrc,
   rstCntUnderrun, rstCntAdjust, rstEventFrameSkip, rstEventClkBad, rstEventUnfreeze, rstEventFreeze,
   rstEventUnderrun, rstEventFormatStart, rstEventAdjust, rstEventTrackChange,
   rstEventOutLockedChange, rstEventEnEn]

/-- LANE, LANE_INDEX.LANE (R273). -/
def laneIndexLane : Field := ⟨0x200, 0, 2, .rw, .live, 0, .becomes 0, .any⟩
/-- LANE, LANE_CTRL.ADAPT (R273). -/
def laneCtrlAdapt : Field := ⟨0x204, 31, 1, .wo, .none, 0, .becomes 0, .any⟩
/-- LANE, LANE_CTRL.RX_INV (R273). -/
def laneCtrlRxInv : Field := ⟨0x204, 9, 1, .rw, .idle, 0, .kept, .any⟩
/-- LANE, LANE_CTRL.TX_INV (R273). -/
def laneCtrlTxInv : Field := ⟨0x204, 8, 1, .rw, .idle, 0, .kept, .any⟩
/-- LANE, TX_EQ.AMP (R273). -/
def laneTxEqAmp : Field := ⟨0x208, 24, 8, .rw, .live, 80, .kept, .range 40 100⟩
/-- LANE, TX_EQ.PRE (R273). -/
def laneTxEqPre : Field := ⟨0x208, 20, 4, .rw, .live, 0, .kept, .any⟩
/-- LANE, TX_EQ.POST (R273). -/
def laneTxEqPost : Field := ⟨0x208, 16, 4, .rw, .live, 4, .kept, .any⟩
/-- LANE, LANE_STATUS.STATE (R273). -/
def laneStatusState : Field := ⟨0x20C, 29, 3, .ro, .none, 5, .becomes 5, .any⟩
/-- LANE, LANE_STATUS.SIGNAL (R273). -/
def laneStatusSignal : Field := ⟨0x20C, 28, 1, .ro, .none, 0, .becomes 0, .any⟩
/-- LANE, LANE_STATUS.CDR_LOCK (R273). -/
def laneStatusCdrLock : Field := ⟨0x20C, 27, 1, .ro, .none, 0, .becomes 0, .any⟩
/-- LANE, LANE_CNT.LOSS (R273). -/
def laneCntLoss : Field := ⟨0x210, 16, 16, .rc, .none, 0, .becomes 0, .any⟩
/-- LANE, LANE_CNT.BLK_ERR (R273). -/
def laneCntBlkErr : Field := ⟨0x210, 0, 16, .rc, .none, 0, .becomes 0, .any⟩
/-- LANE, GYL_CNT.CONCEAL (R273). -/
def laneGylCntConceal : Field := ⟨0x214, 16, 16, .rc, .none, 0, .becomes 0, .any⟩
/-- LANE, GYL_CNT.REPLAY (R273). -/
def laneGylCntReplay : Field := ⟨0x214, 8, 8, .rc, .none, 0, .becomes 0, .any⟩
/-- LANE, GYL_CNT.REPLAY_LOST (R273). -/
def laneGylCntReplayLost : Field := ⟨0x214, 4, 4, .rc, .none, 0, .becomes 0, .any⟩
/-- LANE, GYL_CNT.STUFF_DROP (R273). -/
def laneGylCntStuffDrop : Field := ⟨0x214, 0, 4, .rc, .none, 0, .becomes 0, .any⟩
/-- LANE, EYE_RANGE.PH_LO (R273). -/
def laneEyeRangePhLo : Field := ⟨0x220, 24, 8, .rw, .live, 224, .kept, .any⟩
/-- LANE, EYE_RANGE.PH_HI (R273). -/
def laneEyeRangePhHi : Field := ⟨0x220, 16, 8, .rw, .live, 31, .kept, .any⟩
/-- LANE, EYE_RANGE.V_LO (R273). -/
def laneEyeRangeVLo : Field := ⟨0x220, 8, 8, .rw, .live, 129, .kept, .any⟩
/-- LANE, EYE_RANGE.V_HI (R273). -/
def laneEyeRangeVHi : Field := ⟨0x220, 0, 8, .rw, .live, 127, .kept, .any⟩
/-- LANE, EYE_STEP.PH_STEP (R273). -/
def laneEyeStepPhStep : Field := ⟨0x224, 24, 8, .rw, .live, 1, .kept, .any⟩
/-- LANE, EYE_STEP.V_STEP (R273). -/
def laneEyeStepVStep : Field := ⟨0x224, 16, 8, .rw, .live, 1, .kept, .any⟩
/-- LANE, EYE_STEP.DWELL (R273). -/
def laneEyeStepDwell : Field := ⟨0x224, 0, 6, .rw, .live, 24, .kept, .any⟩
/-- LANE, EYE_CTRL.ABORT (R273). -/
def laneEyeCtrlAbort : Field := ⟨0x228, 1, 1, .wo, .none, 0, .becomes 0, .any⟩
/-- LANE, EYE_CTRL.START (R273). -/
def laneEyeCtrlStart : Field := ⟨0x228, 0, 1, .wo, .none, 0, .becomes 0, .any⟩
/-- LANE, EYE_STATUS.BUSY (R273). -/
def laneEyeStatusBusy : Field := ⟨0x22C, 31, 1, .ro, .none, 0, .becomes 0, .any⟩
/-- LANE, EYE_STATUS.CODE (R273). -/
def laneEyeStatusCode : Field := ⟨0x22C, 24, 4, .ro, .none, 15, .becomes 15, .any⟩
/-- LANE, EYE_STATUS.POINTS (R273). -/
def laneEyeStatusPoints : Field := ⟨0x22C, 0, 15, .ro, .none, 0, .becomes 0, .any⟩
/-- LANE, EYE_RES_INDEX.PH (R273). -/
def laneEyeResIndexPh : Field := ⟨0x230, 8, 8, .rw, .live, 0, .becomes 0, .any⟩
/-- LANE, EYE_RES_INDEX.V (R273). -/
def laneEyeResIndexV : Field := ⟨0x230, 0, 8, .rw, .live, 0, .becomes 0, .any⟩
/-- LANE, EYE_RES.VALID (R273). -/
def laneEyeResValid : Field := ⟨0x234, 31, 1, .ro, .none, 0, .becomes 0, .any⟩
/-- LANE, EYE_RES.SAT (R273). -/
def laneEyeResSat : Field := ⟨0x234, 30, 1, .ro, .none, 0, .becomes 0, .any⟩
/-- LANE, EYE_RES.COUNT (R273). -/
def laneEyeResCount : Field := ⟨0x234, 0, 30, .ro, .none, 0, .becomes 0, .any⟩

/-- The register fields of LANE. -/
def laneFields : List Field :=
  [laneIndexLane, laneCtrlAdapt, laneCtrlRxInv, laneCtrlTxInv, laneTxEqAmp, laneTxEqPre, laneTxEqPost,
   laneStatusState, laneStatusSignal, laneStatusCdrLock, laneCntLoss, laneCntBlkErr,
   laneGylCntConceal, laneGylCntReplay, laneGylCntReplayLost, laneGylCntStuffDrop, laneEyeRangePhLo,
   laneEyeRangePhHi, laneEyeRangeVLo, laneEyeRangeVHi, laneEyeStepPhStep, laneEyeStepVStep,
   laneEyeStepDwell, laneEyeCtrlAbort, laneEyeCtrlStart, laneEyeStatusBusy, laneEyeStatusCode,
   laneEyeStatusPoints, laneEyeResIndexPh, laneEyeResIndexV] ++
  [laneEyeResValid, laneEyeResSat, laneEyeResCount]

end Sys2Proof.Machine.F
end

