-- ==== Sys2Proof/Config.lean ====
section
/-! DEFINITION. What one part fixes and what the manual leaves open: constants without a body. Nothing in Lean can
evaluate one or prove a value of it; a statement that mentions one holds for every value it may have. -/

namespace Sys2Proof.Config

/-- A value the manual leaves open, drawn by number: the free-value counter of `State` names the draw. -/
opaque freeNat : Nat → Nat

/-- The byte that a read of the boot ROM returns (R5: the contents are not documented). -/
opaque romByte : Nat → BitVec 8

/-- The byte that a read of the peripheral bus returns (R45 names the target, no chapter gives its registers). -/
opaque peripheralByte : Nat → BitVec 8

/-- The fused grade code of DEVICE_ID (R3). -/
opaque fusedGrade : Nat

/-- The fused serial number of the key store. -/
opaque fusedSerial : Nat

/-- The fused band trim of the synthesizers, the same on every page of one device (R351). -/
opaque fusedTrim : Nat

/-- Does a firmware image carry a valid vendor signature (R5)? -/
opaque signatureValid : List (BitVec 8) → Bool

/-- The version that a firmware image carries (FW_VER). -/
opaque firmwareVersion : List (BitVec 8) → Nat

/-- Words that an area of a line of an SDI output has free for ancillary packets in each data stream: horizontal or vertical area,
STRUCT, RATE, LINK (R121; the standards give it). -/
opaque ancRoom : Bool → Nat → Nat → Nat → Nat

/-- Words that the embedded audio of a line takes in the horizontal area of a data stream: data stream, LINK, enabled groups, samples
of each channel (R121; the standards give the packets). -/
opaque audioWords : Nat → Nat → Nat → Nat → Nat

/-- The check words of a line at HD and above, over its active words: LINK, line number (R105; the standards give the code and the
words it covers). -/
opaque lineCrc : Nat → Nat → List Nat → Nat

/-- The words of a line behind its active ones, from EAV to SAV: LINK, STRUCT, RATE, line, check words, and what goes into the line
beside its picture, each as a list of numbers (R306; the standards give them). -/
opaque blankWords : Nat → Nat → Nat → Nat → Nat → List (List Nat) → List Nat

/-- The ST 352 payload of a transmitter's format: STRUCT, RATE, SAMPLING, DEPTH, LINK and link number (R121; ST 352 gives
the coding). -/
opaque payloadId : Nat → Nat → Nat → Nat → Nat → Nat → Nat

/-- The decoder of the PUF: the secret that a syndrome gives with the raw response (R358). -/
opaque pufDecode : List (BitVec 8) → Option (List (BitVec 8))

/-- An enrolment, by free number: a fresh PUF secret and its syndrome (R360). -/
opaque pufEnroll : Nat → List (BitVec 8) × List (BitVec 8)

/-- 32 bytes from the DRBG, by free number (R369). -/
opaque drbg : Nat → List (BitVec 8)

/-- The address that a link uses as IPv4 source of its PTP messages, by port and link (R144: no register holds one). -/
opaque linkAddress : Nat → Nat → Nat

/-- The IPv4 time to live, the UDP source port and the VLAN priority of packets sent. -/
opaque ipTtl : Nat
opaque udpSource : Nat
opaque vlanPriority : Nat

/-- The IPv4 identification of a packet, by free number. -/
opaque ipIdent : Nat → Nat

/-- Does a number that lies between two steps of its format go to the upper one? Place of the number, numerator, denominator (R160 to
R169, R180 to R186: the manual gives widths and no rounding). -/
opaque roundsUp : Nat → Int → Nat → Bool

/-- A chroma sample of 12 bits between the samples of a component, at a pixel and a line (R160: the manual gives no filter). -/
opaque chromaUp : (Nat → Nat → Nat) → Nat → Nat → BitVec 12

/-- A chroma sample of a halved sampling, from the component at full sampling, at a pixel and a line (R160, R186: no filter is given). -/
opaque chromaDown : (Nat → Nat → Nat) → Nat → Nat → BitVec 16

/-- A sample of a line that a field lacks, from the column of the field, at a frame line (R161: no filter is given). -/
opaque fieldInterp : (Nat → Nat) → Nat → BitVec 12

/-- A sample of a line of an output field, from the column of the frame, at a frame line (R160: no filter is given). -/
opaque fieldFilter : (Nat → Nat) → Nat → BitVec 12

/-- The weight of the interpolated field against the woven pair, of 65,535: previous, current and next field, pixel and line (R161: no
measure of motion is given). -/
opaque motionWeight : Option (Nat → Nat → Nat × Nat × Nat) → (Nat → Nat → Nat × Nat × Nat) →
  Option (Nat → Nat → Nat × Nat × Nat) → Nat → Nat → BitVec 16

/-- The motion vector of a block between two pictures in quarters of a pixel, forward or backward: column and row of blocks (R166: no
match criterion is given). -/
opaque blockVector : (Nat → Nat → Nat × Nat × Nat) → (Nat → Nat → Nat × Nat × Nat) → Bool → Nat → Nat → Int × Int

/-- Do a forward and a backward vector agree (R166)? -/
opaque vectorsAgree : Int × Int → Int × Int → Bool

/-- Is an occluded pixel visible in the first of two pictures (R166)? -/
opaque visibleInFirst : (Nat → Nat → Nat × Nat × Nat) → (Nat → Nat → Nat × Nat × Nat) → Nat → Nat → Bool

/-- A component of a picture at a place in quarters of a pixel (R166: no interpolation filter is given). -/
opaque subPixel : (Nat → Nat → Nat) → Int → Int → BitVec 12

/-- A coefficient of a scaler: taps, FILTER, source and output size of the axis, phase, tap (R168, R180: built-in sets). -/
opaque scalerCoef : Nat → Nat → Nat → Nat → Nat → Nat → BitVec 12

/-- The coefficient value that stands for one, less one (R168). -/
opaque scalerUnit : Nat

/-- An entry of a LUT that no load has filled: SEL, entry, channel (R170: the manual gives no contents). -/
opaque emptyLut : Nat → Nat → Nat → BitVec 16

/-- Is a sample that lies between two of the 24-bit format taken up rather than down: its exact value, times the unit of the curves (R236,
R239, R241: the manual gives no rounding). -/
opaque sampleRoundsUp : Int → Bool

/-- A sample of a route through a converter channel: the output channel, its measured ratio, the instant, the samples of its route that the
conversion spans, newest first (R243: the manual gives no filter). -/
opaque asrcSample : Nat → Nat → Nat → List Nat → BitVec 24

/-- The frame sequence number that an audio control packet of a LOCKED raster at a 1.001 rate carries: RATE, the raster's frame (R246;
ST 299 gives it). -/
opaque audioSequence : Nat → Nat → Nat

/-- The line-seal state after further bytes of a line (R16, R278: the manual names the seal and gives no algorithm). -/
opaque lineSeal : Nat → List (BitVec 8) → Nat

/-- Bytes 10 to 127 of an FEVT_ACK block, by its route ports and hops: the manual does not place the route (R292). -/
opaque ackRoute : Nat → Nat → List (BitVec 8)

/-- The payloads of the Clasp blocks that carry a message between twins (R302: internal to a pair and not documented). -/
opaque claspMessage : List Nat → List (List (BitVec 8))

/-- The DEFLATE stream that the Press writes for inputs with their FLUSH marks, by level (R389: the choice of blocks, matches
and codes is the Press's own). -/
opaque deflate : Nat → List (List (BitVec 8) × Bool) → List (BitVec 8)

end Sys2Proof.Config
end

