-- ==== Sys2Proof/Machine/Types.lean ====
section
/-! DEFINITION. The records the state is made of: what each block holds beside its register fields. -/

namespace Sys2Proof.Machine

/-- Names a register field of one cell of one page; `slot` is `Field.slot`. -/
structure Key where
  page : Nat
  cell : Nat
  slot : Nat
  deriving DecidableEq, Repr

/-- Bytes of a line, of a fragment, of a packet. -/
abbrev Bytes := List Byte

/-- What a master gets for its last access: the data, or an error completion. -/
inductive Reply where
  | none
  | data (w : Nat)
  | error
  deriving DecidableEq, Repr

/-- What a line of an output raster carries in place of or as its picture: blanking, black, the port's fill, data. -/
inductive LineContent where
  | blanking | black | fill | data
  deriving DecidableEq, Repr

/-- What goes out of the block: messages, packets, blocks, lines and pin changes, newest first in `State.out`. -/
inductive Out where
  /-- An MSI-X message on a vector (R40). -/
  | msix (vector : Nat)
  /-- A page write mirrored to the shadow twin: page, cell in force and offset, value (R301). -/
  | mirror (page cell off value : Nat)
  /-- An event mirrored to the shadow twin as it was entered, or its cancellation (R302). -/
  | mirrorEvent (handle kind tb line frame arg page : Nat)
  | mirrorCancel (handle : Nat)
  /-- A write into HBM mirrored to the shadow twin (R301). -/
  | mirrorMemory (addr : Nat) (bytes : Bytes)
  /-- A decision of a lead, or a result of a twin, sent to the partner: the page, its cell, the values (R304, R305). -/
  | decision (page cell : Nat) (values : List Nat)
  /-- A Bezel message copied to the shadow twin (R304). -/
  | mirrorBezel (cell : Nat) (bytes : Bytes)
  /-- The seal of an output line sent to the partner, with its LOCAL bit and whether it is excused (R308, R310). -/
  | lineSeal (flow line frame part value : Nat) (isLocal waived : Bool)
  /-- A heartbeat on a Clasp lane (R317). -/
  | heartbeat (lane : Nat)
  /-- The data that a completed read returned to a master. -/
  | read (master : Nat) (bytes : Bytes)
  /-- A pulse or a level on an output ball. -/
  | pin (name : String) (level : Bool)
  /-- A packet sent on a link of an IP port. -/
  | packet (port link : Nat) (bytes : Bytes)
  /-- A Gylos block sent on a lane of a page: its bytes, masked and scrambled, and the line bits that carry them (R262, R264). -/
  | block (page lane kind : Nat) (bytes : Bytes) (bits : List Bool)
  /-- A line of an output raster: what it carries, and for data its bytes. -/
  | line (page raster line : Nat) (content : LineContent) (bytes : Bytes)
  /-- An ancillary packet placed in a line of a transmitter: whether in the horizontal area, its data stream and its first word there
  (R121). -/
  | anc (page line : Nat) (hanc : Bool) (ds place did sdid : Nat) (words : List Nat)
  /-- The line number and the check words that a transmitter puts into a line at HD and above (R105). -/
  | lineCheck (page line crc : Nat)
  /-- A data packet of an embedded audio group placed in a line: its data block number and a sample of each of its four channels
  (R246, R248). -/
  | audioData (page line group block : Nat) (samples : List Nat)
  /-- A control packet of an embedded audio group: its frame sequence number, none being 0, and its four ACT bits (R246, R248). -/
  | audioControl (page line group sequence act : Nat)
  /-- A frame of a serial audio port. -/
  | audio (port : Nat) (samples : List Nat)
  /-- What a serial audio port drives over the 64 BCLK periods of a frame: the levels of WS, with BCLK, where it is the master, and the
  bits of SD where that is an output (R249). -/
  | audioWire (port : Nat) (ws sd : List Bool)
  /-- A Gylos block whose header has validated, forwarded to its port. -/
  | forward (page lane kind : Nat) (payload : Bytes)
  /-- A byte string returned on the management SPI. -/
  | spi (bytes : Bytes)
  deriving DecidableEq, Repr

/-! ### Commits (R35 to R38) -/

/-- A commit unit: an engine's header commit or a cell's own commit register. `frozen` is set from the capture
instant to the commit point, `captured` when a pending commit was captured there, `frame` is the frame of an
AT_FRAME commit and `handle` its event; `next` is a request accepted after the capture, for the following commit
point, with its frame and event where it names one. -/
structure CommitUnit where
  frozen : Bool
  captured : Bool
  frame : Option Nat
  handle : Option Nat
  next : Option (Option (Nat × Nat))
  deriving DecidableEq, Repr

/-! ### Timebases (R57 to R70) -/

/-- States of a timebase (R64). -/
inductive TbState where
  | off | free | acquire | locked | holdover | mismatch
  deriving DecidableEq, Repr

/-- A timebase. The frame in progress began at `startNs`; `struct` and `rate` are what the counter runs on now.
`agree` counts consecutive consistent sync events, `offRun` holds the last off-position events of R66, `badFrames` the frames of
R68; `lastSync` is the last sync event used, `heard` the last one that counts against loss (R57); `ppt` is the rate of the count
against nominal in parts of 10^12, gained since `rateFrom`; `lockNs`, `lockSum` and `history` are what its average over the last
second of lock is taken from (R64): the section in progress and the frames before it, each as its nanoseconds and their product
with the rate; `slewErr` is the phase error that a slew had to correct at `slewFrom`, at `slewPpm`, and `jumpErr` the one
that a pending jump corrects; `jumped` says that the frame in progress began by a jump; `beaconDepth`
is the DEPTH of the last beacon that it received; `resumed` says that the timebase came back from an engine reset and aligns under R67 (R70). -/
structure Timebase where
  state : TbState
  startNs : Nat
  frame : Nat
  struct : Nat
  rate : Nat
  agree : Nat
  offRun : List Int
  badFrames : Nat
  lastSync : Option Nat
  heard : Option Nat
  phaseErr : Int
  freqOfs : Int
  ppt : Int
  rateFrom : Nat
  lockNs : Nat
  lockSum : Int
  history : List (Nat × Int)
  slewErr : Int
  slewFrom : Nat
  slewPpm : Nat
  jumpEnd : Option Nat
  jumpErr : Int
  jumped : Bool
  beaconDepth : Nat
  resumed : Bool
  epoch : Option Nat
  rind : Option Nat
  deriving DecidableEq, Repr

/-! ### Event Schedule (R75 to R83) -/

/-- Event kinds (R76). -/
inductive EvKind where
  | take | pageCommit | layerCommit | profile | audioRoute | rennet | notify
  deriving DecidableEq, Repr

/-- Who entered an event: a master at EV_SUBMIT, a page under R37 or R189, the profile pins, DEV.PROFILE, the fabric. -/
inductive EvOrigin where
  | submit (master : Nat) | page | pins | devProfile | fabric
  deriving DecidableEq, Repr

/-- A pending event; `cell` is the commit unit of a page's own event. -/
structure Event where
  handle : Nat
  kind : EvKind
  tb : Nat
  notify : Bool
  line : Nat
  frame : Nat
  sample : Nat
  arg : Nat
  page : Nat
  unit : Nat
  origin : EvOrigin
  deriving DecidableEq, Repr

/-- What a schedule slot last held (EV_QSTATE). -/
inductive SlotState where
  | free | pending | applied | cancelled | flushed
  deriving DecidableEq, Repr

/-- A schedule slot: its generation and the state of its latest event. -/
structure EvSlot where
  gen : Nat
  state : SlotState
  deriving DecidableEq, Repr

/-! ### Crosspoints and takes (R88 to R98) -/

/-- A crosspoint entry (R88). -/
structure XpEntry where
  egress : Nat
  source : Nat
  disconnect : Bool
  audioFollow : Bool
  forceFs : Bool
  policySet : Bool
  policy : Nat
  deriving DecidableEq, Repr

/-- A salvo operation in progress (R82): a load with the entries it read, or none where the read failed; a delete. -/
inductive SalvoOp where
  | load (salvo : Nat) (entries : Option (List XpEntry))
  | delete (salvo : Nat)
  deriving DecidableEq, Repr

/-- A route of the shuffler as it is held in a route set (R237). -/
structure RouteEntry where
  out : Nat
  word : Nat
  deriving DecidableEq, Repr

/-- What a copy in the shadow crosspoint bank belongs to. -/
inductive CopyOwner where
  | event (handle : Nat)
  | pin (n : Nat)
  deriving DecidableEq, Repr

/-- Progress of a copy into the shadow crosspoint bank (R95, R96). -/
inductive CopyState where
  | waiting | copying | done | armed
  deriving DecidableEq, Repr

/-- A copy in the shadow crosspoint bank (R95, R96): the entries of a salvo or of a route set, `late` on the late write port;
`phases` are the phases of its sources at the arm point, by egress flow (R91). -/
structure BankCopy where
  owner : CopyOwner
  tb : Nat
  late : Bool
  state : CopyState
  entries : List XpEntry
  routes : List RouteEntry
  phases : List (Nat × Int)
  deriving DecidableEq, Repr

/-- What the latest edge on a TAKE pin did, which a runt takes back (R97): nothing, a take with the GATED bit and the interrupt
that it set, or a further edge with the DUP bit that it set. -/
inductive PinEdge where
  | none
  | take (gated raised : Bool)
  | dup (set : Bool)
  deriving DecidableEq, Repr

/-- A TAKE pin (R97): a pending take, whether it waits for the switch point after the next one, a held write of its PIN_CFG, and
its latest edge. -/
structure TakePin where
  pending : Bool
  following : Bool
  heldCfg : Option Nat
  edge : PinEdge
  deriving DecidableEq, Repr

/-! ### Vat (R100 to R103) -/

/-- States of a Vat bank. -/
inductive VatState where
  | inService | spare | draining | fenced | testing | testFailed
  deriving DecidableEq, Repr

/-- A Vat bank: state, logical slot, whether it passed a test since it was fenced, its counts, and the times of the
corrected errors of the last second. -/
structure VatBank where
  state : VatState
  slot : Option Nat
  tested : Bool
  ue : Nat
  ce : Nat
  ceTimes : List Nat
  deriving DecidableEq, Repr

/-- A fragment in the Vat: when the last fragment of its segment was written, its bytes, and the state of the line seal after it
(R16, R100). -/
structure Fragment where
  atNs : Nat
  bytes : Bytes
  sealState : Nat
  deriving DecidableEq, Repr

/-! ### Flows and frame stores (R84 to R93, R113) -/

/-- A frame-store buffer: the writer's frame count, the frame number of the source's timebase, when its write began, whether
the frame is complete and from when, when the second field of an interlaced one began, its lines with whether each was errored, and the samples of the bound audio flow since the
frame began, newest first: nanoseconds from its start, channel, sample or none where it is missing (R238, R241). -/
structure FsBuffer where
  seq : Nat
  frame : Nat
  begunNs : Nat
  secondNs : Option Nat
  complete : Bool
  endNs : Nat
  lines : List (Nat × Bool × Bytes)
  audio : List (Nat × Nat × Option Nat)
  deriving DecidableEq, Repr

/-- A frame store: where it lies in the device region and its buffers, newest first. -/
structure FrameStore where
  base : Nat
  size : Nat
  depth : Nat
  buffers : List FsBuffer
  deriving DecidableEq, Repr

/-- How an egress reads its source (R92). -/
inductive EgPath where
  | none | bypass | frameStore
  deriving DecidableEq, Repr

/-- Where the audio bound to a video egress comes from (R92, R93, R238): nowhere, the shuffler's input, a buffer of the source's
store from the instant at which its first sample was shown, or the source's store so late (R172). -/
inductive AudioPath where
  | silent | direct
  | stored (src seq startNs : Nat)
  | late (src delayNs : Nat)
  deriving DecidableEq, Repr

/-- What a flow does beside its context. For an ingress: whether it produces segments, its line and frame in progress,
when that line began and when the last segment came, its frame store, the CRC of the frame in progress, the seal
of the line in progress, and its alive state (newest complete frame number and signature, R227). `lost` says of an ingress that
its loss is declared, of an egress that its source is lost (R93). For an egress: its path, the buffer it shows from a store and
since when, its last slip: whether a repeat, and the phase then (R113); whether its source's samples do not match, until a frame
start at which they do (R91); the phase at the arm point of a take (R91); where the bound audio comes from, where it came from
before, and the cross-fade between them (R236, R239); and when the take was that waits for the raster's switch point (R94). -/
structure FlowRun where
  producing : Bool
  lastSegNs : Nat
  line : Nat
  lineNs : Nat
  frame : Nat
  partLine : Bytes
  errored : Bool
  sig : Nat
  sealState : Nat
  alive : Nat × Nat
  store : Option FrameStore
  lost : Bool
  path : EgPath
  shown : Option Nat
  shownNs : Nat
  slip : Option (Bool × Int)
  mismatch : Bool
  armPhase : Option Int
  hears : AudioPath
  heard : AudioPath
  fadeNs : Nat
  fadeLen : Nat
  delayNs : Option Nat
  oldDelay : Nat
  takenNs : Nat
  deriving DecidableEq, Repr

/-- How a raster comes to its target phase: it is there, by one adjusted frame (R218), by one that moves it by so many samples
(a committed RST_OFFSET), or by slewed frames (R220). -/
inductive AlignMode where
  | steady | adjust | slew
  | shift (samples : Nat)
  deriving DecidableEq, Repr

/-- An output raster (R210 to R230). The frame in progress began at `startNs`, has `lines` lines, the last of
`lastLine` samples; `line` is the line begun last; `waiting` says that the raster waits for the frame boundary that
starts it or its next format, `regap` that a change of the lane's bit rate waits for that frame (R124), `black` that the frame is the first of a format; `sig` is the signature so far; the freeze
detector's previous signature, the source's alive state then and its count (R228); the layers or flows that underran
in the frame. -/
structure Raster where
  running : Bool
  startNs : Nat
  frame : Nat
  struct : Nat
  rate : Nat
  mode : Nat
  tb : Nat
  offset : Nat
  lines : Nat
  lastLine : Nat
  line : Nat
  waiting : Bool
  regap : Bool
  gap : Bool
  black : Bool
  align : AlignMode
  sig : Nat
  prevSig : Nat
  prevAlive : Nat × Nat
  frozen : Nat
  underran : List Nat
  deriving DecidableEq, Repr

/-! ### Synthesizers (R348 to R357) -/

/-- States of a synthesizer (STATUS.ENG.STATE). -/
inductive SynState where
  | off | acquire | locked | holdover
  deriving DecidableEq, Repr

/-- A synthesizer: its state, the source frequency in force as a fraction of hertz, and whether it left its timebase
because that turned OFF (R349). -/
structure SynRun where
  state : SynState
  hz : Nat × Nat
  leftOff : Bool
  deriving DecidableEq, Repr

/-! ### SDI ports (R104 to R126) -/

/-- A format as an SDI receiver detects it. -/
structure SdiFmt where
  struct : Nat
  rate : Nat
  sampling : Nat
  depth : Nat
  link : Nat
  deriving DecidableEq, Repr

/-- What an SDI receiver keeps: the rate it tries, consecutive agreeing frames and what they carry, the format of the last
lock, consecutive errored lines, consecutive frames whose payload differs, the link its payload names (R117), the
audio groups seen in the frame in progress, whether a payload seen in that frame differs from the locked one, and the buffer of a first
frame whose payload differed (R110, R115). -/
structure SdiRxRun where
  groups : Nat
  trying : Nat
  agree : Nat
  seen : Option (Option SdiFmt × Option Nat)
  locked : Option SdiFmt
  errored : Nat
  differ : Nat
  quadLink : Option Nat
  suspect : Bool
  odd : Option Nat
  deriving DecidableEq, Repr

/-- An ancillary packet as it travels (R119, R121): its line, area, data stream and word offset, identifiers and words. -/
structure AncRecord where
  stream : Nat
  line : Nat
  hanc : Bool
  ds : Nat
  offset : Nat
  did : Nat
  sdid : Nat
  words : List Nat
  deriving DecidableEq, Repr

/-- An allocation of the device in the device region of HBM (R400). -/
structure Alloc where
  owner : Nat × Nat
  base : Nat
  size : Nat
  deriving DecidableEq, Repr

/-! ### Faults (R323) -/

/-- A record of the FLT log. -/
structure FltRecord where
  seq : Nat
  cls : Nat
  resp : Nat
  attr : Nat
  region : Nat
  index : Nat
  detail : Nat
  timeNs : Nat
  frame : Nat
  line : Nat
  deriving DecidableEq, Repr

/-! ### Output seals (R306, R308) -/

/-- The output seal of a line: flow, line and frame, the link or the packet that it covers, its value so far, LOCAL, and whether
this twin excuses it (R310). -/
structure OutSeal where
  flow : Nat
  line : Nat
  frame : Nat
  part : Nat
  value : Nat
  isLocal : Bool
  waived : Bool
  deriving DecidableEq, Repr

/-! ### Power admission (R344 to R347) -/

/-- The heavy operation a power request is for (R345). -/
inductive Purpose where
  | slice | compositor | hbm | lane (n : Nat) | eye (n : Nat) | press | fabric | puf
  deriving DecidableEq, Repr

/-- A request in the PAU queue; `waited` is the waiting time banked while its timeout was paused. -/
structure PowerReq where
  page : Nat
  purpose : Purpose
  mw : Nat
  dur : Nat
  core : Bool
  postedNs : Nat
  waited : Nat
  deriving DecidableEq, Repr

/-- A grant held; `steps` are the VDD_CORE ramp steps still to take. -/
structure PowerGrant where
  page : Nat
  purpose : Purpose
  mw : Nat
  dur : Nat
  grantedNs : Nat
  steps : Nat
  deriving DecidableEq, Repr

/-! ### Device (R53, R324 to R327) -/

/-- Firmware state of DEV STATUS.ENG.FW. -/
inductive FwState where
  | missing | verifying | running | bad
  deriving DecidableEq, Repr

/-- HBM state of DEV STATUS.ENG.HBM. -/
inductive HbmState where
  | untrained | training | ready | failed
  deriving DecidableEq, Repr

/-! ### Cave (R328 to R334) -/

/-- An engine's Cave record: written since cold start or the last CLEAR, whether its seal holds, its values. -/
structure CaveRecord where
  written : Bool
  sealOk : Bool
  values : List (Key × Nat)
  deriving DecidableEq, Repr

/-- A batch in a journal slot of the Cave (R331). -/
structure CaveBatch where
  page : Nat
  values : List (Key × Nat)
  deriving DecidableEq, Repr

/-! ### Profiles (R335 to R343) -/

/-- A profile cell: VALID and the length of its image. -/
structure ProfileCell where
  valid : Bool
  bytes : Nat
  deriving DecidableEq, Repr

/-- A profile load in progress: the cell and the image bytes read, or none where the read failed. -/
structure ProfileLoadOp where
  cell : Nat
  length : Nat
  image : Option Bytes
  deriving DecidableEq, Repr

/-- A prepared profile: what waits for the switch point (R340, R341). `held` are LIVE writes (page, cell, offset, word),
`flows` the flows to free, `units` the commit units whose commits the profile carries, `saved` what the shadow copies
held before; `done` says that the switch point has passed. -/
structure ProfilePrep where
  handle : Nat
  cell : Nat
  tb : Nat
  corrupt : Bool
  frame : Nat
  held : List (Nat × Nat × Nat × Nat)
  flows : List Nat
  xps : List XpEntry
  units : List (Nat × Nat)
  saved : List (Key × Nat)
  skip : Nat
  refused : Nat
  done : Bool
  deriving DecidableEq, Repr

/-! ### Lanes (R260 to R273) -/

/-- A block that a Gylos lane has to send: its TYPE, FIRST, ENC and 128 payload bytes. -/
structure TxBlock where
  kind : Nat
  first : Bool
  enc : Bool
  payload : Bytes
  deriving DecidableEq, Repr

/-- A DATA or CONTROL block that is held for replay: the number it was first sent under and the last, and the block (R268). -/
structure HeldBlock where
  origin : Nat
  sent : Nat
  block : TxBlock
  deriving DecidableEq, Repr

/-- The transmit side of a Gylos lane: blocks sent so far, the CRC of the last, the run of identical bits at the end of the
stream, the slack, what waits (lane messages, replays, blocks), the last 96 DATA and CONTROL blocks, newest
first, and the number of the newest block no longer held. -/
structure GylTx where
  count : Nat
  crc : Nat
  runBit : Bool
  runLen : Nat
  slack : Nat
  link : List Bytes
  replay : List HeldBlock
  queue : List TxBlock
  held : List HeldBlock
  dropped : Option Nat
  deriving DecidableEq, Repr

/-- A received block that waits for the header behind it: its TYPE, header, payload, and whether it is errored. -/
structure RxBlock where
  kind : Nat
  header : Nat
  payload : Bytes
  bad : Bool
  deriving DecidableEq, Repr

/-- The receive side of a Gylos lane: alignment, consecutive valid headers, the last SEQ, the CRC of the last block as
received, the block that waits, consecutive failures, the replay asked for with how often its SEQ was NAKed and when last, the run of
identical bits at the end of the stream, and when the signal went. -/
structure GylRx where
  aligned : Bool
  streak : Nat
  seq : Nat
  crc : Nat
  prev : Option RxBlock
  fails : Nat
  nak : Option Nat
  naks : Nat
  nakNs : Nat
  runBit : Bool
  runLen : Nat
  violations : Nat
  lostNs : Nat
  deriving DecidableEq, Repr

/-- A Gylos lane. -/
structure GylLane where
  tx : GylTx
  rx : GylRx
  deriving DecidableEq, Repr

/-- The eye scan of a page: its lane, when its grant came, how long a point takes, the grid, and its results by signed phase and
voltage. -/
structure EyeScan where
  lane : Nat
  grantNs : Option Nat
  pointNs : Nat
  phases : List Int
  volts : List Int
  counts : List Nat
  deriving DecidableEq, Repr

/-! ### Audio (R231 to R259) -/

/-- The run of shuffler channels that an enabled audio flow holds (R232). -/
structure AudRun where
  flow : Nat
  egress : Bool
  base : Nat
  count : Nat
  deriving DecidableEq, Repr

/-- What an output channel of the shuffler does beside its route: the route word in effect, whether a ramp runs and a
change is held (R236), its converter channel, and its errors (R242, R244); when an event and a write last changed it; a change of a
take or an event that waits for its raster's switch point (R235); and what the running ramp leaves: when it began, the route
before, and whether that one was silent or went through a converter; when the converter locked last, and at a re-lock the ratio before
(R243). -/
structure RouteRun where
  word : Nat
  ramping : Bool
  held : Bool
  asrc : Option Nat
  rateErr : Bool
  noAsrc : Bool
  eventNs : Option Nat
  writeNs : Option Nat
  waiting : Option Nat
  rampNs : Nat
  oldWord : Nat
  oldMute : Bool
  oldAsrc : Bool
  lockNs : Nat
  oldRatio : Option Nat
  deriving DecidableEq, Repr

/-- The elastic buffer between an egress flow and a source on a foreign clock: since when it runs, the samples that came in since, and the
samples that were dropped, less those repeated (R244). -/
structure Elastic where
  since : Nat
  fed : Nat
  slips : Int
  deriving DecidableEq, Repr

/-- A load of a route set in progress with the entries read, or none where the read failed (R237). -/
structure SetLoadOp where
  set : Nat
  entries : Option (List RouteEntry)
  deriving DecidableEq, Repr

/-- How a channel passes its signal: not at all, once it crosses zero, fading in, freely, until it crosses zero, until it crosses zero
and then fading out, fading out (R248, R253). -/
inductive GateState where
  | shut | opening | fadeIn | open | closing | leaving | fadeOut
  deriving DecidableEq, Repr

/-- A channel's gate: its state, the last sample of its signal, the samples of a fade still to come, and since when it waits. -/
structure Gate where
  state : GateState
  last : Option Nat
  left : Nat
  sinceNs : Nat
  deriving DecidableEq, Repr

/-- States of a serial audio port (STATUS.ENG.STATE). -/
inductive AupState where
  | stopped | armed | starting | running | stopping | holdover | mismatch
  deriving DecidableEq, Repr

/-- A serial audio port: state, missed output frames (R257), consistent frames since a loss (R252), the rate of the last
RATE_CHANGE interrupt and its class (R251), the loop's accumulator, offset, clamp, ticks in lock and ticks clamped
(R259), the last edge of a slave's word clock or the last frame of a master (R250, R252), the last edge out of place with how many agree,
whether a slave that is stopping has lost its clock, since when the measured rate departs from RATE (R252), and up to when the Hoop
is filled from the flow (R256). -/
structure AupRun where
  state : AupState
  edgeNs : Nat
  missed : Nat
  agree : Nat
  glitches : Nat
  rateAt : Nat
  classAt : Nat
  acc : Int
  ofs : Int
  clamped : Bool
  lockTicks : Nat
  clampTicks : Nat
  strayNs : Nat
  lost : Bool
  offSince : Option Nat
  filledNs : Nat
  deriving DecidableEq, Repr

/-! ### Key store (R358 to R382) -/

/-- A key slot (R367): state 0 EMPTY, 1 VALID, 2 ORPHANED; attribute, origin, parent and its generation at the fill, its
own generation, and the key as two shares. -/
structure KeySlot where
  state : Nat
  attr : Nat
  origin : Nat
  parent : Nat
  parentGen : Nat
  gen : Nat
  share : Bytes
  masked : Bytes
  deriving DecidableEq, Repr

/-- The key command that runs (R368): its master, its staged word, its input as copied at GO, its destination. -/
structure KeyOp where
  master : Nat
  op : Nat
  replace : Bool
  attr : Nat
  slot : Nat
  parent : Nat
  newParent : Nat
  input : Option Bytes
  dst : Nat
  deriving DecidableEq, Repr

/-! ### IP ports (R127 to R151) -/

/-- Content that waits in the release buffer of an ALIGNED stream (R135): the instant of its release, its RTP timestamp, its line, byte
offset and bytes (video), its bytes (audio) or its records (ancillary), and whether its frame or field ends with it. -/
structure RelPiece where
  dueNs : Nat
  ts : Nat
  line : Nat
  off : Nat
  bytes : Bytes
  anc : List AncRecord
  last : Bool
  deriving DecidableEq, Repr

/-- A line that its raster has produced for a send slot whose schedule spreads a frame's packets over the frame period (R139): its frame's
number and RTP timestamp, the line, its bytes. -/
structure PacedLine where
  frame : Nat
  stamp : Nat
  line : Nat
  bytes : List Byte
  deriving DecidableEq, Repr

/-- A stream slot of an IP port. Receive: the newest sequence number, the numbers before it that have not come yet, the newest number
on each path, when a packet last came on each, the RTP timestamp of the frame in progress, whether the slot waits for a
frame start, the timestamp at which a commit of a receiving slot applies in a pair (R302), whether ALIGNED is in effect, the
release buffer, and the timestamp of the frame that is being released. Send: the next sequence number, the count behind the last
sample sent of audio, and the lines that a PACE 1 slot has still to send (R139). -/
structure IpSlot where
  newest : Option Nat
  missing : List Nat
  newest1 : Option Nat
  newest2 : Option Nat
  lastNs : Nat
  last1 : Nat
  last2 : Nat
  ts : Option Nat
  waiting : Bool
  target : Option Nat
  aligned : Bool
  buffer : List RelPiece
  relTs : Option Nat
  seq : Nat
  nextSample : Nat
  paced : List PacedLine
  deriving DecidableEq, Repr

/-- A PTP client (R144): the last Sync (arrival, t2 less t1, t1), the Delay_Req under way (its number and send time), when the last one
was sent, the latest exchanges, newest first, the number of the next Delay_Req, and the master's addresses. -/
structure PtpClient where
  sync : Option (Nat × Int × Nat)
  req : Option (Nat × Nat)
  reqNs : Option Nat
  delays : List Int
  seq : Nat
  ip : Nat
  mac : Nat
  deriving DecidableEq, Repr

/-- A host frame that waits for transmission (R150). -/
structure TxRecord where
  link : Nat
  tsReq : Bool
  tag : Nat
  bytes : Bytes
  deriving DecidableEq, Repr

/-! ### Conversion slices (R152 to R175) -/

/-- A field of a source as a cell's cadence detection saw it (R162): buffer, whether the second field, the cadence declared with it,
whether an original picture begins with it. -/
structure CellField where
  seq : Nat
  second : Bool
  cadence : Nat
  starts : Bool
  deriving DecidableEq, Repr

/-- An output frame, or a field of one, that a cell without rate conversion forms behind its source's writer (R158, R164): the source's flow
and buffer, the instant of the boundary, whether the second field, the first output line that is still to come. -/
structure CnvJob where
  src : Nat
  seq : Nat
  atNs : Nat
  second : Bool
  next : Nat
  deriving DecidableEq, Repr

/-- A cell of a conversion slice: the buffer it showed last and its last slip (a repeat, and the phase then), whether the next output
boundary is that of a second field, the start of the output frame in progress, whether that frame is a scene cut (R166), the output lines
that it has still to form, since when inputs count (R159), the fields in a row that fit 2:2 and 3:2 and the fields seen (R162), its active
LUTs and those loaded for the next commit, by SEL. -/
structure CnvCell where
  shown : Option Nat
  slip : Option (Bool × Int)
  second : Bool
  frameNs : Nat
  cut : Bool
  job : Option CnvJob
  since : Nat
  fits22 : Nat
  fits32 : Nat
  fields : List CellField
  luts : List (Nat × Bytes)
  next : List (Nat × Bytes)
  deriving DecidableEq, Repr

/-- A LUT load in progress: cell, SEL, and the bytes read, or none where the read failed. -/
structure LutLoad where
  cell : Nat
  sel : Nat
  bytes : Option Bytes
  deriving DecidableEq, Repr

/-! ### Compositors (R176 to R209) -/

/-- A lease on a surface (R195): compositor, cell, native address and bytes. -/
structure Lease where
  cpo : Nat
  cell : Nat
  base : Nat
  size : Nat
  deriving DecidableEq, Repr

/-- What a layer shows in a frame: its settings in the order of its registers, of a V layer the frame it read with its STRUCT, SAMPLING
and DEPTH, and whether L_FILL stands for its content. -/
structure LayerShow where
  cfg : List Nat
  frame : Option (FsBuffer × Nat × Nat × Nat)
  fill : Bool
  deriving DecidableEq, Repr

/-- A layer of a compositor: what it shows, readiness at the last capture instant and the buffer selected then, the buffer
shown last and the last slip of a V layer, whether a commit waits for its flip, the last frame in which its surface or
source was read; readiness and buffer at the capture instant under the settings in force then, for a commit that is refused (R190,
R191); and the bits a frame of a V layer at its last commit (R181). -/
structure LayerRun where
  shows : Option LayerShow
  ready : Bool
  pick : Option Nat
  shown : Option Nat
  slip : Option (Bool × Int)
  flipDue : Bool
  lastRead : Option Nat
  readyNow : Bool
  pickNow : Option Nat
  bits : Nat
  deriving DecidableEq, Repr

/-- A Bezel message that was accepted and waits for its commit point (R201, R203): an image, a state, a key slot with its
generation; `captured` at the capture instant. -/
structure BezMsg where
  kind : Nat
  payload : Bytes
  gen : Nat
  captured : Bool
  deriving DecidableEq, Repr

/-- A Bezel message in verification (R202): its first 32 bytes, the rest, MSG_LEN, the slot's generation at the start. -/
structure BezOp where
  head : Option Bytes
  rest : Option Bytes
  len : Nat
  deriving DecidableEq, Repr

/-- A Bezel cell: the generation of the bound key, the shown image's pixels, what waits and what is verified, frames since
the last accepted message; in a pair, this twin's verified message (none where it failed) and the partner's result (R304). -/
structure BezCell where
  own : Option (Option BezMsg)
  partner : Option Bool
  gen : Nat
  image : Bytes
  waiting : List BezMsg
  op : Option BezOp
  quiet : Nat
  deriving DecidableEq, Repr

/-! ### Fabric ports (R274 to R298) -/

/-- A segment record that waits in a lane's record stream: its bytes still to send, whether its header has yet to begin,
whether it carries a routing header, whether it is in transit. -/
structure FabItem where
  bytes : Bytes
  fresh : Bool
  rte : Bool
  transit : Bool
  deriving DecidableEq, Repr

/-- The block counters accepted on a lane and set: the highest, and those accepted within its window (R296). -/
structure FabWindow where
  high : Option Nat
  seen : List Nat
  deriving DecidableEq, Repr

/-- Delay exchanges of a lane: the next number, the one under way with its t1, the latest results in picoseconds, newest
first, and how many since the lane came UP (R287, R289). -/
structure DelayRun where
  num : Nat
  sent : Option (Nat × Nat)
  results : List Int
  done : Nat
  deriving DecidableEq, Repr

/-- An entry of the FEVT acknowledgement log (R292). -/
structure AckEntry where
  tag : Nat
  code : Nat
  handle : Nat
  deriving DecidableEq, Repr

/-! ### Check-value units and the Press (R383 to R393) -/

/-- A check-value unit: its register, the bytes since INIT, the record in progress, and where a job's next byte lies with
how many are left. -/
structure CvuRun where
  crc : Nat
  bytes : Nat
  record : Bytes
  job : Option (Nat × Nat)
  deriving DecidableEq, Repr

/-- A descriptor in the Press queue: its words and its master. -/
structure PressDesc where
  words : List Nat
  master : Nat
  deriving DecidableEq, Repr

end Sys2Proof.Machine
end

