-- ==== Sys2Proof/Machine/State.lean ====
section
/-! DEFINITION. The state of the block: everything the manual gives the C1640, and the queue of waiting commands. -/

namespace Sys2Proof.Machine

/-- Reasons a command can stop the machine. The manual gives the C1640 no way to stop: every error is an effect on
its state. -/
inductive Fault where
  /-- Raised by no meaning of this model; a reader may take a fault as impossible (safe). -/
  | none
  deriving DecidableEq, Repr

/-- Reasons a command has no meaning here. -/
inductive Refusal where
  /-- Raised by an arm of `exec` whose command has no meaning yet (safe: nothing is proved of it). -/
  | notModelled (mnemonic : String)
  deriving DecidableEq, Repr

set_option maxRecDepth 2048 in
/-- The state of the block. -/
structure State where
  /-- The commands that wait, first in, first out. -/
  pending : List Instr
  /-- Nanoseconds since the rising edge of POR_N. -/
  now : Nat
  /-- The number of the next free value (log entry 3): the model's own counter, no state of the manual. -/
  free : Nat
  /-- The active copies of the register fields; an unlisted field holds its cold value. -/
  regs : List (Key × Nat)
  /-- Shadow copies that differ from the active copy (R33); unlisted: equal to the active copy. -/
  shadow : List (Key × Nat)
  /-- SHADOW writes held while their commit unit is frozen (R35, R73). -/
  staged : List (Key × Nat)
  /-- Commit units by page and unit number (`slot` 0). -/
  units : List (Key × CommitUnit)
  /-- Register words latched for a master by a _LO read (R28): master, page, offset. -/
  latch : List (Key × Nat)
  /-- What the last access of each master got. -/
  reply : Tab Reply
  /-- What went out of the block, newest first. -/
  out : List Out
  /-- The words of the MSI-X table of BAR4 (R26). -/
  msix : Tab Nat
  /-- The MSI-X pending bits (R40). -/
  msixPending : Tab Bool
  /-- The MAP_MODE strap as sampled (R418). -/
  mapMode : Bool
  /-- The TWIN_SIDE strap as sampled (R418). -/
  twinSide : Bool
  /-- THERM_N is asserted (R424). -/
  thermLow : Bool
  /-- EXTEST has taken the balls (R421). -/
  extest : Bool
  /-- The levels of CO_IN[11:0] (R312). -/
  coIn : Nat
  /-- The levels the device drives on CO_OUT[11:0] while it is a lead (R299). -/
  coOut : Nat
  /-- CLASP_HB_OUT (R317). -/
  hbOut : Bool
  /-- RENNET_OUT is high (R254). -/
  rennetOut : Bool
  /-- The 40-bit internal address space in native placement, less the pages; an unlisted byte reads 0. -/
  mem : List Host.Cell
  /-- A REMAP write that waits to take effect (R50). -/
  remapPending : Option Bool
  /-- Device allocations in the device region of HBM (R400). -/
  allocs : List Alloc
  /-- The PCI Express link is up. -/
  pcieUp : Bool
  /-- A control reset is in progress (R53). -/
  controlReset : Bool
  /-- A warm reset is in progress: engines that it resets have not all ended their reset phase (R53). -/
  warmReset : Bool
  /-- ERROR of the management SPI (R419). -/
  spiError : Bool
  /-- Posted SPI writes not yet complete (R419). -/
  spiPending : List (Nat × Nat)
  /-- How many of them hold an entry of the matrix's tracker; the others are held back (R44, R46). -/
  spiIssued : Nat
  /-- DEV STATUS.ENG.FW (R325). -/
  fw : FwState
  /-- A verification that a warm or control reset started (R53). -/
  fwAtReset : Bool
  /-- DEV STATUS.ENG.HBM (R326). -/
  hbm : HbmState
  /-- HBM has been trained since cold start, so a warm reset retrains from stored values (R327). -/
  hbmStored : Bool
  /-- The timebases. -/
  tbs : Tab Timebase
  /-- Pending events, in order of acceptance. -/
  events : List Event
  /-- Schedule slots: generation and latest state (R80). -/
  evSlots : Tab EvSlot
  /-- The done log, oldest first (R81). -/
  doneLog : List Nat
  /-- A handle was discarded since the last read of DONE. -/
  doneOvf : Bool
  /-- Salvo storage; an unlisted salvo is empty (R82). -/
  salvos : Tab (List XpEntry)
  /-- The salvo operation in progress. -/
  salvoOp : Option SalvoOp
  /-- The crosspoint map; an unlisted egress flow is disconnected (R88). -/
  xp : Tab XpEntry
  /-- Entries that egress flows still show until their raster's switch point (R94). -/
  xpOld : Tab XpEntry
  /-- The shadow crosspoint bank (R94 to R96). -/
  bank : List BankCopy
  /-- The TAKE pins. -/
  pins : Tab TakePin
  /-- Vat banks; unlisted ones are as at cold power-up (R101). -/
  vat : Tab VatBank
  /-- Fragments in the Vat by flow, line, and segment and fragment. -/
  frags : List (Key × Fragment)
  /-- What each flow does. -/
  runs : Tab FlowRun
  /-- The FLT log, newest first, at most 1,024 records (R323). -/
  fltLog : List FltRecord
  /-- SEQ of the next record. -/
  fltSeq : Nat
  /-- The PAU queue, head first (R346). -/
  powerQueue : List PowerReq
  /-- Grants held. -/
  grants : List PowerGrant
  /-- The time at which a control reset paused the PAU (R53). -/
  powerPaused : Option Nat
  /-- Cave records by page (R330). -/
  cave : Tab CaveRecord
  /-- Journal slots in use, oldest first (R331). -/
  journal : List CaveBatch
  /-- Pages with a change that found every journal slot busy (R331). -/
  caveWait : List Nat
  /-- Pages that an applied commit or an accepted write leaves to be recorded (R330). -/
  caveDirty : List Nat
  /-- What the kept fields of each page held when they were last recorded or restored: a difference is a change that the
  device made itself (R330). -/
  caveBase : Tab (List (Key × Nat))
  /-- Pages whose table image is CURRENT (R332). -/
  imagesCurrent : List Nat
  /-- The profile cells. -/
  profCells : Tab ProfileCell
  /-- A profile load in progress. -/
  profOp : Option ProfileLoadOp
  /-- Prepared profiles. -/
  profPreps : List ProfilePrep
  /-- The pin selection at the last TB0 boundary; EN_N high is a selection of its own (R338). -/
  pinSel : Option (Option Nat)
  /-- The last qualified pin selection. -/
  pinQual : Option (Option Nat)
  /-- A pin request to try again at the next boundary (R339). -/
  pinRetry : Option Nat
  /-- Route sets of the shuffler; an unlisted set is empty (R237). -/
  routeSets : Tab (List RouteEntry)
  /-- The output rasters by page and cell (`slot` 0). -/
  rasters : List (Key × Raster)
  /-- Shuffler channel runs that enabled audio flows hold (R232). -/
  audRuns : List AudRun
  /-- What each output channel of the shuffler does beside its route. -/
  routes : Tab RouteRun
  /-- The elastic buffers of routes that pass a foreign clock without a converter, by egress and ingress flow (R244). -/
  elastic : List (Key × Elastic)
  /-- The instant up to which each SDI transmitter has embedded the samples of its audio flow (R246). -/
  embedNs : Tab Nat
  /-- A route-set load in progress. -/
  setOp : Option SetLoadOp
  /-- Shuffler banks that have faulted. -/
  ashFaulted : List Nat
  /-- Gates of audio channels: page, channel, cell in `slot`. -/
  gates : List (Key × Gate)
  /-- Slot masks that stay in force until the next switch line (R248): groups in `slot` 0, ACT bits in `slot` 1. -/
  groupTail : List (Key × Nat)
  /-- The last data block number of each embedded group, by transmitter and group (R248). -/
  audioBlocks : Tab Nat
  /-- The serial audio ports. -/
  aups : Tab AupRun
  /-- Instants of Rennets whose pulse has not ended (R254). -/
  rennets : List Nat
  /-- The samples of each input channel of the shuffler, newest first: when each falls, and its value, none where it is missing
  (R241). -/
  inputs : Tab (List (Nat × Option Nat))
  /-- The synthesizers. -/
  syns : Tab SynRun
  /-- The delay an output has reached (R355), by page and output. -/
  synDelay : List (Key × Nat)
  /-- The SDI receivers. -/
  sdiRx : Tab SdiRxRun
  /-- The lead of the quad-link group that a running receiver is bound to (R116). -/
  rxBound : Tab Nat
  /-- The lead of the quad-link group that a running transmitter is bound to (R116). -/
  txBound : Tab Nat
  /-- Transmitters whose clock is bad and reported (R125). -/
  txClockBad : List Nat
  /-- Ancillary packets that wait at a transmitter (R121), in order of arrival. -/
  ancQueue : Tab (List AncRecord)
  /-- The Gylos lanes by page and lane. -/
  gyls : List (Key × GylLane)
  /-- The latest eye scan of each page. -/
  eyes : Tab EyeScan
  /-- The 128 key slots (R367). -/
  keySlots : Tab KeySlot
  /-- The raw response of the PUF is held (R358). -/
  pufHeld : Bool
  /-- The PUF secret. -/
  pufSecret : Option Bytes
  /-- The key command that runs. -/
  keyOp : Option KeyOp
  /-- A health test of the DRBG has failed (R369). -/
  rngFailed : Bool
  /-- Copies set of each life-cycle fuse word: INTENT of PRODUCTION and RETURNED, DONE of both (R376). -/
  fuses : Tab Nat
  /-- The life-cycle transition in progress (R377). -/
  lcTarget : Option Nat
  /-- The SHA-256 of the verified firmware image (R381). -/
  fwHash : Bytes
  /-- The stream slots of the IP ports by page and cell (`slot` 0). -/
  ipSlots : List (Key × IpSlot)
  /-- Enabled MACsec associations by page and cell: the generation of their key slot (R373). -/
  saGen : List (Key × Nat)
  /-- The PTP clients by page and link. -/
  ptp : List (Key × PtpClient)
  /-- Host receive queues by port: records of words, oldest first (R149). -/
  rxq : Tab (List (List Nat))
  /-- The transmit record being built at each port (R150). -/
  txBuild : Tab (List Nat)
  /-- Host transmit queues by port. -/
  txq : Tab (List TxRecord)
  /-- The cells of the conversion slices by page and cell (`slot` 0). -/
  cnvCells : List (Key × CnvCell)
  /-- LUT loads in progress by slice. -/
  lutLoads : Tab LutLoad
  /-- The lease table of target T4 (R195). -/
  leases : List Lease
  /-- The layers of the compositors by page and cell (`slot` 0). -/
  layers : List (Key × LayerRun)
  /-- The Bezel cells. -/
  bez : Tab BezCell
  /-- The record streams of fabric lanes by page, lane and block type (`slot`). -/
  fabStreams : List (Key × List FabItem)
  /-- The record streams that a lane receives: by page, lane and block type, what has come of the record begun (R277). -/
  fabParts : List (Key × Bytes)
  /-- Block counters by page, lane and key set (`slot`) (R295). -/
  fabBc : List (Key × Nat)
  /-- Receive windows by page, lane and key set (`slot`) (R296). -/
  fabWindows : List (Key × FabWindow)
  /-- Generation of the slot that a key field of a port names: page, 0 transmit or 1 receive, set (`slot`). -/
  fabGens : List (Key × Nat)
  /-- What a fabric slot uses for the line in progress: port page, slot cell (`slot` 0) (R276). -/
  fabRoutes : List (Key × List Nat)
  /-- When a port's last HELLO arrived (R275). -/
  fabHello : Tab Nat
  /-- Delay exchanges by page and lane (`slot` 0). -/
  fabDelays : List (Key × DelayRun)
  /-- Tags of events that await acknowledgement with the time each was sent, oldest first (R291). -/
  fevtWait : List (Nat × Nat)
  /-- The FEVT acknowledgement log, oldest first (R292). -/
  fevtLog : List AckEntry
  /-- An acknowledgement was discarded since the last read. -/
  fevtOvf : Bool
  /-- Changeovers decided and not yet made: group and side, true for B (R312). -/
  coTarget : Tab Bool
  /-- When the last lane heartbeat came (R317). -/
  hbLaneNs : Nat
  /-- When the last pin heartbeat came. -/
  hbPinNs : Nat
  /-- A RELEASE on the lead waits for a frame boundary (R319). -/
  handOver : Bool
  /-- An accepted join waits for the frame boundary of its snapshot (R315). -/
  joinDue : Bool
  /-- The instant of a promotion: the send slots of a lead send from the frames that begin then (R318). -/
  sendFrom : Nat
  /-- The boundary at which a lead handed over: its send slots end the frames that began before it (R319). -/
  sendUntil : Nat
  /-- When what a rule times began: by page, index, and what is timed in `slot` (R312, R315, R346, R347). -/
  timers : List (Key × Nat)
  /-- A seal mismatch fell in the comparison of a join since its last restart (R315). -/
  compareBad : Bool
  /-- The latest output seals, newest first (R306). -/
  seals : List OutSeal
  /-- When a local check last touched a flow, from 4,096 on a page, or from 8,192 on a clock domain (R307). -/
  touched : Tab Nat
  /-- When something last excused lines of a flow or a page from the comparison of seals, numbered by `waiveKey` (R310). -/
  waives : Tab Nat
  /-- Output flows with their first frame since their engine was reset and the instant of its latest seal (R310). -/
  sealFirst : Tab (Nat × Nat)
  /-- Output flows with the frame in which a seal mismatch was last recorded (R309). -/
  sealRecords : List (Nat × Nat)
  /-- What the lead decided for a page's cell (`slot` 0), taken by a shadow (R305). -/
  decisions : List (Key × List Nat)
  /-- Mirrored messages that wait: for the join image, for the end of a control reset (R315, R320). -/
  mirrorHeld : List MirrorMsg
  /-- The check-value units. -/
  cvus : Tab CvuRun
  /-- The Press queue, oldest first (R387). -/
  pressQueue : List PressDesc
  /-- Completion records of the Press by words, oldest first (R390). -/
  pressDone : List (List Nat)
  /-- A completion record was discarded since the last read. -/
  pressOvf : Bool
  /-- A Press job runs. -/
  pressJob : Bool
  /-- Channels and addresses that have shown a multi-bit error (R403). -/
  hbmUe : List (Nat × Nat)
  /-- Pages that wait for HBM to restore from their table image (R333). -/
  hbmRestore : List Nat
  /-- Entries of a table image that fail their seal, by page and entry (R333). -/
  imageBad : List (Nat × Nat)
  /-- Lanes, by page and lane, that resume after a warm reset with the settings they had (R327). -/
  laneResume : List (Nat × Nat)
  /-- Pipeline cells that have faulted, by slice and cell (R175). -/
  cnvFaulted : List (Nat × Nat)
  deriving DecidableEq, Repr

/-- The block right after the rising edge of POR_N of a cold reset, straps low, no command waiting (R324). -/
def State.reset : State where
  pending := []
  now := 0
  free := 0
  regs := []
  shadow := []
  staged := []
  units := []
  latch := []
  reply := []
  out := []
  msix := []
  msixPending := []
  mapMode := false
  twinSide := false
  thermLow := false
  extest := false
  coIn := 0
  coOut := 0
  hbOut := false
  rennetOut := false
  mem := []
  remapPending := none
  allocs := []
  pcieUp := false
  controlReset := false
  warmReset := false
  spiError := false
  spiPending := []
  spiIssued := 0
  fw := FwState.missing
  fwAtReset := false
  hbm := HbmState.untrained
  hbmStored := false
  tbs := []
  events := []
  evSlots := []
  doneLog := []
  doneOvf := false
  salvos := []
  salvoOp := none
  xp := []
  xpOld := []
  bank := []
  pins := []
  vat := []
  frags := []
  runs := []
  fltLog := []
  fltSeq := 0
  powerQueue := []
  grants := []
  powerPaused := none
  cave := []
  journal := []
  caveWait := []
  caveDirty := []
  caveBase := []
  imagesCurrent := []
  profCells := []
  profOp := none
  profPreps := []
  pinSel := none
  pinQual := none
  pinRetry := none
  routeSets := []
  rasters := []
  audRuns := []
  routes := []
  elastic := []
  embedNs := []
  setOp := none
  ashFaulted := []
  gates := []
  groupTail := []
  audioBlocks := []
  aups := []
  rennets := []
  inputs := []
  syns := []
  synDelay := []
  sdiRx := []
  rxBound := []
  txBound := []
  txClockBad := []
  ancQueue := []
  gyls := []
  eyes := []
  keySlots := []
  pufHeld := true
  pufSecret := none
  keyOp := none
  rngFailed := false
  fuses := []
  lcTarget := none
  fwHash := []
  ipSlots := []
  saGen := []
  ptp := []
  rxq := []
  txBuild := []
  txq := []
  cnvCells := []
  lutLoads := []
  leases := []
  layers := []
  bez := []
  fabStreams := []
  fabParts := []
  fabBc := []
  fabWindows := []
  fabGens := []
  fabRoutes := []
  fabHello := []
  fabDelays := []
  fevtWait := []
  fevtLog := []
  fevtOvf := false
  coTarget := []
  hbLaneNs := 0
  hbPinNs := 0
  handOver := false
  joinDue := false
  sendFrom := 0
  sendUntil := 0
  timers := []
  compareBad := false
  seals := []
  touched := []
  waives := []
  sealFirst := []
  sealRecords := []
  decisions := []
  mirrorHeld := []
  cvus := []
  pressQueue := []
  pressDone := []
  pressOvf := false
  pressJob := false
  hbmUe := []
  hbmRestore := []
  imageBad := []
  laneResume := []
  cnvFaulted := []

end Sys2Proof.Machine
end

