-- ==== Sys2Proof/Machine/Operands.lean ====
section
/-! DEFINITION. Operand forms: formats and their rasters (R59), the words of an event (R75), the crosspoint entry
(R88), page positions (R394), bit-field and byte-order helpers. -/

namespace Sys2Proof.Machine

/-! ### Bits and bytes -/

/-- Bits [lo + n - 1 : lo] of a number. -/
def bits (w lo n : Nat) : Nat := w / 2 ^ lo % 2 ^ n

/-- Bit n of a number. -/
def bit (w n : Nat) : Bool := w.testBit n

/-- A number with bit n set. -/
def withBit (w n : Nat) : Nat := w ||| 2 ^ n

/-- A number with bit n clear. -/
def withoutBit (w n : Nat) : Nat := if w.testBit n then w - 2 ^ n else w

/-- A two's-complement field of n bits as an integer. -/
def signedOf (n w : Nat) : Int := if w < 2 ^ (n - 1) then w else (w : Int) - 2 ^ n

/-- An integer as a two's-complement field of n bits, saturating. -/
def saturate (n : Nat) (i : Int) : Nat :=
  let hi : Int := 2 ^ (n - 1) - 1
  let lo : Int := -(2 ^ (n - 1))
  let c := if i > hi then hi else if i < lo then lo else i
  (c % (2 ^ n)).toNat

/-- A number held to the largest that a field of n bits shows. -/
def satNat (n v : Nat) : Nat := if v < 2 ^ n then v else 2 ^ n - 1

/-- A Boolean as a field value. -/
def ofBool (b : Bool) : Nat := if b then 1 else 0

/-- Little-endian value of bytes (R335, R88). -/
def leValue : Bytes → Nat
  | [] => 0
  | b :: t => b.toNat + 256 * leValue t

/-- Little-endian bytes of a value. -/
def leBytes : Nat → Nat → Bytes
  | 0, _ => []
  | n + 1, v => BitVec.ofNat 8 v :: leBytes n (v / 256)

/-- Big-endian value of bytes. -/
def beValue (l : Bytes) : Nat := l.foldl (fun acc b => acc * 256 + b.toNat) 0

/-- Big-endian bytes of a value. -/
def beBytes (n v : Nat) : Bytes := (leBytes n v).reverse

/-! ### Formats (R59; the samples of a line are those of the raster standards, log entry 8) -/

/-- Lines per frame of STRUCT. -/
def fmtLines : Nat → Nat
  | 0 => 1125 | 1 => 1125 | 2 => 750 | 3 => 625 | 4 => 525 | 5 => 2250 | 6 => 4500
  | _ => 0

/-- Numerator of the frame rate of RATE. -/
def rateNum : Nat → Nat
  | 0 => 24000 | 1 => 24 | 2 => 25 | 3 => 30000 | 4 => 30 | 5 => 50 | 6 => 60000 | 7 => 60 | 8 => 100 | 9 => 120000
  | 10 => 120
  | _ => 1

/-- Denominator of the frame rate of RATE. -/
def rateDen : Nat → Nat
  | 0 => 1001 | 3 => 1001 | 6 => 1001 | 9 => 1001
  | _ => 1

/-- Is the rate one of the 1.001 rates (R58)? -/
def rateFraction (r : Nat) : Bool := rateDen r = 1001

/-- Sample periods per line of the 1125-line rasters by RATE. -/
def hdSamples : Nat → Nat
  | 0 => 2750 | 1 => 2750 | 2 => 2640 | 5 => 2640 | 8 => 2640
  | _ => 2200

/-- Sample periods per line of a format (R6: blanking included). -/
def fmtSamples (struct rate : Nat) : Nat :=
  match struct with
  | 0 => hdSamples rate
  | 1 => hdSamples rate
  | 2 => if rate = 5 then 1980 else 1650
  | 3 => 864
  | 4 => 858
  | 5 => 2 * hdSamples rate
  | 6 => 4 * hdSamples rate
  | _ => 1

/-- The STRUCT and RATE pairs of R59. -/
def fmtLegal (struct rate : Nat) : Bool :=
  match struct with
  | 0 => decide (rate ≤ 10)
  | 1 => decide (2 ≤ rate ∧ rate ≤ 4)
  | 2 => decide (5 ≤ rate ∧ rate ≤ 7)
  | 3 => decide (rate = 2)
  | 4 => decide (rate = 3)
  | 5 => decide (rate ≤ 7)
  | 6 => decide (rate ≤ 7)
  | _ => false

/-- The switch lines of STRUCT (R59). -/
def switchLines : Nat → List Nat
  | 0 => [7] | 1 => [7, 569] | 2 => [7] | 3 => [6, 319] | 4 => [10, 273] | 5 => [7] | 6 => [7]
  | _ => []

/-- Is the raster interlaced? -/
def fmtInterlaced (struct : Nat) : Bool := struct = 1 || struct = 3 || struct = 4

/-- Active samples of a line. -/
def fmtWidth : Nat → Nat
  | 0 => 1920 | 1 => 1920 | 2 => 1280 | 3 => 720 | 4 => 720 | 5 => 3840 | 6 => 7680
  | _ => 0

/-- Active lines of a frame. -/
def fmtHeight : Nat → Nat
  | 0 => 1080 | 1 => 1080 | 2 => 720 | 3 => 576 | 4 => 486 | 5 => 2160 | 6 => 4320
  | _ => 0

/-- First active lines of each field or frame (log entry 8). -/
def fmtFirstActive : Nat → List Nat
  | 0 => [42] | 1 => [21, 584] | 2 => [26] | 3 => [23, 336] | 4 => [21, 283] | 5 => [83] | 6 => [165]
  | _ => [1]

/-- Active lines of one field (the frame where progressive). -/
def fmtFieldHeight (struct : Nat) : Nat :=
  if fmtInterlaced struct then fmtHeight struct / 2 else fmtHeight struct

/-- Is a line an active line of the format? -/
def fmtActive (struct line : Nat) : Bool :=
  (fmtFirstActive struct).any fun a => decide (a ≤ line ∧ line < a + fmtFieldHeight struct)

/-- The last active line of a frame. -/
def fmtLastActive (struct : Nat) : Nat :=
  (fmtFirstActive struct).foldl (fun m a => max m (a + fmtFieldHeight struct - 1)) 0

/-- Samples of a whole frame. -/
def fmtFrameSamples (struct rate : Nat) : Nat := fmtLines struct * fmtSamples struct rate

/-- Samples per second, times the denominator of the rate. -/
def fmtClock (struct rate : Nat) : Nat := fmtFrameSamples struct rate * rateNum rate

/-- Samples of a format that pass in so many nanoseconds, whole samples. -/
def samplesIn (struct rate ns : Nat) : Nat := ns * fmtClock struct rate / (rateDen rate * 1000000000)

/-- The count of samples of a format that is nearest to a time in nanoseconds. -/
def samplesNear (struct rate ns : Nat) : Nat :=
  (2 * ns * fmtClock struct rate + rateDen rate * 1000000000) / (2 * rateDen rate * 1000000000)

/-- Nanoseconds that so many samples last, rounded down. -/
def nsOf (struct rate samples : Nat) : Nat := samples * rateDen rate * 1000000000 / fmtClock struct rate

/-- Nanoseconds of two line periods (R57, R93). -/
def twoLinesNs (struct rate : Nat) : Nat := nsOf struct rate (2 * fmtSamples struct rate)

/-! ### Page positions (R15, R394) -/

/-- Page index of TB[k]. -/
abbrev pgTb (k : Nat) : Nat := 0x010 + k
/-- Page index of SYN[n]. -/
abbrev pgSyn (n : Nat) : Nat := 0x018 + n
/-- Page index of CVU[n]. -/
abbrev pgCvu (n : Nat) : Nat := 0x030 + n
/-- Page index of SDIRX[n]. -/
abbrev pgSdirx (n : Nat) : Nat := 0x080 + n
/-- Page index of SDITX[n]. -/
abbrev pgSditx (n : Nat) : Nat := 0x0E0 + n
/-- Page index of IPP[n]. -/
abbrev pgIpp (n : Nat) : Nat := 0x140 + n
/-- Page index of FAB[n]. -/
abbrev pgFab (n : Nat) : Nat := 0x150 + n
/-- Page index of CNV[n]. -/
abbrev pgCnv (n : Nat) : Nat := 0x170 + n
/-- Page index of CPO[n]. -/
abbrev pgCpo (n : Nat) : Nat := 0x180 + n
/-- Page index of ASRC[n]. -/
abbrev pgAsrc (n : Nat) : Nat := 0x1B1 + n
/-- Page index of AUP[n]. -/
abbrev pgAup (n : Nat) : Nat := 0x1C0 + n
abbrev pgDev : Nat := 0x000
abbrev pgPau : Nat := 0x001
abbrev pgCave : Nat := 0x002
abbrev pgProf : Nat := 0x003
abbrev pgClasp : Nat := 0x004
abbrev pgFlt : Nat := 0x005
abbrev pgMtx : Nat := 0x008
abbrev pgHkc : Nat := 0x00C
abbrev pgDma : Nat := 0x00D
abbrev pgSched : Nat := 0x014
abbrev pgKey : Nat := 0x028
abbrev pgBez : Nat := 0x029
abbrev pgPress : Nat := 0x040
abbrev pgCore : Nat := 0x160
abbrev pgFlow : Nat := 0x161
abbrev pgAsh : Nat := 0x1B0

/-- The rows of R394: first page, number of pages, TYPE, and whether the pages are subpages of one engine. -/
def pageRanges : List (Nat × Nat × Nat × Bool) :=
  [(0x000, 1, 0x001, false), (0x001, 1, 0x002, false), (0x002, 1, 0x003, false), (0x003, 1, 0x004, false),
   (0x004, 1, 0x005, false), (0x005, 1, 0x006, false), (0x008, 4, 0x010, true), (0x00C, 1, 0x011, false),
   (0x00D, 1, 0x012, false), (0x010, 4, 0x020, false), (0x014, 1, 0x021, false), (0x018, 16, 0x022, false),
   (0x028, 1, 0x030, false), (0x029, 1, 0x031, false), (0x030, 16, 0x032, false), (0x040, 1, 0x033, false),
   (0x080, 96, 0x040, false), (0x0E0, 96, 0x041, false), (0x140, 8, 0x042, false), (0x150, 16, 0x043, false),
   (0x160, 1, 0x050, false), (0x161, 1, 0x051, false), (0x170, 16, 0x060, false), (0x180, 16, 0x061, false),
   (0x1B0, 1, 0x070, false), (0x1B1, 4, 0x071, false), (0x1C0, 32, 0x072, false)]

/-- The row of R394 that a page index falls in. -/
def pageRow (p : Nat) : Option (Nat × Nat × Nat × Bool) :=
  pageRanges.find? fun r => decide (r.1 ≤ p ∧ p < r.1 + r.2.1)

/-- TYPE of a page; 0 for a reserved page (R396). -/
def pageType (p : Nat) : Nat :=
  match pageRow p with
  | some r => r.2.2.1
  | none => 0

/-- Is the page populated? -/
def populated (p : Nat) : Bool := (pageRow p).isSome

/-- The engine's first page: the header registers it shares live there (R29). -/
def home (p : Nat) : Nat := if 0x008 ≤ p ∧ p ≤ 0x00B then 0x008 else p

/-- PAGE_ID of a page (R394). -/
def pageId (p : Nat) : Nat :=
  match pageRow p with
  | some (first, _, ty, sub) => ty * 2 ^ 20 + (if sub then (p - first) * 2 ^ 16 else p - first)
  | none => 0

/-- The engine pages: from 0x010 upward (R55). -/
def enginePages : List Nat :=
  (pageRanges.filter fun r => decide (0x010 ≤ r.1)).flatMap fun r => (List.range r.2.1).map (r.1 + ·)

/-- The register fields of a page beside its header. -/
def pageFields (p : Nat) : List Field :=
  if p = pgMtx then F.mtxCfgFields
  else if p = 0x009 then F.mtxMstFields
  else if p = 0x00A then F.mtxTgtFields
  else match pageType p with
    | 0x001 => F.devFields
    | 0x002 => F.pauFields
    | 0x003 => F.caveFields
    | 0x004 => F.profFields
    | 0x005 => F.claspFields ++ F.laneFields
    | 0x006 => F.fltFields
    | 0x020 => F.tbFields
    | 0x021 => F.schedFields
    | 0x022 => F.synFields
    | 0x030 => F.keyFields
    | 0x031 => F.bezFields
    | 0x032 => F.cvuFields
    | 0x033 => F.pressFields
    | 0x040 => F.sdirxFields ++ F.laneFields
    | 0x041 => F.sditxFields ++ F.rstFields ++ F.laneFields
    | 0x042 => F.ippFields ++ F.rstFields ++ F.laneFields
    | 0x043 => F.fabFields ++ F.laneFields
    | 0x050 => F.coreFields
    | 0x051 => F.flowwinFields
    | 0x060 => F.cnvFields
    | 0x061 => F.cpoFields ++ F.rstFields
    | 0x070 => F.ashFields
    | 0x071 => F.asrcFields
    | 0x072 => F.aupFields
    | _ => []

/-- The fields of one register word of a page. -/
def fieldsAt (p off : Nat) : List Field :=
  if off < 0x040 then F.hdrFields.filter fun f => f.off = off
  else (pageFields p).filter fun f => f.off = off

/-- The field that lies at a slot of a page. -/
def fieldAtSlot (p slot : Nat) : Option Field :=
  (F.hdrFields ++ pageFields p).find? fun f => f.slot = slot

/-! ### Crosspoint entries (R88) -/

/-- The entry a 64-bit word holds. -/
def xpDecode (w : Nat) : XpEntry :=
  { egress := bits w 52 12, source := bits w 40 12, disconnect := bit w 39, audioFollow := bit w 38
    forceFs := bit w 37, policySet := bit w 36, policy := bits w 34 2 }

/-- The 64-bit word of an entry, reserved bits 0. -/
def xpEncode (e : XpEntry) : Nat :=
  e.egress * 2 ^ 52 + e.source * 2 ^ 40 + ofBool e.disconnect * 2 ^ 39 + ofBool e.audioFollow * 2 ^ 38 +
    ofBool e.forceFs * 2 ^ 37 + ofBool e.policySet * 2 ^ 36 + e.policy * 2 ^ 34

/-- The entry of an egress flow that is disconnected. -/
def xpDisconnect (f : Nat) : XpEntry :=
  { egress := f, source := 0, disconnect := true, audioFollow := false, forceFs := false, policySet := false
    policy := 0 }

/-- The first n entries of a byte string, 8 bytes each. -/
def xpEntries : Nat → Bytes → List XpEntry
  | 0, _ => []
  | n + 1, l => xpDecode (leValue (l.take 8)) :: xpEntries n (l.drop 8)

/-! ### Event words (R75) -/

/-- KIND codes (R76). -/
def evKindOf : Nat → Option EvKind
  | 1 => some .take | 2 => some .pageCommit | 3 => some .layerCommit | 4 => some .profile | 5 => some .audioRoute
  | 6 => some .rennet | 7 => some .notify
  | _ => none

/-- The order of R79 among kinds that apply at a switch point. -/
def evRank : EvKind → Nat
  | .profile => 0 | .pageCommit => 1 | .layerCommit => 1 | .take => 2 | .audioRoute => 3 | .rennet => 4 | .notify => 4

end Sys2Proof.Machine
end

