-- ==== Sys2Proof/Machine/Crc.lean ====
section
/-! DEFINITION. Check values and line coding over bytes: CRCs of any width (R184, R381), Adler-32, the Gylos scrambler and
stuffing (R262 to R264). -/

namespace Sys2Proof.Machine

/-! ### CRC-32C (R184) -/

/-- One bit of the reflected CRC-32C. -/
def crc32cBit (c : Nat) : Nat := if c % 2 = 1 then (c / 2) ^^^ 0x82F63B78 else c / 2

/-- One byte of the CRC-32C register. -/
def crc32cByte (c : Nat) (b : Byte) : Nat :=
  crc32cBit (crc32cBit (crc32cBit (crc32cBit (crc32cBit (crc32cBit (crc32cBit (crc32cBit (c ^^^ b.toNat))))))))

/-- CRC-32C of bytes in order. -/
def crc32c (l : Bytes) : Nat := l.foldl crc32cByte 0xFFFFFFFF ^^^ 0xFFFFFFFF

/-! ### A CRC of any width -/

/-- Reverse the lowest n bits of a number. -/
def reverseBits : Nat → Nat → Nat
  | 0, _ => 0
  | n + 1, v => v % 2 * 2 ^ n + reverseBits n (v / 2)

/-- One bit into a CRC register of a width, most significant bit first. -/
def crcShift (width poly c : Nat) (b : Bool) : Nat :=
  let out := c.testBit (width - 1) != b
  let c' := c * 2 % 2 ^ width
  if out then c' ^^^ poly else c'

/-- The bits of a byte in the order they enter: bit 7 first, or reflected bit 0 first. -/
def byteBits (reflect : Bool) (b : Byte) : List Bool :=
  let l := (List.range 8).map fun n => b.toNat.testBit n
  if reflect then l else l.reverse

/-- Bytes into a CRC register. -/
def crcBytes (width poly : Nat) (reflect : Bool) (c : Nat) (l : Bytes) : Nat :=
  l.foldl (fun c b => (byteBits reflect b).foldl (crcShift width poly) c) c

/-! ### Adler-32 -/

/-- Adler-32 of bytes. -/
def adler32 (l : Bytes) : Nat :=
  let r := l.foldl (fun (s : Nat × Nat) b =>
    let a := (s.1 + b.toNat) % 65521
    (a, (s.2 + a) % 65521)) (1, 0)
  r.2 * 65536 + r.1

/-! ### The Gylos scrambler (R263) -/

/-- The scrambler state that a block's SEQ loads: 1010110, SEQ, its complement, SEQ. -/
def scramblerSeed (seq : Nat) : Nat := 0x56 * 2 ^ 24 + seq * 2 ^ 16 + (255 - seq) * 2 ^ 8 + seq

/-- One step: the bit that comes out and the next state. -/
def scramblerStep (s : Nat) : Bool × Nat :=
  let o := s.testBit 30 != s.testBit 27
  (o, (s * 2 + ofBool o) % 2 ^ 31)

/-- The next eight bits as a byte, bit 7 first. -/
def scramblerByte : Nat → Nat → Nat → Nat × Nat
  | 0, s, acc => (acc, s)
  | n + 1, s, acc =>
    let (o, s') := scramblerStep s
    scramblerByte n s' (acc * 2 + ofBool o)

/-- Scramble, or descramble, bytes. -/
def scrambleFrom : Nat → Bytes → Bytes
  | _, [] => []
  | s, b :: t =>
    let (k, s') := scramblerByte 8 s 0
    (b ^^^ BitVec.ofNat 8 k) :: scrambleFrom s' t

/-- Scramble the payload of a block. -/
def scramble (seq : Nat) (l : Bytes) : Bytes := scrambleFrom (scramblerSeed seq) l

/-! ### Stuffing (R264) -/

/-- Bits onto a line that ends in a run of identical bits: a bit of the opposite value goes in after every 24, and begins a run. What
goes onto the line, and its run at the end. -/
def stuffed : Bool → Nat → List Bool → List Bool × Bool × Nat
  | v, n, [] => ([], v, n)
  | v, n, b :: t =>
    let m := if b = v ∧ n ≠ 0 then n + 1 else 1
    if m = 24 then
      let r := stuffed (!b) 1 t
      (b :: (!b) :: r.1, r.2)
    else
      let r := stuffed b m t
      (b :: r.1, r.2)

/-- Bits off a line that ends in a run of identical bits: the bit behind every 24 is removed. What is left, whether one removed had not
the opposite value, and the run at the end. -/
def destuffed : Bool → Nat → List Bool → List Bool × Bool × Bool × Nat
  | v, n, [] => ([], false, v, n)
  | v, n, b :: t =>
    if n = 24 then
      let r := destuffed b 1 t
      (r.1, r.2.1 || decide (b = v), r.2.2)
    else
      let r := destuffed b (if b = v ∧ n ≠ 0 then n + 1 else 1) t
      (b :: r.1, r.2)

/-- The bits of bytes, bit 7 first. -/
def serialBits (l : Bytes) : List Bool := l.flatMap (byteBits false)

/-- So many bytes of bits, bit 7 first. -/
def bitBytes : Nat → List Bool → Bytes
  | 0, _ => []
  | n + 1, l => BitVec.ofNat 8 ((l.take 8).foldl (fun v b => v * 2 + ofBool b) 0) :: bitBytes n (l.drop 8)

end Sys2Proof.Machine
end

