-- ==== Sys2Proof/Machine/Pixels.lean ====
section
/-! DEFINITION. Picture lines as bytes: the words of a sampling and a depth, lines of one colour, the signature of a line (R16, R123,
R138, R227). -/

namespace Sys2Proof.Machine

/-! ### Words of a line -/

/-- Words of a pixel, halved samples counted twice: 4:2:2 has 4, 4:4:4 has 6, 4:2:0 has 3 words in two pixels. -/
def samplingWords : Nat → Nat
  | 0 => 4 | 1 => 6 | 2 => 3
  | _ => 4

/-- Bits of a DEPTH code. -/
def depthBits : Nat → Nat
  | 0 => 10 | 1 => 12 | 2 => 8
  | _ => 10

/-- Bytes of a packed line of the active picture. -/
def lineBytes (struct sampling depth : Nat) : Nat := (fmtWidth struct * samplingWords sampling * depthBits depth + 15) / 16

/-- Numbers of w bits each as bytes, most significant first. -/
def packBits (w : Nat) (l : List Nat) : Bytes := beBytes (l.length * w / 8) (l.foldl (fun n x => n * 2 ^ w + x % 2 ^ w) 0)

/-- Bytes as numbers of w bits each, most significant first. -/
def unpackBits (w : Nat) (b : Bytes) : List Nat :=
  let v := beValue b
  let n := 8 * b.length / w
  (List.range n).map fun i => v / 2 ^ (8 * b.length - w * (i + 1)) % 2 ^ w

/-- The picture line of a raster line, and whether it lies in the second field. -/
def rasterPicture (struct line : Nat) : Option (Nat × Bool) :=
  let h := fmtFieldHeight struct
  match fmtFirstActive struct with
  | [a] => if a ≤ line ∧ line < a + h then some (line - a, false) else none
  | [a, b] =>
    if a ≤ line ∧ line < a + h then some (line - a, false) else if b ≤ line ∧ line < b + h then some (line - b, true) else none
  | _ => none

/-! ### Lines of one colour -/

/-- The words of eight pixels of one colour in the order of a packed line: 4:2:2 alternates Cb, Y, Cr, Y, 4:4:4 Cb, Y, Cr; of a
pair of 4:2:0 lines the first carries Cb, the second Cr, two words behind each four of Y (log entry 147). -/
def colourWords (sampling y cb cr : Nat) (second : Bool) : List Nat :=
  let c := if second then cr else cb
  match sampling with
  | 1 => (List.replicate 8 [cb, y, cr]).flatten
  | 2 => [y, y, y, y, c, c, y, y, y, y, c, c]
  | _ => (List.replicate 4 [cb, y, cr, y]).flatten

/-- So many bytes of a line of one colour, given in words of the depth. -/
def colourBytes (sampling depth y cb cr : Nat) (second : Bool) (n : Nat) : Bytes :=
  let g := packBits (depthBits depth) (colourWords sampling y cb cr second)
  ((List.replicate (n / g.length + 1) g).flatten).take n

/-- A ten-bit value scaled to a depth, to the nearest. -/
def scaled (depth v : Nat) : Nat := if depth = 2 then min 255 ((v + 2) / 4) else v * 2 ^ depthBits depth / 1024

/-- So many bytes of black: Y, Cb, Cr at 64, 512, 512 scaled to the depth. -/
def blackBytes (sampling depth n : Nat) : Bytes :=
  colourBytes sampling depth (scaled depth 64) (scaled depth 512) (scaled depth 512) false n

/-- A whole line of a colour given in ten bits, scaled to the depth. -/
def colourLine (struct sampling depth y cb cr : Nat) (second : Bool) : Bytes :=
  colourBytes sampling depth (scaled depth y) (scaled depth cb) (scaled depth cr) second (lineBytes struct sampling depth)

/-- A line of a transmitter's fill colour: the ten-bit words as they are, for 4:4:4 12-bit shifted left by 2 (R123). -/
def fillLine (struct sampling depth y cb cr : Nat) : Bytes :=
  let k := if sampling = 1 ∧ depth = 1 then 4 else 1
  colourBytes sampling depth (k * y) (k * cb) (k * cr) false (lineBytes struct sampling depth)

/-- Bytes of a number of bits held in memory in units of 64 bytes. -/
def inUnits (n : Nat) : Nat := (n + 63) / 64 * 64

/-! ### Signatures (R184, R227) -/

/-- CRC-32C of bytes that follow those of a value. -/
def crcMore (c : Nat) (b : Bytes) : Nat := b.foldl crc32cByte (c ^^^ 0xFFFFFFFF) ^^^ 0xFFFFFFFF

/-- Words right-aligned in 16-bit little-endian words. -/
def wideWords (l : List Nat) : Bytes := l.flatMap (leBytes 2)

/-- A frame's signature so far with the samples of a further line, in the order of its words (R227). -/
def lineSignature (sig depth : Nat) (b : Bytes) : Nat := crcMore sig (wideWords (unpackBits (depthBits depth) b))

end Sys2Proof.Machine
end

