-- ==== Sys2Proof/Machine/Ops.lean ====
section
/-! DEFINITION. The named operations over registers, tables, memory and time. -/

namespace Sys2Proof.Machine

/-! ### Keys -/

/-- A key's place in the order of a table. -/
def Key.code (k : Key) : Nat := Nat.pair k.page (Nat.pair k.cell k.slot)

/-- The key of a field of a cell of a page. -/
def Field.key (f : Field) (p c : Nat) : Key := ⟨p, c, f.slot⟩

/-! ### Register fields -/

/-- Default outstanding limits of the masters (R43). -/
def masterLimit : Nat → Nat
  | 0 => 64 | 1 => 8 | 2 => 32 | 3 => 16 | 4 => 4 | 5 => 32 | 6 => 16 | 7 => 2
  | _ => 0

/-- READY of a page at cold power-up (R326): whether it reads READY and its CAUSE. -/
def coldReady (p : Nat) : Nat × Nat :=
  if p = pgDev ∨ p = pgCave ∨ p = pgFlt ∨ p = pgMtx ∨ p = pgDma then (1, 0)
  else if p = pgPau ∨ p = pgHkc then (0, 4)
  else (0, 2)

/-- The cold value of a field where it depends on the page or the cell. -/
def coldOf (p c : Nat) (f : Field) : Nat :=
  if f = F.hdrReady then (coldReady p).1
  else if f = F.hdrReadyCause then (coldReady p).2
  else if f = F.hdrIntVecVector then p
  else if f = F.mtxMstCtrlLimit ∧ p = 0x009 then masterLimit c
  else if f = F.devDeviceIdGrade ∧ p = pgDev then Config.fusedGrade % 2
  else if f = F.keySerialLoSerial ∧ p = pgKey then Config.fusedSerial % 2 ^ 32
  else if f = F.keySerialHiSerial ∧ p = pgKey then Config.fusedSerial / 2 ^ 32 % 2 ^ 32
  else if f = F.hdrStatusEng ∧ pgCvu 0 ≤ p ∧ p ≤ pgCvu 15 then 1
  else if f = F.synTrim ∧ pgSyn 0 ≤ p ∧ p ≤ pgSyn 15 then Config.fusedTrim % 256
  else if f = F.laneTxEqAmp ∧ pgSdirx 0 ≤ p ∧ p < pgIpp 0 then 60
  else if f = F.laneTxEqPost ∧ pgSdirx 0 ≤ p ∧ p < pgIpp 0 then 0
  else f.cold

/-- The active copy of a field. -/
def State.get (s : State) (p c : Nat) (f : Field) : Nat :=
  (Assoc.find Key.code (f.key p c) s.regs).getD (coldOf p c f)

/-- Write the active copy of a field; bits beyond its width are lost. -/
def State.put (s : State) (p c : Nat) (f : Field) (v : Nat) : State :=
  { s with regs := Assoc.set Key.code (f.key p c) (v % f.modulus) s.regs }

/-- An engine's record is to be rewritten (R330). -/
def State.caveMark (s : State) (p : Nat) : State :=
  if home p ∈ s.caveDirty then s else { s with caveDirty := home p :: s.caveDirty }

/-- A one-bit field as a Boolean. -/
def State.flag (s : State) (p c : Nat) (f : Field) : Bool := decide (s.get p c f = 1)

/-- The shadow copy of a field: what differs from the active copy, else the active copy (R33). -/
def State.getShadow (s : State) (p c : Nat) (f : Field) : Nat :=
  (Assoc.find Key.code (f.key p c) s.shadow).getD (s.get p c f)

/-- The value last written to a field: a staged write, else the shadow copy (R34, R73). -/
def State.getLast (s : State) (p c : Nat) (f : Field) : Nat :=
  (Assoc.find Key.code (f.key p c) s.staged).getD (s.getShadow p c f)

/-- Write the shadow copy alone. -/
def State.putShadow (s : State) (p c : Nat) (f : Field) (v : Nat) : State :=
  { s with shadow := Assoc.set Key.code (f.key p c) (v % f.modulus) s.shadow }

/-- Hold a write in staging (R73). -/
def State.putStaged (s : State) (p c : Nat) (f : Field) (v : Nat) : State :=
  { s with staged := Assoc.set Key.code (f.key p c) (v % f.modulus) s.staged }

/-- Write the active and the shadow copy together: what a stopped engine does (R33). -/
def State.putBoth (s : State) (p c : Nat) (f : Field) (v : Nat) : State :=
  { s.put p c f v with
    shadow := Assoc.erase Key.code (f.key p c) s.shadow
    staged := Assoc.erase Key.code (f.key p c) s.staged }

/-- Add to a counter field that wraps at its width. -/
def State.bump (s : State) (p c : Nat) (f : Field) : State := s.put p c f (s.get p c f + 1)

/-- Add so many to a counter field. -/
def State.bumpBy (s : State) (p c : Nat) (f : Field) (k : Nat) : State := s.put p c f (s.get p c f + k)

/-- Add to a counter field that saturates. -/
def State.bumpSat (s : State) (p c : Nat) (f : Field) : State :=
  s.put p c f (satNat f.width (s.get p c f + 1))

/-- A 40-bit address held in a low and a high field, the low one from its lowest bit. -/
def State.addr40 (s : State) (p c : Nat) (lo hi : Field) : Nat :=
  s.get p c hi * 2 ^ 32 + s.get p c lo * 2 ^ lo.lo

/-- A 48-bit frame number held in a low and a high field. -/
def State.frame48 (s : State) (p c : Nat) (lo hi : Field) : Nat := s.get p c hi * 2 ^ 32 + s.get p c lo

/-- Write a 48-bit frame number to a low and a high field. -/
def State.putFrame48 (s : State) (p c : Nat) (lo hi : Field) (v : Nat) : State :=
  (s.put p c lo (v % 2 ^ 32)).put p c hi (v / 2 ^ 32)

/-! ### Emissions and free values -/

/-- Send something out of the block. -/
def State.emit (s : State) (o : Out) : State := { s with out := o :: s.out }

/-- Draw a value that the manual leaves open (log entry 3). -/
def State.draw (s : State) : Nat × State := (Config.freeNat s.free, { s with free := s.free + 1 })

/-- What a master's access gets. -/
def State.answer (s : State) (m : Nat) (r : Reply) : State := { s with reply := Tab.put m r s.reply }

/-! ### Commit units (R35, R36) -/

/-- No commit captured, nothing frozen. -/
def CommitUnit.idle : CommitUnit := ⟨false, false, none, none, none⟩

/-- A commit unit. -/
def State.unit (s : State) (p u : Nat) : CommitUnit :=
  (Assoc.find Key.code ⟨p, u, 0⟩ s.units).getD CommitUnit.idle

/-- Write a commit unit. -/
def State.putUnit (s : State) (p u : Nat) (x : CommitUnit) : State :=
  { s with units := Assoc.set Key.code ⟨p, u, 0⟩ x s.units }

/-- The commit unit a field belongs to: 0 the header commit; a flow, a layer, a raster or a stream slot of IPP by
its own number (R36, R86, R133, R189, R210); the audio slot masks, which commit at every switch line (R247). -/
def unitOf (p c slot : Nat) : Nat :=
  if p = pgFlow then c + 1
  else if pgSditx 0 ≤ p ∧ p ≤ pgSditx 95 ∧ 0x0A0 * 32 ≤ slot ∧ slot < 0x0A8 * 32 then 0x301
  else if pgIpp 0 ≤ p ∧ p ≤ pgIpp 7 ∧ 0x2C0 * 32 ≤ slot then c + 0x201
  else if pgCpo 0 ≤ p ∧ p ≤ pgCpo 15 ∧ 0x200 * 32 ≤ slot then c + 1
  else if pgIpp 0 ≤ p ∧ p ≤ pgIpp 7 ∧ 0x100 * 32 ≤ slot ∧ slot < 0x180 * 32 then c + 1
  else if pgIpp 0 ≤ p ∧ p ≤ pgIpp 7 ∧ 0x280 * 32 ≤ slot then c + 0x101
  else 0

/-- Does a key belong to a commit unit? -/
def inUnit (p u : Nat) (k : Key) : Bool := decide (k.page = p) && decide (unitOf k.page k.cell k.slot = u)

/-- Move the shadow copies of a commit unit to the active copies (R35). -/
def State.applyShadow (s : State) (p u : Nat) : State :=
  { s with
    regs := (s.shadow.filter fun e => inUnit p u e.1).foldl (fun r e => Assoc.set Key.code e.1 e.2 r) s.regs
    shadow := s.shadow.filter fun e => !inUnit p u e.1 }

/-- Staged writes of a commit unit join the shadow copy (R73). -/
def State.unstage (s : State) (p u : Nat) : State :=
  { s with
    shadow := (s.staged.filter fun e => inUnit p u e.1).foldl (fun r e => Assoc.set Key.code e.1 e.2 r) s.shadow
    staged := s.staged.filter fun e => !inUnit p u e.1 }

/-- Drop the shadow copies and staged writes of a page. -/
def State.dropShadow (s : State) (p : Nat) : State :=
  { s with
    shadow := s.shadow.filter fun e => decide (e.1.page ≠ p)
    staged := s.staged.filter fun e => decide (e.1.page ≠ p) }

/-! ### Memory (R45) -/

/-- The byte of memory at an address of the native placement; an unlisted byte reads 0 (log entry 5). -/
def Memory.read (l : List Host.Cell) (a : Nat) : Byte := (Assoc.find id a l).getD 0

/-- Write one byte, keeping the canonical form. -/
def Memory.write (l : List Host.Cell) (a : Nat) (b : Byte) : List Host.Cell :=
  if b = 0 then Assoc.erase id a l else Assoc.set id a b l

/-- The canonical form: addresses strictly rising, no entry equal to what an unlisted address reads as. -/
def Memory.wf (l : List Host.Cell) : Bool := Assoc.sorted id l && l.all fun e => decide (e.2 ≠ 0)

/-- Write bytes from an address upward. -/
def Memory.writeBytes (l : List Host.Cell) (a : Nat) : Bytes → List Host.Cell
  | [] => l
  | b :: t => Memory.writeBytes (Memory.write l a b) (a + 1) t

/-- Read bytes from an address upward. -/
def Memory.readBytes (l : List Host.Cell) (a : Nat) : Nat → Bytes
  | 0 => []
  | n + 1 => Memory.read l a :: Memory.readBytes l (a + 1) n

/-- Write zero bytes over a range. -/
def Memory.clear (l : List Host.Cell) (a n : Nat) : List Host.Cell :=
  l.filter fun e => decide (e.1 < a ∨ a + n ≤ e.1)

/-- The targets of the matrix (R45). -/
inductive Target where
  | rom | sram | cave | profiles | hbm | pages | peripheral | mailbox
  deriving DecidableEq, Repr

/-- The number of a target. -/
def Target.number : Target → Nat
  | .rom => 0 | .sram => 1 | .cave => 2 | .profiles => 3 | .hbm => 4 | .pages => 5 | .peripheral => 6 | .mailbox => 7

/-- Base of T4. -/
abbrev hbmBase : Nat := 0x1000000000
/-- Size of T4: 32 GiB. -/
abbrev hbmSize : Nat := 0x800000000
/-- Base of T3. -/
abbrev profBase : Nat := 0x30000000
/-- Base of T2. -/
abbrev caveBase : Nat := 0x20000000
/-- Base of T7. -/
abbrev mailBase : Nat := 0x60000000

/-- The target of a native address (R45). -/
def targetOf (a : Nat) : Option Target :=
  if a < 0x100000 then some .sram
  else if 0x10000000 ≤ a ∧ a < 0x10010000 then some .rom
  else if 0x20000000 ≤ a ∧ a < 0x20040000 then some .cave
  else if 0x30000000 ≤ a ∧ a < 0x30200000 then some .profiles
  else if 0x40000000 ≤ a ∧ a < 0x41000000 then some .pages
  else if 0x50000000 ≤ a ∧ a < 0x50010000 then some .peripheral
  else if 0x60000000 ≤ a ∧ a < 0x60001000 then some .mailbox
  else if hbmBase ≤ a ∧ a < hbmBase + hbmSize then some .hbm
  else none

/-- REMAP as requests find it: a request to T0 or T1 that arrives while a write of REMAP waits is held, and then decoded
under the new placement (R50). -/
def State.remapNow (s : State) : Bool := s.remapPending.getD (s.flag pgMtx 0 F.mtxCfgRemap)

/-- The native address that an internal address names under MAP_MODE and REMAP (R49). -/
def State.place (s : State) (a : Nat) : Option Nat :=
  if s.mapMode && !s.remapNow then
    if a < 0x10000 then some (0x10000000 + a)
    else if a < 0x100000 then none
    else if 0x10000000 ≤ a ∧ a < 0x10100000 then some (a - 0x10000000)
    else some a
  else some a

/-- Does a target answer now? T4 answers only with HBM ready (R425). -/
def State.targetOpen (s : State) (t : Target) : Bool :=
  match t with
  | .hbm => decide (s.hbm = .ready)
  | _ => true

/-- One byte read by a master: none where the access ends with an error. -/
def State.readByte (s : State) (a : Nat) : Option Byte :=
  match s.place a with
  | none => none
  | some n =>
    match targetOf n with
    | none => none
    | some .rom => some (Config.romByte (n - 0x10000000))
    | some .peripheral => some (Config.peripheralByte (n - 0x50000000))
    | some .pages => none
    | some .mailbox => none
    | some t => if s.targetOpen t then some (Memory.read s.mem n) else none

/-- Bytes read by a master: none where any access ends with an error. -/
def State.readBytes (s : State) (a : Nat) : Nat → Option Bytes
  | 0 => some []
  | n + 1 =>
    match s.readByte a, s.readBytes (a + 1) n with
    | some b, some t => some (b :: t)
    | _, _ => none

/-- Does every byte of a range take a write of an engine? -/
def State.writable (s : State) (a : Nat) : Nat → Bool
  | 0 => true
  | n + 1 =>
    (match s.place a with
     | some k => match targetOf k with
       | some .sram => true
       | some .hbm => s.targetOpen .hbm
       | _ => false
     | none => false) && s.writable (a + 1) n

/-! ### Time -/

/-- A timebase that is OFF and has run nothing. -/
def Timebase.cold : Timebase :=
  { state := .off, startNs := 0, frame := 0, struct := 0, rate := 5, agree := 0, offRun := [], badFrames := 0
    lastSync := none, heard := none, phaseErr := 0, freqOfs := 0, ppt := 0, rateFrom := 0, lockNs := 0, lockSum := 0, history := []
    slewErr := 0, slewFrom := 0, slewPpm := 50, jumpEnd := none, jumpErr := 0, jumped := false, beaconDepth := 0, resumed := false, epoch := none, rind := none }

/-- TB[k]. -/
def State.tb (s : State) (k : Nat) : Timebase := Tab.at Timebase.cold s.tbs k

/-- Write TB[k]. -/
def State.putTb (s : State) (k : Nat) (t : Timebase) : State := { s with tbs := Tab.put k t s.tbs }

/-- Samples of a slew corrected so far, signed as the error: PHASE_SLEW of the samples that have passed (R67). -/
def Timebase.slewed (t : Timebase) (now : Nat) : Int :=
  let g : Int := min t.slewErr.natAbs (samplesIn t.struct t.rate (now - t.slewFrom) * t.slewPpm / 1000000)
  if t.slewErr < 0 then -g else g

/-- Parts of a rate offset, 10^12 (R64). -/
abbrev pptScale : Int := 1000000000000

/-- Samples that the count has gained on the nominal rate since `rateFrom` (R64). -/
def Timebase.gained (t : Timebase) (now : Nat) : Int :=
  t.ppt * samplesIn t.struct t.rate (now - t.rateFrom) / pptScale

/-- Samples since the frame in progress began, at the current rate and less what a slew has corrected. -/
def Timebase.count (t : Timebase) (now : Nat) : Int :=
  (samplesIn t.struct t.rate (now - t.startNs) : Int) + t.gained now - t.slewed now

/-- A span of samples in nanoseconds, signed. -/
def Timebase.spanNs (t : Timebase) (e : Int) : Int :=
  let n : Int := nsOf t.struct t.rate e.natAbs
  if e < 0 then -n else n

/-- Move the count later by a span of samples, the end of a jump with it. -/
def Timebase.delay (t : Timebase) (e : Int) : Timebase :=
  { t with startNs := (t.startNs + t.spanNs e).toNat, jumpEnd := t.jumpEnd.map fun n => (n + t.spanNs e).toNat }

/-- The count with what a slew has corrected and what the rate has gained so far taken into it. -/
def Timebase.settle (t : Timebase) (now : Nat) : Timebase :=
  let c := t.slewed now
  { t.delay (c - t.gained now) with slewErr := t.slewErr - c, slewFrom := now, rateFrom := now }

/-- Samples of the frame in progress that have passed, held to the frame. -/
def Timebase.pos (t : Timebase) (now : Nat) : Nat :=
  min (t.count now).toNat (fmtFrameSamples t.struct t.rate - 1)

/-- The current line of a timebase (R60). -/
def Timebase.line (t : Timebase) (now : Nat) : Nat := t.pos now / fmtSamples t.struct t.rate + 1

/-- The current sample of a timebase. -/
def Timebase.sample (t : Timebase) (now : Nat) : Nat := t.pos now % fmtSamples t.struct t.rate

/-- Is the point (frame, line, sample) of a timebase no longer more than `lead` nanoseconds ahead (R76: at the
deadline itself is late)? -/
def Timebase.late (t0 : Timebase) (now frame line sample lead : Nat) : Bool :=
  let t := t0.settle now
  if frame < t.frame then true
  else
    let point := (frame - t.frame) * fmtFrameSamples t.struct t.rate +
      (line - 1) * fmtSamples t.struct t.rate + sample
    decide (point * (rateDen t.rate * 1000000000) ≤ (now - t.startNs + lead) * fmtClock t.struct t.rate)

end Sys2Proof.Machine
end

