-- ==== Sys2Proof/Machine/Flags.lean ====
section
/-! DEFINITION. Every status and flag computation of the common header: ERR, INT_STAT, MSI-X, READY, FAULT and the
FLT log (R29 to R42, R323). -/

namespace Sys2Proof.Machine

/-! ### Bit numbers -/

abbrev errIdleWrite : Nat := 0
abbrev errBadValue : Nat := 1
abbrev errLockViolation : Nat := 2
abbrev errBadAccess : Nat := 3
abbrev errCommitLate : Nat := 4
abbrev errSchedFull : Nat := 5
abbrev errParity : Nat := 6
abbrev errResetWrite : Nat := 7
abbrev intErr : Nat := 0
abbrev intReadyChange : Nat := 1
abbrev intCommitDone : Nat := 2
abbrev intPower : Nat := 3
abbrev intFault : Nat := 4

/-! ### Interrupts (R40, R41) -/

/-- The masked status of a page: INT_STAT AND INT_EN. -/
def State.masked (s : State) (p : Nat) : Nat := s.get p 0 F.hdrIntStat &&& s.get (home p) 0 F.hdrIntEn

/-- Is an MSI-X vector masked? A vector starts masked (log entry 9). -/
def State.vectorMasked (s : State) (v : Nat) : Bool := bit (Tab.at 1 s.msix (4 * v + 3)) 0

/-- Send a page's message, or set the pending bit of a masked vector (R40). -/
def State.sendMsix (s : State) (p : Nat) : State :=
  let v := s.get (home p) 0 F.hdrIntVecVector
  if s.vectorMasked v then { s with msixPending := Tab.put v true s.msixPending } else s.emit (.msix v)

/-- The message of a page whose masked status went from zero to non-zero between two states. -/
def State.notifyFrom (s before : State) (p : Nat) : State :=
  if before.masked p = 0 ∧ s.masked p ≠ 0 then s.sendMsix p else s

/-- Set a bit of INT_STAT. -/
def State.raise (s : State) (p b : Nat) : State :=
  (s.put p 0 F.hdrIntStat (withBit (s.get p 0 F.hdrIntStat) b)).notifyFrom s p

/-- Set a bit of ERR; one that was clear raises INT_STAT.ERR. -/
def State.setErr (s : State) (p b : Nat) : State :=
  if bit (s.get p 0 F.hdrErr) b then s
  else (s.put p 0 F.hdrErr (withBit (s.get p 0 F.hdrErr) b)).raise p intErr

/-- Set or clear a bit of STATUS.ENG, by its number in STATUS. -/
def State.putStat (s : State) (p b : Nat) (v : Bool) : State :=
  let w := s.get p 0 F.hdrStatusEng
  s.put p 0 F.hdrStatusEng (if v then withBit w (b - 16) else withoutBit w (b - 16))

/-- A bit of STATUS.ENG, by its number in STATUS. -/
def State.stat (s : State) (p b : Nat) : Bool := bit (s.get p 0 F.hdrStatusEng) (b - 16)

/-- The pages that can drive IRQ_N. -/
def allPages : List Nat := pageRanges.flatMap fun r => (List.range r.2.1).map (r.1 + ·)

/-- IRQ_N is driven low (R41). -/
def State.irqLow (s : State) : Bool :=
  allPages.any fun p => s.flag (home p) 0 F.hdrIntVecPin && decide (s.masked p ≠ 0)

/-! ### READY and STATUS (R30) -/

/-- CAUSE codes of READY. -/
abbrev causeNone : Nat := 0
abbrev causeResetting : Nat := 1
abbrev causeInert : Nat := 2
abbrev causeWaitPower : Nat := 3
abbrev causeWaitDependency : Nat := 4
abbrev causeFaulted : Nat := 5

/-- Write READY and its CAUSE; a change of READY raises READY_CHANGE. -/
def State.putReady (s : State) (p : Nat) (r : Bool) (cause : Nat) : State :=
  let s' := (s.put p 0 F.hdrReady (ofBool r)).put p 0 F.hdrReadyCause cause
  if s.get p 0 F.hdrReady = ofBool r then s' else s'.raise p intReadyChange

/-- Write DEGRADED; a change raises READY_CHANGE. -/
def State.putDegraded (s : State) (p : Nat) (d : Bool) : State :=
  let s' := s.put p 0 F.hdrReadyDegraded (ofBool d)
  if s.get p 0 F.hdrReadyDegraded = ofBool d then s' else s'.raise p intReadyChange

/-- Is an engine running (STATUS.RUNNING)? -/
def State.running (s : State) (p : Nat) : Bool := s.flag p 0 F.hdrStatusRunning

/-- Write STATUS.RUNNING. -/
def State.putRunning (s : State) (p : Nat) (r : Bool) : State := s.put p 0 F.hdrStatusRunning (ofBool r)

/-- Is an engine reset in progress? -/
def State.resetting (s : State) (p : Nat) : Bool := s.flag (home p) 0 F.hdrStatusResetting

/-- Is an engine INERT? -/
def State.inert (s : State) (p : Nat) : Bool :=
  !s.flag p 0 F.hdrReady && decide (s.get p 0 F.hdrReadyCause = causeInert)

/-! ### Writes to memory (R195 to R197, R402) -/

/-- The device region: from BASE_GIB to the end of HBM. -/
def State.deviceBase (s : State) : Nat := hbmBase + s.get pgDev 0 F.devDevregBaseGib * 2 ^ 30

/-- The lease that guards an address. -/
def State.leaseAt (s : State) (a : Nat) : Option Lease :=
  s.leases.find? fun l => decide (l.base ≤ a ∧ a < l.base + l.size) && s.flag (pgCpo l.cpo) 0 F.cpoCtrlLeaseGuard

/-- A write into the device region is dropped; the first since DEVREG_HIT was clear is recorded (R402). -/
def State.devregHit (s : State) (m a : Nat) : State :=
  let s1 := if bit (s.get pgDev 0 F.hdrErr) 17 then s
    else ((s.put pgDev 0 F.devDevregAddrLoAddr (a % 2 ^ 32)).put pgDev 0 F.devDevregAddrHiAddr (a / 2 ^ 32 % 2 ^ 8)).put pgDev 0
      F.devDevregAddrHiMaster m
  (s1.setErr pgDev 17).raise pgDev 16

/-- A write into a guarded lease is dropped; the first since LEASE_HIT was clear is recorded (R196). -/
def State.leaseHit (s : State) (m a : Nat) (l : Lease) : State :=
  let p := pgCpo l.cpo
  let s1 := if bit (s.get p 0 F.hdrIntStat) 19 then s
    else ((s.put p 0 F.cpoLeaseAddrLoAddr (a % 2 ^ 32)).put p 0 F.cpoLeaseAddrHiAddr (a / 2 ^ 32 % 2 ^ 8)).put p 0
      F.cpoLeaseAddrHiMaster m
  s1.raise p 19

/-- A byte dropped in guarded leases: each compositor whose lease covers it notes the hit (R196). -/
def State.leaseHits (s : State) (m a : Nat) : State :=
  (s.leases.filter fun l => decide (l.base ≤ a ∧ a < l.base + l.size) && s.flag (pgCpo l.cpo) 0 F.cpoCtrlLeaseGuard).foldl
    (fun s l => s.leaseHit m a l) s

/-- One byte that a master writes at a native address: dropped in the device region, in a guarded lease, or where the target
takes no write. Profile storage, the Cave and the boot ROM take none. -/
def State.pokeNative (s : State) (m n : Nat) (b : Byte) : State :=
  match targetOf n with
  | some .sram => { s with mem := Memory.write s.mem n b }
  | some .hbm =>
    if !s.targetOpen .hbm then s
    else if s.deviceBase ≤ n then s.devregHit m n
    else if (s.leaseAt n).isSome then s.leaseHits m n
    else { s with mem := Memory.write s.mem n b }
  | _ => s

/-- Bytes that a master writes from a native address upward. -/
def State.pokeNatives (s : State) (m n : Nat) : Bytes → State
  | [] => s
  | b :: t => (s.pokeNative m n b).pokeNatives m (n + 1) t

/-- One byte that a master writes at an internal address. -/
def State.pokeByte (s : State) (m a : Nat) (b : Byte) : State :=
  match s.place a with
  | none => s
  | some n => s.pokeNative m n b

/-- Bytes that a master writes from an address upward. -/
def State.pokeBytes (s : State) (m a : Nat) : Bytes → State
  | [] => s
  | b :: t => (s.pokeByte m a b).pokeBytes m (a + 1) t

/-! ### Faults (R323) -/

/-- Fault classes. -/
abbrev fltSealMismatch : Nat := 1
abbrev fltDatapath : Nat := 2
abbrev fltMemUe : Nat := 3
abbrev fltConfigUpset : Nat := 4
abbrev fltFreeze : Nat := 5
abbrev fltClock : Nat := 6
abbrev fltRefLoss : Nat := 7
abbrev fltLaneLoss : Nat := 8
abbrev fltLockstep : Nat := 9
abbrev fltInterconnect : Nat := 10
abbrev fltSupply : Nat := 11
abbrev fltTwinLoss : Nat := 12
abbrev fltKeyLost : Nat := 13
abbrev fltCoMismatch : Nat := 14

/-- RESP codes. -/
abbrev respNone : Nat := 0
abbrev respConcealed : Nat := 1
abbrev respChangeover : Nat := 2
abbrev respMasked : Nat := 3

/-- REGION of the device and INDEX of an engine as a whole. -/
abbrev fltWhole : Nat := 0xFFF

/-- The records of the FLT log (R323). -/
abbrev fltLogSize : Nat := 1024

/-- Note a fault in an engine's FAULT register; VALID rising raises INT_STAT.FAULT. -/
def State.noteFault (s : State) (p cls index : Nat) : State :=
  let was := s.flag (home p) 0 F.hdrFaultValid
  let n := if was then s.get (home p) 0 F.hdrFaultCount else 0
  let s1 := (s.put (home p) 0 F.hdrFaultClass cls).put (home p) 0 F.hdrFaultIndex index
  let s2 := (s1.put (home p) 0 F.hdrFaultCount (satNat 8 (n + 1))).put (home p) 0 F.hdrFaultValid 1
  if was then s2 else s2.raise p intFault

/-- Nanoseconds in steps of 31.25 ns from the Cave oscillator (W2, W3 of R323). -/
def caveTime (now : Nat) : Nat := now * 4 / 125 * 125 / 4

/-- The pairing state of CLASP.STATE.STATE (R314). -/
def State.pairing (s : State) : Nat := s.get pgClasp 0 F.claspState

/-- A twin compares seals from this pairing state on (R308, R314). -/
abbrev pairCompare : Nat := 4

/-- The number of a page among what local checks touch. -/
abbrev touchPage (p : Nat) : Nat := 4096 + p

/-- The number of a clock domain among what local checks touch. -/
abbrev touchClock (d : Nat) : Nat := 8192 + d

/-- What excuses lines from the comparison of seals (R310): a LIVE write, a commit that applied at once, an engine reset. -/
abbrev waiveLive : Nat := 0
abbrev waiveCommit : Nat := 1
abbrev waiveReset : Nat := 2

/-- The number of such an excuse at a flow or a page, both numbered as for `touched`. -/
def waiveKey (kind c : Nat) : Nat := 3 * c + kind

/-- Lines of a flow or a page are excused from the comparison, from now on as long as R310 says for the kind. -/
def State.waive (s : State) (kind c : Nat) : State :=
  if pairCompare ≤ s.pairing then { s with waives := Tab.put (waiveKey kind c) s.now s.waives } else s

/-- A local check of a twin touches a flow or a page (R307). -/
def State.touch (s : State) (c : Nat) : State :=
  if pairCompare ≤ s.pairing then { s with touched := Tab.put c s.now s.touched } else s

/-- The faults that local checks of the datapath find (R307): seals and residues, uncorrectable errors, lanes, clocks. -/
def localFaults : List Nat := [fltDatapath, fltMemUe, fltLaneLoss, fltClock]

/-- One detection writes one record, the oldest overwritten when the log is full, and sets the engine's FAULT (R323). -/
def State.fault (s : State) (cls resp attr region index detail : Nat) : State :=
  let tb0 := s.tb 0
  let off := decide (tb0.state = .off)
  let r : FltRecord :=
    { seq := s.fltSeq, cls := cls, resp := resp, attr := attr, region := region, index := index, detail := detail
      timeNs := caveTime s.now, frame := if off then 0 else tb0.frame, line := if off then 0 else tb0.line s.now }
  let s0 := if cls ∈ localFaults then s.touch (if region = pgFlow then index else touchPage region) else s
  let s1 := { s0 with fltLog := (r :: s0.fltLog).take fltLogSize, fltSeq := (s0.fltSeq + 1) % 2 ^ 16 }
  let s2 := (s1.put pgFlt 0 F.fltLogHeadSeq s.fltSeq).raise pgFlt 16
  if region = fltWhole then s2 else s2.noteFault region cls index

/-- A word of an FLT record (R323). -/
def FltRecord.word (r : FltRecord) : Nat → Nat
  | 0 => 2 ^ 31 + r.cls % 16 * 2 ^ 27 + r.resp % 4 * 2 ^ 25 + r.attr % 2 * 2 ^ 24 + r.region % 4096 * 2 ^ 12 + r.index % 4096
  | 1 => r.detail % 2 ^ 16 * 2 ^ 16 + r.seq % 2 ^ 16
  | 2 => r.timeNs % 2 ^ 32
  | 3 => r.timeNs / 2 ^ 32 % 2 ^ 32
  | 4 => r.frame % 2 ^ 32
  | 5 => r.line % 2 ^ 13 * 2 ^ 16 + r.frame / 2 ^ 32 % 2 ^ 16
  | _ => 0

/-- A word of the record that LOG_INDEX names; 0 where it has been overwritten. -/
def State.logWord (s : State) (seq n : Nat) : Nat :=
  match s.fltLog.find? fun r => decide (r.seq = seq) with
  | some r => r.word n
  | none => 0

/-! ### Kept fields and resets (R11) -/

/-- Fields that keep their values under every policy (R11): INT_EN, INT_VEC, RESTORE_POLICY, FAULT, and hardware
condition. -/
def keptAlways (p slot : Nat) : Bool :=
  decide (slot ∈ [F.hdrIntEn.slot, F.hdrIntVecPin.slot, F.hdrIntVecVector.slot, F.hdrRestorePolicyPolicy.slot,
    F.hdrFaultValid.slot, F.hdrFaultClass.slot, F.hdrFaultCount.slot, F.hdrFaultIndex.slot]) ||
  (decide (p = pgDev) && decide (slot ∈ [F.devHbmChStatusFaulted.slot, F.devHbmChStatusUe.slot, F.devHbmChStatusCe.slot]))

/-- A field's value after a reset of its page that keeps the kept fields: none where it takes its cold value. -/
def warmValue (e : Key × Nat) : Option Nat :=
  match fieldAtSlot e.1.page e.1.slot with
  | some f => match f.warm with
    | .kept => some e.2
    | .becomes v => some v
    | .cold => none
  | none => some e.2

/-- The register fields after a page's reset: warm values, kept fields kept (R11). -/
def State.warmRegs (s : State) (p : Nat) : State :=
  { s with regs := s.regs.filterMap fun e =>
      if e.1.page = p then (warmValue e).map fun v => (e.1, v) else some e }

/-- The register fields after a reset that left no valid record, or under INERT: cold values but for R11's list, and what the
reset itself has raised in ERR and INT_STAT since it cleared them (R54). -/
def State.coldRegs (s : State) (p : Nat) : State :=
  { s with regs := s.regs.filter fun e =>
      decide (e.1.page ≠ p) || keptAlways p e.1.slot || decide (e.1.slot ∈ [F.hdrErr.slot, F.hdrIntStat.slot]) }

end Sys2Proof.Machine
end

