-- ==== Sys2Proof/Machine/Power.lean ====
section
/-! DEFINITION. The power admission unit's own operations: posting, releasing, deferring, the ramp (R344 to R347). -/

namespace Sys2Proof.Machine

/-- What an operation asks for: mW, DUR_CLASS, and whether its rail is VDD_CORE (R345). An eye scan's class comes
with its request. -/
def Purpose.ask : Purpose → Nat × Nat × Bool
  | .slice => (3200, 0, true)
  | .compositor => (1800, 0, true)
  | .hbm => (6000, 4, false)
  | .lane _ => (400, 2, false)
  | .eye _ => (150, 7, false)
  | .press => (1100, 1, true)
  | .fabric => (600, 2, false)
  | .puf => (200, 2, true)

/-- The number of an operation: of lane adaptation and eye scans, by their lane. -/
def Purpose.code : Purpose → Nat
  | .slice => 0
  | .compositor => 1
  | .hbm => 2
  | .lane n => 3 + n
  | .eye n => 7 + n
  | .press => 11
  | .fabric => 12
  | .puf => 13

/-! ### What the rules time -/

/-- A timer: the wait of a page's operation after DEFERRED, the alignment of a pair, the switch of a group, a step of the ramp. -/
abbrev timerRepost : Nat := 0
abbrev timerAlign : Nat := 1
abbrev timerSwitch : Nat := 2
/-- Since when a lane is DOWN. -/
abbrev timerLane : Nat := 3
abbrev timerRamp : Nat := 3

/-- A timer starts. -/
def State.startTimer (s : State) (p c kind : Nat) : State := { s with timers := Assoc.set Key.code ⟨p, c, kind⟩ s.now s.timers }

/-- Have so many nanoseconds passed since a timer started? -/
def State.elapsed (s : State) (p c kind ns : Nat) : Bool :=
  match Assoc.find Key.code ⟨p, c, kind⟩ s.timers with
  | some t => decide (t + ns ≤ s.now)
  | none => false

/-- Requests waiting at the PAU. -/
abbrev powerQueueSize : Nat := 64

/-- The sum of grants held (USED). -/
def State.used (s : State) : Nat := s.grants.foldl (fun n g => n + g.mw) 0

/-- The sum of a page's grants (POWER_GRANT.MW). -/
def State.grantedMw (s : State) (p : Nat) : Nat :=
  s.grants.foldl (fun n g => if g.page = p then n + g.mw else n) 0

/-- Does a page hold the grant of a purpose? -/
def State.holds (s : State) (p : Nat) (u : Purpose) : Bool :=
  s.grants.any fun g => decide (g.page = p) && decide (g.purpose = u)

/-- Does a request of a page for a purpose wait? -/
def State.asks (s : State) (p : Nat) (u : Purpose) : Bool :=
  s.powerQueue.any fun g => decide (g.page = p) && decide (g.purpose = u)

/-- Does a slice or compositor have, or seek, its grant: held, waiting, or, where it was enabled before, ended as DEFERRED and
to be posted again? -/
def State.powerSought (s : State) (p : Nat) (u : Purpose) (was : Bool) : Bool :=
  s.holds p u || s.asks p u || (was && s.flag p 0 F.hdrPowerGrantDeferred)

/-- A page's request for an operation ends without a grant (R347). -/
def State.deferPower (s0 : State) (p : Nat) (u : Purpose) : State :=
  let s := s0.startTimer p u.code timerRepost
  (((s.put p 0 F.hdrPowerGrantDeferred 1).bump pgPau 0 F.pauCntDeferred).raise p intPower).raise pgPau 16

/-- An engine posts a request: refused as too big, refused for a full queue, or queued (R344, R347). The answer says
whether it was queued. -/
def State.postPowerOf (s : State) (p : Nat) (u : Purpose) (mw dur : Nat) (core : Bool) : State × Bool :=
  let s0 := s.put p 0 F.hdrPowerGrantDeferred 0
  if s.get pgPau 0 F.pauBudgetMw < mw then ((s0.setErr pgPau 17).deferPower p u, false)
  else if powerQueueSize ≤ s.powerQueue.length then
    (((s0.setErr pgPau 16).bump pgPau 0 F.pauCntQfull).deferPower p u, false)
  else
    ({ s0 with powerQueue := s0.powerQueue ++
        [{ page := p, purpose := u, mw := mw, dur := dur, core := core, postedNs := s.now, waited := 0 }] }, true)

/-- Post the request of R345 for an operation. -/
def State.postPower (s : State) (p : Nat) (u : Purpose) : State × Bool :=
  s.postPowerOf p u u.ask.1 u.ask.2.1 u.ask.2.2

/-- An engine releases a grant: USED falls at once (R344). -/
def State.releasePower (s : State) (p : Nat) (u : Purpose) : State :=
  { s with grants := s.grants.filter fun g => !(decide (g.page = p) && decide (g.purpose = u)) }

/-- An engine withdraws a waiting request. -/
def State.withdrawPower (s : State) (p : Nat) (u : Purpose) : State :=
  { s with powerQueue := s.powerQueue.filter fun g => !(decide (g.page = p) && decide (g.purpose = u)) }

/-- Every grant and request of an engine goes (R54). -/
def State.dropPower (s : State) (p : Nat) : State :=
  { s with
    grants := s.grants.filter fun g => decide (g.page ≠ p)
    powerQueue := s.powerQueue.filter fun g => decide (g.page ≠ p) }

/-- Ramp steps of a VDD_CORE grant: ceil(I / RAMP) with I = MW / 0.75 V (R346). -/
def rampSteps (mw ramp : Nat) : Nat := (mw * 4 + 3 * ramp - 1) / (3 * ramp)

/-- Is an earlier VDD_CORE grant still ramping? -/
def State.ramping (s : State) : Bool := s.grants.any fun g => decide (g.steps ≠ 0)

/-- Can the head request be granted now (R346, R53)? -/
def State.canGrant (s : State) (r : PowerReq) : Bool :=
  decide (s.powerPaused = none) && s.flag pgPau 0 F.hdrReady &&
    decide (s.used + r.mw ≤ s.get pgPau 0 F.pauBudgetMw) && !(r.core && s.ramping)

/-- The waiting time of a request, less the time its timeout was paused (R347). -/
def State.waitedNs (s : State) (r : PowerReq) : Nat :=
  match s.powerPaused with
  | some t => r.waited + (t - r.postedNs)
  | none => r.waited + (s.now - r.postedNs)

/-- TIMEOUT in nanoseconds. -/
def State.powerTimeoutNs (s : State) : Nat := s.get pgPau 0 F.pauTimeoutMs * 1000000

/-- Nanoseconds of a duration class that has a limit. -/
def durLimitNs : Nat → Option Nat
  | 1 => some 1000000 | 2 => some 10000000 | 3 => some 100000000 | 4 => some 1000000000 | 5 => some 10000000000
  | 6 => some 100000000000
  | _ => none

end Sys2Proof.Machine
end

