-- ==== Sys2Proof/Machine/LaneQueue.lean ====
section
/-! DEFINITION. What waits on a Gylos lane, and what a twin sends the other over the Clasp lanes (R260, R261, R273, R280, R286, R302). -/

namespace Sys2Proof.Machine

/-- STATE codes of LANE_STATUS. -/
abbrev laneDown : Nat := 0
abbrev laneWaitPower : Nat := 1
abbrev laneAdapting : Nat := 2
abbrev laneAligning : Nat := 3
abbrev laneUp : Nat := 4
abbrev laneOff : Nat := 5

/-- STATE of a lane. -/
def State.laneState (s : State) (p l : Nat) : Nat := s.get p l F.laneStatusState

/-- Lanes of a page. -/
def laneCount (p : Nat) : Nat :=
  match pageType p with
  | 0x040 => 1 | 0x041 => 1 | 0x042 => 4 | 0x043 => 4 | 0x005 => 4
  | _ => 0

/-- A lane that has sent and received nothing: the first block is masked with 0 (R262). -/
def GylLane.cold : GylLane :=
  { tx := { count := 0, crc := 0, runBit := false, runLen := 0, slack := 0, link := [], replay := [], queue := []
            held := [], dropped := none }
    rx := { aligned := false, streak := 0, seq := 0, crc := 0, prev := none, fails := 0, nak := none, naks := 0, nakNs := 0
            runBit := false, runLen := 0, violations := 0, lostNs := 0 } }

/-- A Gylos lane. -/
def State.gyl (s : State) (p l : Nat) : GylLane := (Assoc.find Key.code ⟨p, l, 0⟩ s.gyls).getD GylLane.cold

/-- Write a Gylos lane. -/
def State.putGyl (s : State) (p l : Nat) (x : GylLane) : State :=
  { s with gyls := Assoc.set Key.code ⟨p, l, 0⟩ x s.gyls }

/-- Block types (R261). -/
abbrev blkVideo : Nat := 1
abbrev blkData : Nat := 2
abbrev blkControl : Nat := 3
abbrev blkBeacon : Nat := 4
abbrev blkIdle : Nat := 5

/-- MARK. -/
abbrev blkMark : Nat := 0x5A3C

/-- A block of a lane message: payload bytes, then zeros. -/
def padPayload (l : Bytes) : Bytes := (l ++ List.replicate 128 0).take 128

/-- Put a block in the queue of a lane. -/
def State.queueBlock (s : State) (p l : Nat) (b : TxBlock) : State :=
  let g := s.gyl p l
  s.putGyl p l { g with tx := { g.tx with queue := g.tx.queue ++ [b] } }

/-- The UP lanes of a page, lowest first. -/
def State.upLanes (s : State) (p : Nat) : List Nat := [0, 1, 2, 3].filter fun l => decide (s.laneState p l = laneUp)

/-- The lowest UP lane. -/
def State.lowestUp (s : State) (p : Nat) : Option Nat := (s.upLanes p).head?

/-! ### Messages to the partner (R280, R286, R302) -/

/-- What a message to the partner says, as numbers: its kind, then its values. -/
def Out.words : Out → List Nat
  | .mirror p c off v => [0, p, c, off, v]
  | .mirrorEvent h k t l f a p => [1, h, k, t, l, f, a, p]
  | .mirrorCancel h => [2, h]
  | .mirrorMemory a b => 3 :: a :: b.map BitVec.toNat
  | .decision p c v => 4 :: p :: c :: v
  | .mirrorBezel c b => 5 :: c :: b.map BitVec.toNat
  | .lineSeal f l n part v x y => [6, f, l, n, part, v, x.toNat, y.toNat]
  | .heartbeat l => [7, l]
  | _ => []

/-- The CONTROL blocks of a message: of kinds 0x40 to 0x7F, their payloads being internal to a pair (R302, log entry 210). -/
def claspBlocks (o : Out) : List TxBlock :=
  (Config.claspMessage o.words).map fun b =>
    ⟨blkControl, false, false, padPayload (BitVec.ofNat 8 (0x40 + (b.headD 0).toNat % 64) :: b.drop 1)⟩

/-- Blocks wait on some of the Clasp lanes. -/
def State.claspQueue (s : State) (o : Out) (lanes : List Nat) : State :=
  lanes.foldl (fun s l => (claspBlocks o).foldl (fun s b => s.queueBlock pgClasp l b) s) s

/-- An express message to the partner: on the two lowest UP lanes at once (R280, R302). -/
def State.express (s : State) (o : Out) : State := (s.emit o).claspQueue o ((s.upLanes pgClasp).take 2)

/-- An ordinary message to the partner: on the lowest UP lane, in order of acceptance (R302, log entry 210). -/
def State.ordinary (s : State) (o : Out) : State := (s.emit o).claspQueue o ((s.upLanes pgClasp).take 1)

/-- The path of a mirrored page write: express for the Event Schedule, salvo loads and route-set loads, ordinary for all others (R302). -/
def expressWrite (p off : Nat) : Bool :=
  decide (p = pgSched ∧ 0x080 ≤ off) || decide (p = pgAsh ∧ 0x0A4 ≤ off ∧ off ≤ 0x0B0)

end Sys2Proof.Machine
end

