-- ==== Sys2Proof/Machine/Access.lean ====
section
/-! DEFINITION. How a master's access reaches a field: windows (R14), banked registers, locks (R31, R32), the judgement
of a write field by field (R33), what is mirrored to a twin (R301). -/

namespace Sys2Proof.Machine

/-! ### Windows (R14) -/

/-- The cell of a stream slot in the IPP stream window: 64 receive, then 64 send. -/
abbrev strmCell (dir slot : Nat) : Nat := dir * 64 + slot

/-- The cell of a MACsec association: link, direction, association number. -/
abbrev saCell (link dir an : Nat) : Nat := link * 8 + dir * 4 + an

/-- The FAB slot cell: direction and slot. -/
abbrev fabCell (dir slot : Nat) : Nat := dir * 256 + slot

/-- The cell that an access of a master to an offset of a page reaches: its own bank for banked registers, what the
page's index register selects for a window, else 0. -/
def State.cellOf (s : State) (m p off : Nat) : Nat :=
  if p = 0x009 then (if off = 0x084 ∨ off = 0x088 then s.get p 0 F.mtxMstIndexIndex else 0)
  else if p = 0x00A then (if off = 0x084 then s.get p 0 F.mtxTgtIndexIndex else 0)
  else if p = pgFlt then (if off = 0x08C then m else 0)
  else if p = pgClasp ∧ 0x0C4 ≤ off ∧ off ≤ 0x0CC then s.get p 0 F.claspJrIndexRange
  else if p = pgProf ∧ off = 0x09C then s.get p 0 F.profProfIndexCell
  else if p = pgDev ∧ off = 0x0B4 then s.get p 0 F.devHbmChIndexCh
  else if p = pgSched then (if 0x080 ≤ off ∧ off ≤ 0x0A0 then m else 0)
  else if p = pgKey then
    (if 0x080 ≤ off ∧ off ≤ 0x09C then m else if 0x0C4 ≤ off ∧ off ≤ 0x0CC then s.get p 0 F.keySlotIndexSlot else 0)
  else if p = pgBez then (if 0x0C0 ≤ off then s.get p 0 F.bezCellIndexCell else 0)
  else if p = pgPress then (if 0x080 ≤ off ∧ off ≤ 0x0A4 then m else 0)
  else if p = pgCore then (if off = 0x0B4 ∨ off = 0x0B8 then s.get p 0 F.coreVatIndexBank else 0)
  else if p = pgFlow then
    (if off = 0x080 ∨ off = 0x084 ∨ off = 0x088 then m
     else if off = 0x090 then 0 else s.get p m F.flowwinFlowIndexFlow)
  else if p = pgAsh then
    (if off = 0x084 ∨ off = 0x088 then s.get p 0 F.ashFlowQFlow
     else if off = 0x094 ∨ off = 0x098 then s.get p 0 F.ashRouteIndexOut
     else if off = 0x0D4 then s.get p 0 F.ashBankIndexBank else 0)
  else match pageType p with
    | 0x022 => if off = 0x0A4 then s.get p 0 F.synBandIndexBand
        else if off = 0x0C4 ∨ off = 0x0C8 then s.get p 0 F.synOutIndexOut else 0
    | 0x040 => if off = 0x0A4 then s.get p 0 F.sdirxAncIndexFilter
        else if 0x204 ≤ off then s.get p 0 F.laneIndexLane else 0
    | 0x041 => if 0x204 ≤ off then s.get p 0 F.laneIndexLane else 0
    | 0x042 =>
        if 0x0C8 ≤ off ∧ off ≤ 0x0E0 then
          saCell (s.get p 0 F.ippLinkIndexLink) (s.get p 0 F.ippSaIndexDir) (s.get p 0 F.ippSaIndexAn)
        else if 0x088 ≤ off ∧ off ≤ 0x0E4 ∧ off ≠ 0x0C4 then s.get p 0 F.ippLinkIndexLink
        else if 0x100 ≤ off ∧ off < 0x200 then s.get p 0 F.ippRstIndexRaster
        else if 0x204 ≤ off ∧ off < 0x280 then s.get p 0 F.laneIndexLane
        else if 0x284 ≤ off ∧ off < 0x300 then strmCell (s.get p 0 F.ippStrmIndexDir) (s.get p 0 F.ippStrmIndexSlot)
        else 0
    | 0x043 =>
        if 0x084 ≤ off ∧ off ≤ 0x0A4 then m
        else if 0x104 ≤ off ∧ off ≤ 0x10C then fabCell (s.get p 0 F.fabSlotIndexDir) (s.get p 0 F.fabSlotIndexSlot)
        else if 0x204 ≤ off then s.get p 0 F.laneIndexLane else 0
    | 0x005 => if 0x204 ≤ off then s.get p 0 F.laneIndexLane else 0
    | 0x060 => if 0x0C0 ≤ off then s.get p 0 F.cnvCellIndexCell else 0
    | 0x061 => if 0x200 ≤ off then s.get p 0 F.cpoCellIndexCell else 0
    | 0x071 => if off = 0x084 ∨ off = 0x088 then s.get p 0 F.asrcChIndexCh else 0
    | _ => 0

/-- Index registers: every register that selects a cell, lane, slot, flow, raster, entry or channel (R14, R301). -/
def isIndexReg (p off : Nat) : Bool :=
  match pageType p with
  | 0x001 => decide (off = 0x0B0)
  | 0x002 => decide (off = 0x0A0)
  | 0x004 => decide (off = 0x084)
  | 0x005 => decide (off = 0x0C0 ∨ off = 0x200)
  | 0x006 => decide (off = 0x08C)
  | 0x010 => decide (off = 0x080 ∧ (p = 0x009 ∨ p = 0x00A))
  | 0x021 => decide (off = 0x0B0)
  | 0x022 => decide (off = 0x0A0 ∨ off = 0x0C0)
  | 0x030 => decide (off = 0x0C0)
  | 0x031 => decide (off = 0x080)
  | 0x040 => decide (off = 0x0A0 ∨ off = 0x200)
  | 0x041 => decide (off = 0x200)
  | 0x042 => decide (off = 0x084 ∨ off = 0x0C4 ∨ off = 0x0FC ∨ off = 0x200 ∨ off = 0x280)
  | 0x043 => decide (off = 0x100 ∨ off = 0x200)
  | 0x050 => decide (off = 0x0B0)
  | 0x051 => decide (off = 0x080)
  | 0x060 => decide (off = 0x088)
  | 0x061 => decide (off = 0x09C)
  | 0x070 => decide (off = 0x080 ∨ off = 0x090 ∨ off = 0x0A0 ∨ off = 0x0D0)
  | 0x071 => decide (off = 0x080)
  | _ => false

/-- Does a register belong to a cell, lane or link that a window of the page selects (R14)? -/
def windowed (p off : Nat) : Bool :=
  match pageType p with
  | 0x005 => decide ((0x0C4 ≤ off ∧ off ≤ 0x0CC) ∨ 0x204 ≤ off)
  | 0x010 => decide (p = 0x009 ∧ off = 0x084)
  | 0x022 => decide (off = 0x0A4 ∨ off = 0x0C4 ∨ off = 0x0C8)
  | 0x040 => decide (off = 0x0A4 ∨ 0x204 ≤ off)
  | 0x041 => decide (0x204 ≤ off)
  | 0x042 => decide ((0x088 ≤ off ∧ off ≤ 0x0E4 ∧ off ≠ 0x0C4) ∨ (0x100 ≤ off ∧ off < 0x200) ∨ (0x204 ≤ off ∧ off ≠ 0x280))
  | 0x043 => decide ((0x104 ≤ off ∧ off ≤ 0x10C) ∨ 0x204 ≤ off)
  | 0x051 => decide (0x08C ≤ off ∧ off ≠ 0x090)
  | 0x060 => decide (0x0C0 ≤ off)
  | 0x061 => decide (0x200 ≤ off)
  | 0x070 => decide (off = 0x084 ∨ off = 0x088 ∨ off = 0x094 ∨ off = 0x098 ∨ off = 0x0D4)
  | 0x071 => decide (off = 0x084 ∨ off = 0x088)
  | _ => decide (p = pgBez ∧ 0x0C0 ≤ off)

/-- The largest index of an index register whose count is not a power of two or depends on the page (R14). -/
def State.indexLimit (s : State) (p off : Nat) : Option Nat :=
  match pageType p with
  | 0x042 =>
      if off = 0x084 then some (if s.get p 0 F.ippCtrlMode = 0 then 0 else 3) else none
  | 0x040 => if off = 0x200 then some 0 else none
  | 0x041 => if off = 0x200 then some 0 else none
  | _ => none

/-! ### Twin pairing (R299 to R303) -/

/-- Roles of CLASP.STATE.ROLE. -/
abbrev roleNone : Nat := 0
abbrev roleLead : Nat := 1
abbrev roleShadow : Nat := 2

/-- The device's role. -/
def State.role (s : State) : Nat := s.get pgClasp 0 F.claspStateRole

/-- Does the device have a partner that takes what a lead mirrors? Pairing state 0 is DETACHED; a lead mirrors what it
accepts after the snapshot of a join (R315). -/
def State.paired (s : State) : Bool := decide (s.pairing ≠ 0) && !s.joinDue

/-- Is a page one whose writes a lead mirrors to a shadow twin (R301)? -/
def mirroredPage (p : Nat) : Bool :=
  decide (pageType p ∉ [0, 0x001, 0x002, 0x003, 0x005, 0x006, 0x010, 0x011, 0x012, 0x030, 0x032, 0x033])

/-- Registers in which a write only clears status bits (R301), or changes nothing. -/
def clearsOnly (p off : Nat) : Bool :=
  (fieldsAt p off).all fun f => decide (f.access = .w1c ∨ f.access = .ro ∨ f.access = .rc)

/-- Is a page register mirrored to a shadow twin (R301)? -/
def isMirrored (p off : Nat) : Bool :=
  !isIndexReg p off && !clearsOnly p off &&
  match pageType p with
  | 0x001 => decide (off = 0x100)
  | 0x022 => decide (off ≠ 0x0A4)
  | 0x042 => !decide (off = 0x088 ∨ off = 0x08C ∨ (0x0A0 ≤ off ∧ off ≤ 0x0AC) ∨ (0x200 ≤ off ∧ off < 0x280) ∨
      (0x304 ≤ off ∧ off ≤ 0x30C))
  | 0x043 => !decide ((0x200 ≤ off ∧ off < 0x280) ∨ off < 0x0C0 ∧ 0x080 ≤ off)
  | 0x040 => !decide (0x200 ≤ off ∧ off < 0x280)
  | 0x041 => !decide (0x200 ≤ off ∧ off < 0x280)
  | _ => mirroredPage p

/-- The index in force that a mirrored write carries: the cell it reaches, or what the page's command registers act on
through an index register (R301). -/
def State.mirrorCell (s : State) (m p off : Nat) : Nat :=
  if p = pgFlow then s.get p m F.flowwinFlowIndexFlow
  else if p = pgSched then s.get p 0 F.schedSalvoIndexSalvo
  else if p = pgProf then s.get p 0 F.profProfIndexCell
  else if p = pgAsh ∧ 0x0A4 ≤ off ∧ off ≤ 0x0B0 then s.get p 0 F.ashRsIndexSet
  else if pageType p = 0x060 then s.get p 0 F.cnvCellIndexCell
  else s.cellOf m p off

/-- A mirrored write of a LIVE field excuses lines from the comparison: of a flow context that flow, of any other page that engine
(R310). -/
def State.waiveWrite (s : State) (p cell off : Nat) : State :=
  if (fieldsAt p off).any fun f => decide (f.cls = .live) then
    s.waive waiveLive (if p = pgFlow then cell else touchPage (home p))
  else s

/-- A write that a lead with a partner accepts from M0, M2 or M7 is mirrored, with the cell in force (R301). -/
def State.mirrorWrite (s : State) (m p off w : Nat) : State :=
  if s.role = roleLead ∧ s.paired = true ∧ (m = 0 ∨ m = 2 ∨ m = 7) ∧ isMirrored p off = true then
    let o := .mirror p (s.mirrorCell m p off) off w
    (if expressWrite p off then s.express o else s.ordinary o).waiveWrite p (s.mirrorCell m p off) off
  else s

/-- Does a send slot put its frame that began at an instant on the wire: on a lead, on a promoted one from its next frame on, on one
that handed over until its frames end (R299, R318, R319)? -/
def State.slotSends (s : State) (startNs : Nat) : Bool :=
  if s.role = roleLead then decide (s.sendFrom ≤ startNs) else decide (startNs < s.sendUntil)

/-- A decision of R305 that a lead takes in a pair whose shadow compares or masks goes to the shadow. -/
def State.share (s : State) (p c : Nat) (v : List Nat) : State :=
  if s.role = roleLead ∧ 4 ≤ s.pairing then s.express (.decision p c v) else s

/-- The lead's latest decision for a page's cell, where the device is such a shadow (R305). -/
def State.decided (s : State) (p c : Nat) : Option (List Nat) :=
  if s.role = roleShadow ∧ 4 ≤ s.pairing then Assoc.find Key.code ⟨p, c, 0⟩ s.decisions else none

/-! ### Which accesses a page takes -/

/-- Is the master's port into the matrix usable (R52)? PCI Express needs its link (R324). -/
def State.masterOpen (s : State) (m : Nat) : Bool :=
  s.flag 0x009 m F.mtxMstStatusQuiesced && (s.pcieUp || decide (m ≠ 0))

/-- Transactions of a master that are outstanding (R44): those that a reset of its port is completing, and of M7 the posted
writes of the management SPI that it has issued. Every other access is one step. -/
def State.outstanding (s : State) (m : Nat) : Nat :=
  s.get 0x009 m F.mtxMstStatusOutstanding + (if m = 7 then s.spiIssued else 0)

/-- QUIESCED: no transaction of the master is outstanding, and none is being refused (R52). -/
def State.quiesced (s : State) (m : Nat) : Bool := s.flag 0x009 m F.mtxMstStatusQuiesced && decide (s.outstanding m = 0)

/-- Entries of the matrix's one tracker (R44). -/
abbrev trackerSize : Nat := 192

/-- Entries of the tracker that a master may still take: up to its limit, while the tracker has room (R44, R46). -/
def State.trackerRoom (s : State) (m : Nat) : Nat :=
  min (s.get 0x009 m F.mtxMstCtrlLimit - s.outstanding m)
    (trackerSize - ((List.range 8).map s.outstanding).foldl (· + ·) 0)

/-- Posted writes of the management SPI that are held back take the entries that they may now take (R44, R46). -/
def State.spiIssue (s : State) : State :=
  { s with spiIssued := s.spiIssued + min (s.spiPending.length - s.spiIssued) (s.trackerRoom 7) }

/-- Registers that a lock guards (R32). -/
def lockGuards (off : Nat) : Bool :=
  decide (0x080 ≤ off ∨ off = 0x014 ∨ off = 0x01C ∨ (0x020 ≤ off ∧ off ≤ 0x028) ∨ off = 0x038)

/-- Does the page's lock keep a master out (R32; R303 on a shadow, whose locks read held by M3)? -/
def State.lockedOut (s : State) (m p off : Nat) : Bool :=
  lockGuards off &&
    (if s.role = roleShadow ∧ isMirrored p off = true then decide (m ≠ 3)
     else s.flag (home p) 0 F.hdrLockHeld && decide (s.get (home p) 0 F.hdrLockOwner ≠ m))

/-- Registers that a resetting engine still takes: the W1C status registers. -/
def statusReg (off : Nat) : Bool := decide (off = 0x010 ∨ off = 0x018 ∨ off = 0x03C)

/-- Does the page take a write of a master at an offset? -/
def State.accepts (s : State) (m p off : Nat) : Bool :=
  !s.controlReset && s.masterOpen m && populated p && decide (off < 0x800) &&
    (statusReg off || !s.resetting p) && !s.lockedOut m p off

/-- A write completes with an error to its master; a PCI Express write, which is posted, has it recorded in DEV.ERR, where its
link is up (R48). -/
def State.writeError (s : State) (m : Nat) : State :=
  if m ≠ 0 then s.answer m .error else if s.pcieUp then s.setErr pgDev errBadAccess else s

/-- What a write that the page does not take leaves: the error bit of R27, R32, R33 or R34, or nothing where the
bridge or the master's port is being reset. -/
def State.rejectWrite (s : State) (m p off : Nat) : State :=
  if s.controlReset then s
  else if !s.masterOpen m then s.writeError m
  else if !populated p then s.setErr pgDev 16
  else if 0x800 ≤ off then s.setErr p errBadAccess
  else if !statusReg off && s.resetting p then s.setErr p errResetWrite
  else s.setErr p errLockViolation

/-- Does a word hold a LIVE or an IDLE field? An accepted write to it has its engine's record rewritten (R330). -/
def recordedWord (p off : Nat) : Bool :=
  (fieldsAt p off).any fun f => decide (f.access = .rw ∧ (f.cls = .live ∨ f.cls = .idle))

/-- Run an accepted write, or reject it. -/
def State.access (s : State) (m p off : Nat) (k : State → State) : State :=
  if s.accepts m p off then k (if recordedWord p off then s.caveMark p else s) else s.rejectWrite m p off

/-- Run an accepted write of a word and mirror it, or reject it (R27, R32 to R34, R301). -/
def State.write (s : State) (m p off w : Nat) (k : State → State) : State :=
  s.access m p off fun s' => (k s').mirrorWrite m p off w

/-- A read of a page register by a master: an error while its port is being reset; all ones through BAR0 while the bridge
restarts (R53). -/
def State.readAs (s : State) (m : Nat) (r : State → Nat × State) : State :=
  if s.controlReset then s.answer m (if m = 0 then .data 0xFFFFFFFF else .error)
  else if s.masterOpen m then
    let (v, s1) := r s
    s1.answer m (.data v)
  else s.answer m .error

/-! ### One field of a write (R33) -/

/-- Is the field's commit unit inside its Rind or past its capture instant, so that SHADOW writes are staged (R35,
R73)? -/
def State.frozen (s : State) (p u : Nat) : Bool := (s.unit p u).frozen

/-- Write a SHADOW field of a running engine: to staging while its unit is frozen, else to the shadow copy. A write to
the shadow copy replaces what is staged. -/
def State.writeShadow (s : State) (p c : Nat) (f : Field) (v : Nat) : State :=
  if s.frozen p (unitOf p c f.slot) then s.putStaged p c f v else s.putShadow p c f v

/-- One field of an accepted write, `run` saying whether its engine (or flow, or slot) runs. A reserved value keeps the
old one and sets BAD_VALUE (R12); an IDLE field that would change while running is dropped (R33) (log entry 213). -/
def State.writeField (s : State) (p c : Nat) (f : Field) (run : Bool) (v : Nat) : State :=
  match f.access with
  | .rw =>
    if !f.legal.ok v then s.setErr p errBadValue
    else match f.cls with
      | .live => s.put p c f v
      | .none => s.put p c f v
      | .idle =>
        if run then (if s.get p c f = v then s else s.setErr p errIdleWrite) else s.put p c f v
      | .shadow => if run then s.writeShadow p c f v else s.putBoth p c f v
  | .w1c => s.put p c f (s.get p c f &&& (2 ^ f.width - 1 - v))
  | .w1s => s.put p c f (s.get p c f ||| v)
  | .ro => s
  | .wo => s
  | .rc => s

/-- The fields of a word, in turn. -/
def State.writeFields (s : State) (p c : Nat) (run : Bool) (w : Nat) : List Field → State
  | [] => s
  | f :: t => (s.writeField p c f run (f.extract w)).writeFields p c run w t

/-- The value an accepted write leaves in one field, without the write's other effects. -/
def fieldChange (s : State) (p c : Nat) (f : Field) (w : Nat) : Bool := decide (s.getLast p c f ≠ f.extract w)

end Sys2Proof.Machine
end

