-- ==== Sys2Proof/Machine/Schedule.lean ====
section
/-! DEFINITION. The Event Schedule's own operations: entering, checking, ending events; the done log; salvo storage
(R75 to R83). -/

namespace Sys2Proof.Machine

/-! ### Slots and handles (R80) -/

/-- Pending events the schedule holds. -/
abbrev scheduleSize : Nat := 4096

/-- The slot of a handle. -/
def handleSlot (h : Nat) : Nat := h % 4096

/-- The generation of a handle. -/
def handleGen (h : Nat) : Nat := h / 4096 % 16

/-- A slot that has held nothing. -/
def EvSlot.cold : EvSlot := ⟨0, .free⟩

/-- The schedule slot. -/
def State.evSlot (s : State) (n : Nat) : EvSlot := Tab.at EvSlot.cold s.evSlots n

/-- The lowest slot from n that no listed event holds, within so many tries. -/
def firstFree (used : List Nat) (n : Nat) : Nat → Nat
  | 0 => n
  | k + 1 => if n ∈ used then firstFree used (n + 1) k else n

/-- The slot the next event takes: the lowest free one (log entry 11). -/
def State.nextSlot (s : State) : Nat := firstFree (s.events.map fun e => handleSlot e.handle) 0 scheduleSize

/-- The handle the next event gets: the slot's next generation and the slot (R80). -/
def State.nextHandle (s : State) : Nat :=
  (((s.evSlot s.nextSlot).gen + 1) % 16) * 4096 + s.nextSlot

/-- The KIND code of a kind. -/
def evKindCode : EvKind → Nat
  | .take => 1 | .pageCommit => 2 | .layerCommit => 3 | .profile => 4 | .audioRoute => 5 | .rennet => 6 | .notify => 7

/-- Enter an event under its handle; a lead with a partner sends it on (R302). -/
def State.enterAs (s : State) (e : Event) : State :=
  let s1 := { s with
    events := s.events ++ [e]
    evSlots := Tab.put (handleSlot e.handle) ⟨handleGen e.handle, .pending⟩ s.evSlots }
  if s.role = roleLead ∧ s.paired = true then
    s1.express (.mirrorEvent e.handle (evKindCode e.kind) e.tb e.line e.frame e.arg e.page)
  else s1

/-- Enter an event whole; the schedule gives it the next handle. -/
def State.enter (s : State) (e : Event) : State := s.enterAs { e with handle := s.nextHandle }

/-- The pending event under a handle. -/
def State.pendingEvent (s : State) (h : Nat) : Option Event := s.events.find? fun e => decide (e.handle = h)

/-- A pending event ends in a state. -/
def State.endEvent (s : State) (h : Nat) (st : SlotState) : State :=
  let s1 := { s with
    events := s.events.filter fun e => decide (e.handle ≠ h)
    evSlots := Tab.put (handleSlot h) ⟨handleGen h, st⟩ s.evSlots }
  if s.role = roleLead ∧ s.paired = true ∧ st = .cancelled then s1.express (.mirrorCancel h) else s1

/-- The done log holds the last 64 handles; a further one is lost (R81). -/
abbrev doneLogSize : Nat := 64

/-- Push a handle into the done log (R81). -/
def State.pushDone (s : State) (h : Nat) : State :=
  (if s.doneLog.length < doneLogSize then { s with doneLog := s.doneLog ++ [h] }
   else { s with doneOvf := true }).raise pgSched 16

/-- An event applies at its point: it leaves the schedule, and NOTIFY pushes its handle (R81). -/
def State.appliedEvent (s : State) (e : Event) : State :=
  let s' := s.endEvent e.handle .applied
  if e.notify || decide (e.kind = .notify) then s'.pushDone e.handle else s'

/-! ### Salvo storage (R82) -/

/-- The pool of crosspoint entries. -/
abbrev poolSize : Nat := 65536

/-- The entries of a salvo. -/
def State.salvo (s : State) (n : Nat) : List XpEntry := Tab.at [] s.salvos n

/-- Free pool entries (POOL_FREE). -/
def State.poolFree (s : State) : Nat := poolSize - s.salvos.foldl (fun n e => n + e.2.length) 0

/-- PIN_CFGn fields. -/
def pinArm : Nat → Field
  | 0 => F.corePinCfg0Arm | 1 => F.corePinCfg1Arm | 2 => F.corePinCfg2Arm
  | _ => F.corePinCfg3Arm
/-- PIN_CFGn.TB. -/
def pinTb : Nat → Field
  | 0 => F.corePinCfg0Tb | 1 => F.corePinCfg1Tb | 2 => F.corePinCfg2Tb
  | _ => F.corePinCfg3Tb
/-- PIN_CFGn.SALVO. -/
def pinSalvo : Nat → Field
  | 0 => F.corePinCfg0Salvo | 1 => F.corePinCfg1Salvo | 2 => F.corePinCfg2Salvo
  | _ => F.corePinCfg3Salvo

/-- Is a salvo armed on a TAKE pin? -/
def State.salvoArmed (s : State) (n : Nat) : Bool :=
  [0, 1, 2, 3].any fun i => s.flag pgCore 0 (pinArm i) && decide (s.get pgCore 0 (pinSalvo i) = n)

/-- Is a salvo named by a pending event or armed on a TAKE pin? -/
def State.salvoBusy (s : State) (n : Nat) : Bool :=
  (s.events.any fun e => decide (e.kind = .take) && decide (e.arg = n)) || s.salvoArmed n

/-! ### Points in time -/

/-- The instant of a point of a timebase, in nanoseconds. -/
def Timebase.pointNs (t : Timebase) (frame line sample : Nat) : Nat :=
  t.startNs + nsOf t.struct t.rate
    ((frame - t.frame) * fmtFrameSamples t.struct t.rate + (line - 1) * fmtSamples t.struct t.rate + sample)

/-- Has the deadline of an event passed (R76)? -/
def State.deadlinePassed (s : State) (k : EvKind) (tb frame line sample : Nat) : Bool :=
  let t := s.tb tb
  match k with
  | .take => t.late s.now frame line 0 800
  | .profile => t.late s.now frame line 0 4000000
  | .audioRoute => t.late s.now frame (line - 2) 0 0
  | .rennet => t.late s.now frame line sample 10000
  | .notify => t.late s.now frame line 0 1000
  | .pageCommit => t.late s.now frame line 0 0
  | .layerCommit => t.late s.now frame line 0 0

/-! ### Checks of a submission (R77) -/

/-- EV_RESULT codes. -/
abbrev evOk : Nat := 0
abbrev evQfull : Nat := 1
abbrev evLate : Nat := 2
abbrev evBadKind : Nat := 3
abbrev evBadLine : Nat := 4
abbrev evBadTb : Nat := 5
abbrev evBadArg : Nat := 6
abbrev evNotFound : Nat := 7
abbrev evTooLate : Nat := 8

/-- The event that four words describe (R75), less its handle. -/
def eventOf (w0 w1 w2 w3 : Nat) (k : EvKind) (origin : EvOrigin) : Event :=
  { handle := 0, kind := k, tb := bits w0 26 2, notify := bit w0 25, line := bits w0 0 13
    frame := bits w2 0 16 * 2 ^ 32 + w1, sample := bits w2 16 16, arg := bits w3 16 16, page := bits w3 0 12, unit := 0
    origin := origin }

/-- Are LINE and SAMPLE legal for the kind on a format (R76, R77)? -/
def evLineOk (e : Event) (t : Timebase) : Bool :=
  match e.kind with
  | .take => decide (e.line ∈ switchLines t.struct ∧ e.sample = 0)
  | .profile => decide (e.line ∈ switchLines t.struct ∧ e.sample = 0)
  | .audioRoute => decide (e.line ∈ switchLines t.struct ∧ e.sample = 0)
  | .rennet => decide (1 ≤ e.line ∧ e.line ≤ fmtLines t.struct ∧ e.sample < fmtSamples t.struct t.rate)
  | .notify => decide (1 ≤ e.line ∧ e.line ≤ fmtLines t.struct ∧ e.sample = 0)
  | .pageCommit => false
  | .layerCommit => false

/-- Does a profile at an instant keep 4 ms from every pending profile (R339)? -/
def State.profileSpaced (s : State) (ns : Nat) : Bool :=
  s.events.all fun e =>
    if e.kind = .profile then
      let n := (s.tb e.tb).pointNs e.frame e.line 0
      decide (n + 4000000 ≤ ns ∨ ns + 4000000 ≤ n)
    else true

/-- Is a profile cell VALID? -/
def State.profileValid (s : State) (n : Nat) : Bool := (Tab.at ⟨false, 0⟩ s.profCells n).valid

/-- May a PROFILE event be entered (R337, R339)? -/
def State.profileOk (s : State) (e : Event) : Bool :=
  decide (e.arg < 4) && s.profileValid e.arg &&
    s.profileSpaced ((s.tb e.tb).pointNs e.frame e.line 0) &&
    (match e.origin with
      | .pins => true
      | _ => !s.flag pgProf 0 F.profCtrlPins)

/-- Are PAGE and ARG right for the kind (R76, R77)? -/
def State.evArgOk (s : State) (e : Event) : Bool :=
  match e.kind with
  | .take => decide (e.page = pgCore ∧ e.arg < 256) && !(s.salvo e.arg).isEmpty
  | .profile => decide (e.page = pgProf) && s.profileOk e
  | .audioRoute => decide (e.page = pgAsh ∧ e.arg < 256) && !(Tab.at [] s.routeSets e.arg).isEmpty
  | .rennet => decide (e.page = 0 ∧ e.arg = 0)
  | .notify => decide (e.page = 0)
  | .pageCommit => false
  | .layerCommit => false

/-- Is a TAKE one that comes after the Rind opening of its switch line (R95)? -/
def State.lateTake (s : State) (e : Event) : Bool :=
  decide (e.kind = .take ∧ (s.tb e.tb).frame = e.frame ∧ (s.tb e.tb).rind = some e.line)

/-- Does another late TAKE still wait to start its copy (R95)? -/
def State.lateWaiting (s : State) : Bool :=
  s.bank.any fun c => c.late && decide (c.state = .waiting)

/-- The result of the checks of R77, in their order. -/
def State.evCheck (s : State) (e : Event) : Nat :=
  if e.kind = .pageCommit ∨ e.kind = .layerCommit then evBadKind
  else if (s.tb e.tb).state = .off then evBadTb
  else if !evLineOk e (s.tb e.tb) then evBadLine
  else if !s.evArgOk e then evBadArg
  else if s.deadlinePassed e.kind e.tb e.frame e.line e.sample || (s.lateTake e && s.lateWaiting) then evLate
  else if scheduleSize ≤ s.events.length then evQfull
  else evOk

/-- A late TAKE accepted starts its copy on the late write port, or waits behind the one in progress (R95). -/
def State.startLateCopy (s : State) (e : Event) (h : Nat) : State :=
  if s.lateTake e then
    let busy := s.bank.any fun c => c.late && decide (c.state = .copying)
    { s with bank := s.bank ++
        [{ owner := .event h, tb := e.tb, late := true, state := if busy then .waiting else .copying
           entries := s.salvo e.arg, routes := [], phases := [] }] }
  else s

/-- Submit an event: enter it whole or not at all; the answer is the result code and the handle (R77). -/
def State.submit (s : State) (e : Event) : State × Nat × Nat :=
  let code := s.evCheck e
  if code = evOk then (((s.enter e).startLateCopy e s.nextHandle), evOk, s.nextHandle) else (s, code, 0)

end Sys2Proof.Machine
end

