-- ==== Sys2Proof/Machine/Commits.lean ====
section
/-! DEFINITION. The commit model's own operations (R35 to R38): request, refusal, capture, application, withdrawal,
for the header commit and for every cell commit register. -/

namespace Sys2Proof.Machine

/-! ### Commit registers -/

/-- The numbers of commit units: 0 the header commit; n + 1 a flow, a layer or a raster of IPP; 0x101 + n a stream
slot. -/
abbrev unitStrm (n : Nat) : Nat := n + 0x101

/-- The cell and the COMMIT bit of a commit unit of a page. -/
def commitField (p u : Nat) : Nat × Field :=
  if u = 0 then (0, F.hdrCommit)
  else if p = pgFlow then (u - 1, F.flowwinFlowCommitCommit)
  else if pgCpo 0 ≤ p ∧ p ≤ pgCpo 15 then (u - 1, F.cpoLCommitCommit)
  else if 0x101 ≤ u then (u - 0x101, F.ippStrmCommitCommit)
  else (u - 1, F.rstCommit)

/-- Is a commit of the unit requested and not yet applied? -/
def State.commitPending (s : State) (p u : Nat) : Bool := s.flag (home p) (commitField p u).1 (commitField p u).2

/-- Write the unit's COMMIT bit. -/
def State.putCommit (s : State) (p u : Nat) (v : Bool) : State :=
  s.put (home p) (commitField p u).1 (commitField p u).2 (ofBool v)

/-- The unit's event ends in a state, where it has one. -/
def State.endUnitEvent (s : State) (p u : Nat) (st : SlotState) : State :=
  match (s.unit p u).handle with
  | some h => s.endEvent h st
  | none => s

/-- A commit that a profile carries is over (R341). -/
def State.profSettled (s : State) (p u : Nat) : State :=
  if s.profPreps.isEmpty then s
  else { s with profPreps := s.profPreps.map fun x =>
    { x with units := x.units.filter fun y => decide (y ≠ (p, u)) } }

/-- A commit that a profile carries is refused: it is counted, and a profile whose switch point has passed turns PARTIAL. -/
def State.profRefused (s : State) (p u : Nat) : State :=
  if s.profPreps.all fun x => decide ((p, u) ∉ x.units) then s
  else
    let s1 := { s with profPreps := s.profPreps.map fun x =>
      if (p, u) ∈ x.units then { x with refused := x.refused + 1 } else x }
    if s.profPreps.any fun x => x.done && decide ((p, u) ∈ x.units) then
      ((s1.bumpSat pgProf 0 F.profProfLastRefused).put pgProf 0 F.profProfLastCode 1).raise pgProf 18
    else s1

/-- The commit is over: COMMIT clears and the unit's event is forgotten; the freeze stays as it is. A request accepted
after the capture takes its place, and COMMIT still reads 1 (R35). -/
def State.closeCommit (s0 : State) (p u : Nat) : State :=
  let s := s0.profSettled p u
  let x := s.unit p u
  match x.next with
  | none => (s.putCommit p u false).putUnit p u { x with captured := false, frame := none, handle := none }
  | some r => s.putUnit p u
      { x with captured := false, frame := r.map Prod.fst, handle := r.map Prod.snd, next := none }

/-- A commit is applied: shadow copies become active, COMMIT clears, COMMIT_DONE is set, its event is APPLIED (R35). -/
def State.applyCommit (s : State) (p u : Nat) : State :=
  ((((s.applyShadow p u).endUnitEvent p u .applied).closeCommit p u).raise p intCommitDone).caveMark p

/-- A commit is refused at its commit point: COMMIT clears, the shadow copies keep their values (R190, R216). -/
def State.refuseCommit (s : State) (p u err : Nat) : State :=
  (((s.profRefused p u).endUnitEvent p u .applied).closeCommit p u).setErr p err

/-- The capture instant of the unit's commit point in a frame: its shadow copy is frozen, and a pending commit for
that frame, or for none, is captured (R35, R37). -/
def State.capture (s : State) (p u frame : Nat) : State :=
  let x := s.unit p u
  let hit := s.commitPending p u && (match x.frame with | none => true | some f => decide (f ≤ frame))
  s.putUnit p u { x with frozen := true, captured := x.captured || hit }

/-- The freeze ends: staged writes join the shadow copy (R73). -/
def State.thaw (s : State) (p u : Nat) : State :=
  (s.unstage p u).putUnit p u { s.unit p u with frozen := false }

/-- A commit point: apply what was captured, then end the freeze. -/
def State.commitPoint (s : State) (p u : Nat) : State :=
  (if (s.unit p u).captured then s.applyCommit p u else s).thaw p u

/-- The request accepted after a capture goes; its event ends in a state. -/
def State.dropNext (s : State) (p u : Nat) (st : SlotState) : State :=
  let s1 := s.putUnit p u { s.unit p u with next := none }
  match (s.unit p u).next with
  | some (some (_, h)) => s1.endEvent h st
  | _ => s1

/-- Withdraw a pending commit that was not captured, or the request behind a captured one; its event is CANCELLED
(R38). -/
def State.cancelCommit (s : State) (p u : Nat) : State :=
  if !s.commitPending p u then s
  else if (s.unit p u).captured then s.dropNext p u .cancelled
  else (s.endUnitEvent p u .cancelled).closeCommit p u

/-- A commit completes at once: shadow copies become active, COMMIT clears, COMMIT_DONE is set. -/
def State.completeNow (s : State) (p u : Nat) : State :=
  let s1 := ((s.unstage p u).applyShadow p u).putCommit p u false
  ((s1.putUnit p u { s.unit p u with captured := false, frame := none, handle := none, next := none }).raise p
    intCommitDone).caveMark p

/-- An engine stops: with COMMIT = 1 the shadow copies are active at once, COMMIT clears and COMMIT_DONE is set; a
scheduled event stays, and only clears COMMIT when it falls (R38). -/
def State.stopCommit (s : State) (p u : Nat) : State :=
  if s.commitPending p u then s.completeNow p u else s

/-- A commit on an engine that does not run applies at once, or is refused for an error. -/
def State.completeOr (s : State) (p u : Nat) (err : Option Nat) : State :=
  match err with
  | some e => (s.unstage p u).refuseCommit p u e
  | none => s.completeNow p u

/-- An engine stops with a commit that its settings refuse, or as `stopCommit` says. -/
def State.stopCommitOr (s : State) (p u : Nat) (err : Option Nat) : State :=
  if s.commitPending p u then s.completeOr p u err else s

/-- Is there room for a request: none is pending, or the pending one is captured and none waits behind it? -/
def State.canRequest (s : State) (p u : Nat) : Bool :=
  !s.commitPending p u || ((s.unit p u).captured && (s.unit p u).next.isNone)

/-- Take a request, with its frame and event where it names one: COMMIT reads 1 until it is applied (R35). -/
def State.takeRequest (s : State) (p u : Nat) (r : Option (Nat × Nat)) : State :=
  let x := s.unit p u
  if s.commitPending p u then s.putUnit p u { x with next := some r }
  else (s.putCommit p u true).putUnit p u
    { x with captured := false, frame := r.map Prod.fst, handle := r.map Prod.snd, next := none }

/-- Request a commit at the unit's next commit point (R35). -/
def State.requestCommit (s : State) (p u : Nat) : State := if s.canRequest p u then s.takeRequest p u none else s

/-- Request a commit in a named frame (R37): BAD_VALUE where the timebase is OFF, then COMMIT_LATE, then SCHED_FULL,
and nothing is entered; else one event is entered and COMMIT reads 1. -/
def State.requestAtFrame (s : State) (p u tb frame line : Nat) (late : Bool) (kind : EvKind) (arg : Nat) : State :=
  if !s.canRequest p u then s
  else if (s.tb tb).state = .off then s.setErr p errBadValue
  else if late then s.setErr p errCommitLate
  else if scheduleSize ≤ s.events.length then s.setErr p errSchedFull
  else
    let e : Event :=
      { handle := 0, kind := kind, tb := tb, notify := false, line := line, frame := frame, sample := 0, arg := arg
        page := p, unit := u, origin := .page }
    (s.enter e).takeRequest p u (some (frame, s.nextHandle))

/-- Is a frame's capture instant, the start of the last line of the frame before, past on a timebase? -/
def State.frameLate (s : State) (tb frame : Nat) : Bool :=
  let t := s.tb tb
  if frame ≤ t.frame then true else t.late s.now (frame - 1) (fmtLines t.struct) 0 0

/-! ### Flushes (R69, R83) -/

/-- A pending event ends FLUSHED; a page's own event also clears its COMMIT (log entry 12); a copy made for a take
leaves the shadow crosspoint bank. -/
def State.flushEvent (s : State) (e : Event) : State :=
  let s1 := s.endEvent e.handle .flushed
  let s2 := { s1 with bank := s1.bank.filter fun c => decide (c.owner ≠ .event e.handle) }
  if e.origin ≠ .page then s2
  else if (s.unit e.page e.unit).handle = some e.handle then s2.closeCommit e.page e.unit
  else s2.dropNext e.page e.unit .flushed

/-- Flush every pending event of a timebase; FLUSHED is set on both pages where one ended (R69). -/
def State.flushTb (s : State) (k : Nat) : State :=
  let es := s.events.filter fun e => decide (e.tb = k)
  if es.isEmpty then s
  else ((es.foldl State.flushEvent s).raise (pgTb k) 20).raise pgSched 17

/-- Flow units whose flow a timebase governs. -/
def State.flowUnitOf (s : State) (k : Nat) (e : Key × CommitUnit) : Bool :=
  decide (e.1.page = pgFlow ∧ e.1.cell ≠ 0 ∧ s.get pgFlow (e.1.cell - 1) F.flowwinCtx0Tb = k)

/-- Every capture of a unit of a timebase's flows is released: the commit waits for the next switch point, and staged
writes join the shadow copies (R86). -/
def State.releaseFlowCommits (s : State) (k : Nat) : State :=
  (s.units.filter (s.flowUnitOf k)).foldl (fun s e =>
    (s.unstage pgFlow e.1.cell).putUnit pgFlow e.1.cell { s.unit pgFlow e.1.cell with captured := false, frozen := false }) s

end Sys2Proof.Machine
end

