-- ==== Sys2Proof/Machine/Timebases.lean ====
section
/-! DEFINITION. Timebases: starting and stopping, sync events, alignment, phase steps, frame boundaries (R57 to R70). -/

namespace Sys2Proof.Machine

/-- SOURCE codes (R57). -/
abbrev srcFree : Nat := 0
abbrev srcRefA : Nat := 1
abbrev srcRefB : Nat := 2
abbrev srcPtp : Nat := 3
abbrev srcBeacon : Nat := 4

/-- The active SOURCE of TB[k]. -/
def State.tbSource (s : State) (k : Nat) : Nat := s.get (pgTb k) 0 F.tbCtrlSource

/-- STATE codes of the STATE register. -/
def TbState.code : TbState → Nat
  | .off => 0 | .free => 1 | .acquire => 2 | .locked => 3 | .holdover => 4 | .mismatch => 5

/-- Has the timebase reached LOCKED since its last ACQUIRE and not left it for ACQUIRE again (R136, R193)? -/
def Timebase.lockedSinceAcquire (t : Timebase) : Bool :=
  match t.state with
  | .locked => true | .holdover => true | .mismatch => true
  | _ => false

/-- The average rate of the count over the last second of lock, in whole frames, or over the whole time since the timebase last
entered LOCKED where that is shorter; the offset of a slew is no part of it (R64, log entry 145). -/
def Timebase.average (t : Timebase) (now : Nat) : Int :=
  let span := (t.history.map Prod.fst).sum + (now - t.lockNs)
  if span = 0 then t.ppt
  else ((t.history.map Prod.snd).sum + t.ppt * (now - t.lockNs : Nat) + t.lockSum) / (span : Int)

/-- The newest entries that cover a second. -/
def lastSecond : Nat → List (Nat × Int) → List (Nat × Int)
  | _, [] => []
  | n, e :: l => if 1000000000 ≤ n then [] else e :: lastSecond (n + e.1) l

/-- The count leaves LOCKED or ends a frame of it at its average rate, which FREQ_OFS then shows (R64). -/
def Timebase.hold (t : Timebase) (now : Nat) : Timebase :=
  let a := t.average now
  if t.state = .locked then { t.settle now with ppt := a, freqOfs := a } else t

/-- A frame of lock ends: it joins the average, and the count goes on at that. -/
def Timebase.lockFrame (t : Timebase) (now : Nat) : Timebase :=
  if t.state = .locked then
    let e : Nat × Int := (now - t.lockNs, t.ppt * (now - t.lockNs : Nat) + t.lockSum)
    { t.hold now with history := lastSecond 0 (e :: t.history), lockNs := now, lockSum := 0 }
  else t

/-- The average starts afresh as the timebase enters LOCKED. -/
def Timebase.enterLock (t : Timebase) (now : Nat) : Timebase :=
  { t with state := .locked, agree := 0, badFrames := 0, lockNs := now, lockSum := 0, history := [] }

/-- A correction of the count by discipline: it moves the count and is part of the average rate. -/
def Timebase.discipline (t : Timebase) (d : Int) : Timebase :=
  { t.delay d with lockSum := t.lockSum -
      d * (rateDen t.rate * 1000000000000000000000 : Nat) / (fmtClock t.struct t.rate : Nat) }

/-- A slew stops where it is (R65). -/
def Timebase.endSlew (t : Timebase) (now : Nat) : Timebase := { t.settle now with slewErr := 0 }

/-- SLEWING: the phase error that a slew has still to correct is not within GLITCH_WIN (R67). -/
def State.tbSlewing (s : State) (k : Nat) : Bool :=
  let t := s.tb k
  decide (s.get (pgTb k) 0 F.tbGlitchWinWin < (t.slewErr - t.slewed s.now).natAbs)

/-! ### PTP on a link (R144, R145) -/

/-- The timebases that follow PTP on a link. -/
def State.ptpTimebases (s : State) (p l : Nat) : List Nat :=
  [0, 1, 2, 3].filter fun k =>
    decide (s.tbSource k = srcPtp ∧ (s.tb k).state ≠ .off ∧ s.get (pgTb k) 0 F.tbPtpSelPort = p ∧
      s.get (pgTb k) 0 F.tbPtpSelLane = l)

/-- The domain that a client serves: that of the lowest timebase that follows PTP on its link. -/
def State.ptpDomain (s : State) (p l : Nat) : Option Nat :=
  (s.ptpTimebases p l).head?.map fun k => s.get (pgTb k) 0 F.tbPtpSelDomain

/-- The timebases that the client serves. -/
def State.ptpServed (s : State) (p l : Nat) : List Nat :=
  (s.ptpTimebases p l).filter fun k => decide (some (s.get (pgTb k) 0 F.tbPtpSelDomain) = s.ptpDomain p l)

/-- Two domains on one link are a conflict. -/
def State.ptpConflict (s : State) (p l : Nat) : State :=
  if (s.ptpServed p l).length < (s.ptpTimebases p l).length then s.setErr (pgIpp p) 19 else s

/-! ### Start, stop, reset (R61, R62, R70) -/

/-- A timebase whose settings change names a link: a second domain there is a conflict (R145). -/
def State.tbConflict (s : State) (k : Nat) : State :=
  if s.tbSource k = srcPtp then s.ptpConflict (s.get (pgTb k) 0 F.tbPtpSelPort) (s.get (pgTb k) 0 F.tbPtpSelLane) else s

/-- Set RUN's effect: the counter starts at (0, 1, 0), or at an armed preset (R61, R62). -/
def State.tbStart (s : State) (k : Nat) : State :=
  let p := pgTb k
  let armed := s.flag p 0 F.tbPresetArmArm
  let honoured := decide (s.tbSource k ≤ srcRefB)
  let n := if armed && honoured then s.frame48 p 0 F.tbPresetLoFrameLo F.tbPresetHiFrameHi else 0
  let t : Timebase :=
    { Timebase.cold with
      state := if s.tbSource k = srcFree then .free else .acquire
      startNs := s.now, rateFrom := s.now, freqOfs := (s.tb k).freqOfs, frame := n, struct := s.get p 0 F.tbFormatStruct, rate := s.get p 0 F.tbFormatRate }
  let s0 := ((s.putTb k t).putRunning p true).put p 0 F.tbPresetArmArm 0
  let s1 := s0.tbConflict k
  if armed && !honoured then s1.setErr p errBadValue else s1

/-- An engine reset of a timebase that runs (R70): the counter goes on as in HOLDOVER, only the qualification is over. -/
def State.tbCoast (s : State) (k : Nat) : State :=
  let t := (s.tb k).hold s.now
  (s.putTb k { t.endSlew s.now with
    state := if t.state = .locked then .holdover else t.state, agree := 0, offRun := [], badFrames := 0
    jumpEnd := none, jumpErr := 0, lastSync := none, heard := none }).putRunning (pgTb k) false

/-- The restored settings resume a timebase whose counter has gone on: ACQUIRE without a flush, or FREE; its alignment follows
R67 (R70). -/
def State.tbResume (s : State) (k : Nat) : State :=
  let p := pgTb k
  let free := decide (s.tbSource k = srcFree)
  let t := (s.tb k).settle s.now
  ((s.putTb k { t with
    state := if free then .free else .acquire, ppt := if free then 0 else t.ppt, agree := 0, offRun := [], lastSync := none, heard := none
    struct := s.get p 0 F.tbFormatStruct, rate := s.get p 0 F.tbFormatRate, resumed := true, epoch := none }).putRunning p true).tbConflict k

/-- A TAKE pin on which nothing is pending. -/
def TakePin.idle : TakePin := { pending := false, following := false, heldCfg := none, edge := .none }

/-- A TAKE pin. -/
def State.pin (s : State) (n : Nat) : TakePin := Tab.at TakePin.idle s.pins n

/-- Write a TAKE pin. -/
def State.putPin (s : State) (n : Nat) (x : TakePin) : State := { s with pins := Tab.put n x s.pins }

/-- A pin's pending take goes, with what it copied. -/
def State.dropPin (s : State) (n : Nat) : State :=
  { s with
    pins := Tab.put n { s.pin n with pending := false, following := false, edge := .none } s.pins
    bank := s.bank.filter fun c => decide (c.owner ≠ .pin n) }

/-- A PIN_CFG write takes effect: arming an empty salvo is refused (R97). -/
def State.applyPinCfg (s : State) (n w : Nat) : State :=
  let s1 := (s.put pgCore 0 (pinTb n) (bits w 24 2)).put pgCore 0 (pinSalvo n) (bits w 0 8)
  if bit w 31 then
    if (s1.salvo (bits w 0 8)).isEmpty then (s1.put pgCore 0 (pinArm n) 0).setErr pgCore errBadValue
    else s1.put pgCore 0 (pinArm n) 1
  else s1.put pgCore 0 (pinArm n) 0

/-- A held PIN_CFG write takes effect once no take is pending. -/
def State.releasePinCfg (s : State) (n : Nat) : State :=
  match (s.pin n).heldCfg with
  | some w => (s.putPin n { s.pin n with heldCfg := none }).applyPinCfg n w
  | none => s

/-- Drop the pending pin takes of a timebase that turns OFF; what a PIN_CFG write left waiting for them takes effect (R97). -/
def State.dropPinTakes (s : State) (k : Nat) : State :=
  [0, 1, 2, 3].foldl (fun s n =>
    if (s.pin n).pending && decide (s.get pgCore 0 (pinTb n) = k) then (s.dropPin n).releasePinCfg n else s) s

/-- The counter stops: the timebase reads OFF, pending pin takes are dropped, captured flow commits are released (R64, R86, R97);
its own requested commit is applied at once (R38). -/
def State.tbStill (s : State) (k : Nat) : State :=
  let s0 := (s.dropPinTakes k).releaseFlowCommits k
  let s1 := s0.putTb k { s.tb k with state := .off, rind := none, slewErr := 0, jumpEnd := none, jumpErr := 0 }
  (s1.putRunning (pgTb k) false).stopCommit (pgTb k) 0

/-- The counter stops and its pending events are flushed (R69). -/
def State.tbHalt (s : State) (k : Nat) : State := (s.flushTb k).tbStill k

/-! ### Sync events (R57, R64 to R68) -/

/-- A signed count of samples brought into half a frame either way. -/
def wrapPhase (frame : Nat) (d : Int) : Int :=
  let r := d % (frame : Int)
  if 2 * r > frame then r - frame else r

/-- Where a sync event of a line lies against the counter, in samples (R66). -/
def Timebase.syncError (t : Timebase) (now line : Nat) : Int :=
  let f := fmtFrameSamples t.struct t.rate
  wrapPhase f (t.count now - ((line - 1) * fmtSamples t.struct t.rate : Nat))

/-- Samples by which 0H of a line comes before its sample 0 (R415). -/
def refLead : Nat → Nat
  | 0 => 192 | 1 => 192 | 2 => 260 | 3 => 132 | 4 => 122 | 5 => 384 | 6 => 768
  | _ => 0

/-- Where an H edge of a reference lies against the counter, in samples (R66, R415). -/
def Timebase.edgeError (t : Timebase) (now line : Nat) : Int :=
  wrapPhase (fmtFrameSamples t.struct t.rate) (t.syncError now line + refLead t.struct)

/-- Samples of a timebase in picoseconds, saturated to PHASE_ERR. -/
def Timebase.samplesPs (t : Timebase) (e : Int) : Int :=
  e * 1000000000000 * rateDen t.rate / fmtClock t.struct t.rate

/-- Does the time since the last sync event fit a whole number of line periods to 500 ppm of a rate, `ppt` off nominal (R64, R68)?
One nanosecond of timestamp is allowed (log entry 10). -/
def Timebase.periodOk (t : Timebase) (now lines : Nat) (ppt : Int) : Bool :=
  match t.lastSync with
  | none => true
  | some l =>
    let have_ : Int := ((now - l) * fmtClock t.struct t.rate : Nat)
    let nominal : Int := (lines * fmtSamples t.struct t.rate * rateDen t.rate * 1000000000 : Nat)
    let want := nominal - nominal * ppt / pptScale
    let tol := want / 2000 + (fmtClock t.struct t.rate : Nat)
    decide (have_ ≤ want + tol ∧ want ≤ have_ + tol)

/-- The rate that a sync event's period is judged against: nominal in ACQUIRE, else the current or held rate (R64, R68). -/
def Timebase.judged (t : Timebase) : Int := if t.state = .acquire then 0 else t.ppt

/-- The timebase aligns and enters LOCKED (R64): RELOCK is set. -/
def State.tbLock (s : State) (k : Nat) (t : Timebase) : State := (s.putTb k (t.enterLock s.now)).raise (pgTb k) 17

/-- Samples from a position of the reference's frame to the end of the frame in progress by a jump: its end at the new phase, the
first that lies at least two line periods on (R67). -/
def jumpWait (frame line : Nat) (into : Int) : Int :=
  let left := (frame : Int) - into % (frame : Int)
  if left < 2 * (line : Int) then left + frame else left

/-- A phase step is corrected: by a jump at a frame boundary, or by a slew at PHASE_SLEW (R67). `e` is the whole phase error
against the count. -/
def State.tbStep (s : State) (k : Nat) (t0 : Timebase) (e : Int) (jump : Bool) : Timebase :=
  let t := t0.endSlew s.now
  if jump then
    let wait := jumpWait (fmtFrameSamples t.struct t.rate) (fmtSamples t.struct t.rate) (t.count s.now - e)
    { t with jumpEnd := some (s.now + nsOf t.struct t.rate wait.toNat), jumpErr := e, offRun := [] }
  else
    { t with slewErr := e - t.jumpErr, slewFrom := s.now, slewPpm := s.get (pgTb k) 0 F.tbPhaseSlewPpm, offRun := [] }

/-- The number of the frame that the next boundary begins, where the reference is in its frame `n` and the count lies `e` samples
off it: a jump ends the frame with one of the reference's, a slew meets the reference's nearest (R61, R78). -/
def Timebase.epochNext (t : Timebase) (now n : Nat) (e : Int) (jump : Bool) : Nat :=
  let f : Int := fmtFrameSamples t.struct t.rate
  let pos := t.count now
  let into := (pos - e) % f
  let past : Int := if jump then (if f - into < 2 * (fmtSamples t.struct t.rate : Int) then 1 else 0) else (e - pos + into) / f
  ((n : Int) + 1 + past).toNat % frameModulus

/-- What a step in progress will still correct of the phase error. -/
def Timebase.stepLeft (t : Timebase) (now : Nat) : Int := t.slewErr - t.slewed now + t.jumpErr

/-- A sync event in ACQUIRE: the third consistent one aligns the timebase and enters LOCKED, by a jump, or with
ACQ_SLEW by a slew (R64). `epoch` is the frame number that the reference carries for the frame in progress. -/
def State.syncAcquire (s : State) (k : Nat) (t : Timebase) (e0 : Int) (ok : Bool) (epoch : Option Nat) : State :=
  let n := if ok then t.agree + 1 else 1
  let e := wrapPhase (fmtFrameSamples t.struct t.rate) e0
  if n < 3 then s.putTb k { t with agree := n }
  else
    let jump := (if t.resumed then s.flag (pgTb k) 0 F.tbCtrlJumpEn else !s.flag (pgTb k) 0 F.tbCtrlAcqSlew) && decide (e ≠ 0)
    let t1 := if e = 0 then t else s.tbStep k t e jump
    s.tbLock k { t1 with epoch := epoch.map fun n => t.epochNext s.now n e jump, resumed := false }

/-- Do three off-position events agree with one another to within GLITCH_WIN (R66)? -/
def agreeing (frame : Nat) (win : Int) : List Int → Bool
  | [a, b, c] => [a - b, b - c, a - c].all fun d => decide ((wrapPhase frame d).natAbs ≤ win)
  | _ => false

/-- A sync event judged by its position, which a step in progress has moved: off position it is ignored and counted, and the third
of three that agree is a phase step; in the window it ends their run, and `use` says whether it disciplines the count (R66, R67). An event of another rate (`ok` false) is
not used: it begins a run afresh (R68). A beacon's position counts whole frames, by the FRAME that it carries (R289); of every other
source only the place in its frame counts. -/
def State.syncPlaced (s : State) (k : Nat) (t : Timebase) (e : Int) (use ok : Bool) : State :=
  let p := pgTb k
  let f := fmtFrameSamples t.struct t.rate
  let win : Int := s.get p 0 F.tbGlitchWinWin
  let left := e - t.stepLeft s.now
  let d := if s.tbSource k = srcBeacon then left else wrapPhase f left
  if -win ≤ d ∧ d ≤ win then
    s.putTb k { (if use ∧ ¬(-1 ≤ d ∧ d ≤ 1) then t.discipline d else t) with offRun := [] }
  else
    let run := if ok then d :: t.offRun else [d]
    if use && agreeing f win run then
      ((s.putTb k (s.tbStep k t e (s.flag p 0 F.tbCtrlJumpEn))).bump p 0 F.tbEventCntSteps).raise p 18
    else (s.putTb k { t with offRun := run.take 2 }).bump p 0 F.tbGlitchCntCount

/-- A sync event in HOLDOVER or MISMATCH: the third consistent one returns to LOCKED, and the phase error then is
corrected under R66 and R67; the events before it that lie off position are ignored and counted. -/
def State.syncReturn (s : State) (k : Nat) (t : Timebase) (e : Int) (ok : Bool) : State :=
  let n := if ok then t.agree + 1 else 1
  if n < 3 then s.syncPlaced k { t with agree := n } e false ok
  else (s.tbLock k t).syncPlaced k (t.enterLock s.now) e true true

/-- A sync event in LOCKED: one whose period differs by more than 500 ppm from the current rate is not used for discipline (R66,
R68). -/
def State.syncLocked (s : State) (k : Nat) (t : Timebase) (e : Int) (ok : Bool) : State :=
  s.syncPlaced k t e ok ok

/-- One sync event of the reference that a running timebase follows, the count lying `e` samples ahead of it; PHASE_ERR is the offset that
R289 names, above 0 where the count is late (log entry 208). A timebase that is being reset takes none (R70). -/
def State.sync (s : State) (k : Nat) (e : Int) (ok : Bool) (epoch : Option Nat) : State :=
  let t0 := s.tb k
  let t := { t0 with lastSync := some s.now, heard := some s.now, phaseErr := -t0.samplesPs e }
  if s.resetting (pgTb k) then s
  else match t.state with
  | .off => s
  | .free => s
  | .acquire => s.syncAcquire k t e ok epoch
  | .locked => s.syncLocked k t e ok
  | .holdover => s.syncReturn k t e ok
  | .mismatch => s.syncReturn k t e ok

/-- Picoseconds in whole nanoseconds, the nearest. -/
def nearestNs (ps : Int) : Int := (ps + 500) / 1000

/-- The count moves later by picoseconds, in the whole nanoseconds of the model's clock, as discipline does. -/
def Timebase.disciplinePs (t : Timebase) (ps : Int) : Timebase :=
  let n := nearestNs ps
  { t with
    startNs := (t.startNs + n).toNat, jumpEnd := t.jumpEnd.map fun x => (x + n).toNat
    lockSum := t.lockSum - n * 1000000000000 }

/-- A sync event whose offset is measured in picoseconds, above 0 where the count is late: what lies within a sample and disciplines a
LOCKED timebase is corrected as finely as the clock counts (R289, log entry 209). -/
def State.syncPs (s : State) (k : Nat) (ps : Int) (ok : Bool) (epoch : Option Nat) : State :=
  let t := s.tb k
  let e : Int := -ps * fmtClock t.struct t.rate / (rateDen t.rate * 1000000000000)
  let s1 := s.sync k e ok epoch
  let t1 : Timebase := { s1.tb k with phaseErr := ps }
  let fine := ok && decide (t.state = .locked ∧ t1.state = .locked ∧ -1 ≤ e ∧ e ≤ 1 ∧ t.stepLeft s.now = 0)
  if s.resetting (pgTb k) || decide (t.state = .off) then s1
  else s1.putTb k (if fine then t1.disciplinePs (-ps) else t1)

/-- A sync event that is not used, yet counts against loss (R57). -/
def State.syncHeard (s : State) (k : Nat) : State := s.putTb k { s.tb k with heard := some s.now }

/-- Nanoseconds of silence after which loss is declared: 2 expected line periods, under PTP 3 expected Sync intervals (R57). -/
def State.lossNs (s : State) (k : Nat) : Nat :=
  if s.tbSource k = srcPtp then 3000000000 / 2 ^ s.get (pgTb k) 0 F.tbPtpSelSyncLog
  else twoLinesNs (s.tb k).struct (s.tb k).rate

/-- Has a LOCKED timebase's reference been silent for that long (R57, R65)? -/
def State.tbSilent (s : State) (k : Nat) : Bool :=
  decide ((s.tb k).state = .locked) &&
    match (s.tb k).heard with
    | some n => decide (n + s.lossNs k ≤ s.now)
    | none => true

/-- Loss: HOLDOVER at the average rate of the last second of lock, a slew stops, LOSS is set and a fault recorded (R64, R65). -/
def State.tbLoss (s : State) (k : Nat) : State :=
  let p := pgTb k
  let s1 := s.putTb k { ((s.tb k).hold s.now).endSlew s.now with state := .holdover, agree := 0, offRun := [] }
  ((s1.bump p 0 F.tbEventCntLoss).raise p 16).fault fltRefLoss respMasked 0 p fltWhole 0

/-! ### Frame boundaries (R60 to R62, R69) -/

/-- Do the shadow copies of SOURCE, FORMAT, PTP_SEL and REF_CFG differ from the active ones (R69)? -/
def State.tbCommitChanges (s : State) (k : Nat) : Bool :=
  (F.tbFields.filter fun f => decide (f.cls = .shadow)).any fun f =>
    decide (s.getShadow (pgTb k) 0 f ≠ s.get (pgTb k) 0 f)

/-- What a commit that changes a timebase's fields does at the boundary: pending events are flushed and the timebase
runs the new format, FREE at the nominal rate, or from ACQUIRE at the current rate until alignment (R64, R69). -/
def State.tbRestart (s : State) (k : Nat) : State :=
  let p := pgTb k
  let s1 := s.flushTb k
  let free := decide (s1.tbSource k = srcFree)
  let t := ((s1.tb k).hold s.now).settle s.now
  s1.putTb k { t with
    state := if free then .free else .acquire, ppt := if free then 0 else t.ppt
    struct := s1.get p 0 F.tbFormatStruct, rate := s1.get p 0 F.tbFormatRate, agree := 0, offRun := [], badFrames := 0
    slewErr := 0, jumpEnd := none, jumpErr := 0, lastSync := none, heard := none, epoch := none }

/-- The timebase's commit point (R69): a captured commit applies; one that changes a field restarts qualification. -/
def State.tbCommitPoint (s : State) (k : Nat) : State :=
  let p := pgTb k
  let changes := (s.unit p 0).captured && s.tbCommitChanges k
  let s1 := s.commitPoint p 0
  if changes then (s1.tbRestart k).tbConflict k else s1

/-- The number of the frame that begins at a boundary, and whether it is not the next one: an armed preset where the
source honours it, the epoch number at the first alignment under PTP or BEACON, else the next number (R61, R62). -/
def State.nextFrame (s : State) (k : Nat) : Nat × Bool :=
  let p := pgTb k
  let t := s.tb k
  if s.flag p 0 F.tbPresetArmArm && decide (s.tbSource k ≤ srcRefB) then
    (s.frame48 p 0 F.tbPresetLoFrameLo F.tbPresetHiFrameHi, true)
  else match t.epoch with
    | some n => (n, decide (s.tbSource k = srcPtp ∧ n ≠ (t.frame + 1) % frameModulus))
    | none => ((t.frame + 1) % frameModulus, false)

/-- A frame boundary: the frame number advances, a preset or an epoch number loads (flushing), a jump ends, and the
timebase's commit point passes (R60, R62, R67, R69). -/
def State.tbBoundary (s : State) (k : Nat) : State :=
  let p := pgTb k
  let (n, flush) := s.nextFrame k
  let s1 := if flush then s.flushTb k else s
  let s2 := s1.putTb k { ((s1.tb k).lockFrame s.now).settle s.now with
    frame := n, startNs := s.now, jumpEnd := none, jumpErr := 0, jumped := (s1.tb k).jumpEnd.isSome, epoch := none }
  let s3 := if s.tbSource k ≤ srcRefB then s2.put p 0 F.tbPresetArmArm 0 else s2
  s3.tbCommitPoint k

/-- A frame of sync events at another rate (R68): HOLDOVER without a loss at the first, MISMATCH at the third. -/
def State.rateFrame (s : State) (k : Nat) : State :=
  let t := s.tb k
  let t1 := { (t.hold s.now).endSlew s.now with badFrames := t.badFrames + 1, agree := 0, offRun := [] }
  match t.state with
  | .locked => s.putTb k { t1 with state := .holdover, badFrames := 1 }
  | .holdover =>
    if 3 ≤ t1.badFrames then (s.putTb k { t1 with state := .mismatch }).raise (pgTb k) 19 else s.putTb k t1
  | _ => s

end Sys2Proof.Machine
end

