-- ==== Sys2Proof/Machine/Flows.lean ====
section
/-! DEFINITION. Flows: contexts, device allocations in HBM, frame stores, the choice between bypass and frame store,
loss of a source (R84 to R93, R112 to R115, R400). -/

namespace Sys2Proof.Machine

/-! ### Contexts (R85 to R87) -/

/-- A flow that does nothing. -/
def FlowRun.idle : FlowRun :=
  { producing := false, lastSegNs := 0, line := 0, lineNs := 0, frame := 0, partLine := [], errored := false, sig := 0
    sealState := 0, alive := (0, 0), store := none, lost := false, path := .none, shown := none, shownNs := 0, slip := none
    mismatch := false, armPhase := none, hears := .direct, heard := .direct, fadeNs := 0, fadeLen := 0
    delayNs := none, oldDelay := 0, takenNs := 0 }

/-- What flow f does. -/
def State.run (s : State) (f : Nat) : FlowRun := Tab.at FlowRun.idle s.runs f

/-- Write what flow f does. -/
def State.putRun (s : State) (f : Nat) (r : FlowRun) : State := { s with runs := Tab.put f r s.runs }

/-- Is the flow's context allocated? -/
def State.flowValid (s : State) (f : Nat) : Bool := s.flag pgFlow f F.flowwinCtx0Valid

/-- Is the flow enabled? -/
def State.flowEn (s : State) (f : Nat) : Bool := s.flag pgFlow f F.flowwinCtx0En

/-- Is the flow an allocated egress flow? -/
def State.isEgress (s : State) (f : Nat) : Bool := s.flowValid f && s.flag pgFlow f F.flowwinCtx0Dir

/-- Is the flow an allocated ingress flow? -/
def State.isIngress (s : State) (f : Nat) : Bool := s.flowValid f && !s.flag pgFlow f F.flowwinCtx0Dir

/-- TYPE codes. -/
abbrev typeVideo : Nat := 0
abbrev typeAudio : Nat := 1
abbrev typeAnc : Nat := 2

/-- TYPE of a flow. -/
def State.flowType (s : State) (f : Nat) : Nat := s.get pgFlow f F.flowwinCtx0Type

/-- The flow's port kind, port and stream. -/
def State.flowPort (s : State) (f : Nat) : Nat × Nat × Nat :=
  (s.get pgFlow f F.flowwinCtx0PortKind, s.get pgFlow f F.flowwinCtx0Port, s.get pgFlow f F.flowwinCtx0Stream)

/-- Flow contexts of the table. -/
abbrev flowCount : Nat := 4096

/-- Free contexts (FREE_COUNT). -/
def State.freeContexts (s : State) : Nat :=
  flowCount - (s.regs.filter fun e =>
    decide (e.1.page = pgFlow ∧ e.1.slot = F.flowwinCtx0Valid.slot ∧ e.2 = 1)).length

/-- The allocated flows, by their listed VALID bits. -/
def State.flows (s : State) : List Nat :=
  (s.regs.filter fun e => decide (e.1.page = pgFlow ∧ e.1.slot = F.flowwinCtx0Valid.slot ∧ e.2 = 1)).map fun e => e.1.cell

/-- The crosspoint map's entry of an egress flow (R88). -/
def State.xpOf (s : State) (f : Nat) : XpEntry := Tab.at (xpDisconnect f) s.xp f

/-- The entry that is visible on an egress flow: the map's, or until its raster's switch point the one before (R94). -/
def State.xpSeen (s : State) (f : Nat) : XpEntry := (Assoc.find id f s.xpOld).getD (s.xpOf f)

/-- The ingress flow an egress flow reads. -/
def State.sourceOf (s : State) (f : Nat) : Option Nat :=
  if (s.xpSeen f).disconnect then none else some (s.xpSeen f).source

/-- Egress flows whose active crosspoint selects this flow (FANOUT). -/
def State.readers (s : State) (f : Nat) : List Nat :=
  s.flows.filter fun e => s.isEgress e && decide ((s.xpOf e).disconnect = false ∧ (s.xpOf e).source = f)

/-- The flow of a direction on a port's stream, enabled. -/
def State.flowOn (s : State) (kind port stream : Nat) (egress : Bool) : Option Nat :=
  s.flows.find? fun f =>
    decide (s.flowPort f = (kind, port, stream)) && (s.flag pgFlow f F.flowwinCtx0Dir == egress) && s.flowEn f

/-- Every field of a context takes its cold value (R85). -/
def State.clearContext (s : State) (f : Nat) : State :=
  { s with
    regs := s.regs.filter fun e =>
      !(decide (e.1.page = pgFlow ∧ e.1.cell = f ∧ 0x0A0 * 32 ≤ e.1.slot ∧ e.1.slot < 0x0C0 * 32))
    shadow := s.shadow.filter fun e => !(decide (e.1.page = pgFlow ∧ e.1.cell = f))
    staged := s.staged.filter fun e => !(decide (e.1.page = pgFlow ∧ e.1.cell = f))
    runs := Tab.del f s.runs }

/-! ### Device allocations (R400) -/

/-- Does a range miss every allocation? -/
def rangeFree (as : List Alloc) (base size : Nat) : Bool :=
  as.all fun a => decide (base + size ≤ a.base ∨ a.base + a.size ≤ base)

/-- The lowest start in the device region where a range fits: at the boundary or behind an allocation (log entry 13). -/
def State.findRoom (s : State) (size : Nat) : Option Nat :=
  let starts := (s.deviceBase :: s.allocs.map fun a => a.base + a.size).filter fun b =>
    decide (s.deviceBase ≤ b ∧ b + size ≤ hbmBase + hbmSize) && rangeFree s.allocs b size
  starts.foldl (fun m b => match m with | none => some b | some x => some (min x b)) none

/-- Allocate a range for an owner. -/
def State.allocate (s : State) (owner : Nat × Nat) (size : Nat) : Option (Nat × State) :=
  match s.findRoom size with
  | some b => some (b, { s with allocs := { owner := owner, base := b, size := size } :: s.allocs })
  | none => none

/-- Release an owner's ranges. -/
def State.release (s : State) (owner : Nat × Nat) : State :=
  { s with allocs := s.allocs.filter fun a => decide (a.owner ≠ owner) }

/-! ### Frame stores (R87, R112) -/

/-- Bytes of a packed frame of the active picture. -/
def frameBytes (struct sampling depth : Nat) : Nat :=
  (fmtWidth struct * fmtHeight struct * samplingWords sampling * depthBits depth + 15) / 16

/-- Bytes of the audio area: 64 channels of 32-bit samples at 192 kHz over one frame period plus 10 ms (R87). -/
def audioAreaBytes (rate : Nat) : Nat :=
  64 * 4 * ((192000 * rateDen rate + rateNum rate - 1) / rateNum rate + 1920)

/-- Bytes of a frame store, each buffer rounded up to 4 KiB (log entry 13). -/
def storeBytes (struct rate sampling depth buffers : Nat) : Nat :=
  buffers * ((frameBytes struct sampling depth + audioAreaBytes rate + 4095) / 4096 * 4096)

/-- The store a flow's context asks for. -/
def State.storeNeed (s : State) (f : Nat) : Nat :=
  storeBytes (s.get pgFlow f F.flowwinCtx1Struct) (s.get pgFlow f F.flowwinCtx1Rate)
    (s.get pgFlow f F.flowwinCtx1Sampling) (s.get pgFlow f F.flowwinCtx1Depth) (s.get pgFlow f F.flowwinCtx2FsDepth)

/-- The owner of a flow's store. -/
abbrev storeOwner (f : Nat) : Nat × Nat := (pgFlow, f)

/-- Give a flow its store: none where the device region has no room beside the other allocations. It takes the place of an old
store, which is released. -/
def State.giveStore (s : State) (f : Nat) : Option State :=
  match (s.release (storeOwner f)).allocate (storeOwner f) (s.storeNeed f) with
  | none => none
  | some (b, s1) =>
    some (s1.putRun f { s1.run f with
      store := some { base := b, size := s.storeNeed f, depth := s.get pgFlow f F.flowwinCtx2FsDepth, buffers := [] } })

/-- A flow's store goes. -/
def State.dropStore (s : State) (f : Nat) : State :=
  (s.release (storeOwner f)).putRun f { s.run f with store := none }

/-- A flow with FS_EN and a store has its writer while HBM is trained and the flow enabled (R87, R112). -/
def State.fsWriter (s : State) (f : Nat) : Bool :=
  decide (s.hbm = .ready) && (s.run f).store.isSome && s.flowEn f

/-- FS_ACTIVE: the store is being written (R87). -/
def State.fsActive (s : State) (f : Nat) : Bool := s.fsWriter f && (s.run f).producing

/-- A buffer that is complete at an instant (R112). -/
def FsBuffer.ready (b : FsBuffer) (now : Nat) : Bool := b.complete && decide (b.endNs ≤ now)

/-- The writer's partial frame is marked incomplete and is never read (R112): it is dropped. -/
def State.dropPartial (s : State) (f : Nat) : State :=
  match (s.run f).store with
  | some st => s.putRun f { s.run f with store := some { st with buffers := st.buffers.filter fun b => b.complete } }
  | none => s

/-- The writer writes a line: the first of the picture begins a buffer in ring order, which counts from the frame's line 1 with the
audio since then, the last active line completes it (R112, R238). -/
def FrameStore.writeLine (st : FrameStore) (struct line now begun frame : Nat) (audio : List (Nat × Nat × Option Nat)) (errored : Bool)
    (bytes : Bytes) : FrameStore :=
  let first := decide ((fmtFirstActive struct).head? = some line)
  let next := (st.buffers.head?.map fun b => b.seq + 1).getD 0
  let bufs := if first then
      ({ seq := next, frame := frame, begunNs := begun, secondNs := none, complete := false, endNs := now, lines := [], audio := audio } : FsBuffer) ::
        (st.buffers.filter fun b => b.complete)
    else st.buffers
  match bufs with
  | b :: t =>
    let b' := { b with
      secondNs := if (fmtFirstActive struct)[1]? = some line then some now else b.secondNs
      lines := (line, errored, bytes) :: b.lines, complete := decide (line = fmtLastActive struct), endNs := now }
    { st with buffers := (if b.complete then bufs else b' :: t).take st.depth }
  | [] => st

/-! ### Rasters as egress timing (R91, R211) -/

/-- A raster that does not run. -/
def Raster.idle : Raster :=
  { running := false, startNs := 0, frame := 0, struct := 0, rate := 5, mode := 0, tb := 0, offset := 0, lines := 0
    lastLine := 0, line := 0, waiting := false, regap := false, gap := false, black := false, align := .steady, sig := 0, prevSig := 0
    prevAlive := (0, 0), frozen := 0, underran := [] }

/-- The raster of a cell of a page. -/
def State.raster (s : State) (p c : Nat) : Raster := (Assoc.find Key.code ⟨p, c, 0⟩ s.rasters).getD Raster.idle

/-- Write a raster. -/
def State.putRaster (s : State) (p c : Nat) (r : Raster) : State :=
  { s with rasters := Assoc.set Key.code ⟨p, c, 0⟩ r s.rasters }

/-- PORT_KIND codes. -/
abbrev kindSdi : Nat := 0
abbrev kindIp : Nat := 1
abbrev kindFabric : Nat := 2
abbrev kindCnv : Nat := 3
abbrev kindCpo : Nat := 4
abbrev kindAup : Nat := 5

/-- The page and cell of the raster that carries an egress flow; none where no raster generator does. -/
def State.rasterOfFlow (s : State) (f : Nat) : Option (Nat × Nat) :=
  let (kind, port, stream) := s.flowPort f
  if kind = kindSdi then some (pgSditx port, 0)
  else if kind = kindIp then
    some (pgIpp port, s.get (pgIpp port) (strmCell 1 (stream % 64)) F.ippStrmCfgRaster)
  else none

/-- The instant at which the frame in progress began on a flow's egress raster: the raster's own start, or the
timebase's delayed by OFFSET (R91, R211). -/
def State.egressStart (s : State) (f : Nat) : Nat :=
  match s.rasterOfFlow f with
  | some (p, c) => (s.raster p c).startNs
  | none =>
    let t := s.tb (s.get pgFlow f F.flowwinCtx0Tb)
    t.startNs + nsOf t.struct t.rate (s.get pgFlow f F.flowwinCtx4Offset)

/-- When the frame that an egress flow is in began. -/
def State.egressFrameStart (s : State) (f : Nat) : Nat :=
  let t := s.tb (s.get pgFlow f F.flowwinCtx0Tb)
  if s.egressStart f ≤ s.now then s.egressStart f else s.egressStart f - nsOf t.struct t.rate (fmtFrameSamples t.struct t.rate)

/-- The format of a timebase, running or not. -/
def State.tbFormat (s : State) (k : Nat) : Nat × Nat :=
  let t := s.tb k
  if t.state = .off then (s.get (pgTb k) 0 F.tbFormatStruct, s.get (pgTb k) 0 F.tbFormatRate) else (t.struct, t.rate)

/-- The raster that a flow's engine puts out: its egress raster, or that of the compositor that returns it. -/
def State.engineRaster (s : State) (f : Nat) : Option (Nat × Nat) :=
  if s.isEgress f then s.rasterOfFlow f
  else if (s.flowPort f).1 = kindCpo then some (pgCpo (s.flowPort f).2.1, 0) else none

/-- The format whose line period times of a flow are given in: its governing timebase's, or that of its engine's output raster in
mode FREE (R7). -/
def State.lineFormat (s : State) (f : Nat) : Nat × Nat :=
  match (s.engineRaster f).map fun x => s.raster x.1 x.2 with
  | some r => if r.running && decide (r.mode = 3) then (r.struct, r.rate) else s.tbFormat (s.get pgFlow f F.flowwinCtx0Tb)
  | none => s.tbFormat (s.get pgFlow f F.flowwinCtx0Tb)

/-- The line period of a flow in nanoseconds, times a count (R7). -/
def State.linesNs (s : State) (f n : Nat) : Nat :=
  let (st, rt) := s.lineFormat f
  nsOf st rt (n * fmtSamples st rt)

/-- Is the flow's raster in ELASTIC_SLEW? -/
def State.egressElastic (s : State) (f : Nat) : Bool :=
  match s.rasterOfFlow f with
  | some (p, c) => decide ((s.raster p c).mode = 1)
  | none => false

/-- A signed time difference in samples of a format, to the nearest. -/
def samplesBetween (struct rate a b : Nat) : Int :=
  if b ≤ a then (samplesNear struct rate (a - b) : Int) else -(samplesNear struct rate (b - a) : Int)

/-- Phase of a source against an egress raster, in samples: how far the start of the source's line lies behind the
start of the same line on the raster (R91). -/
def State.phaseOf (s : State) (e src : Nat) : Int :=
  let st := s.get pgFlow e F.flowwinCtx1Struct
  let rt := s.get pgFlow e F.flowwinCtx1Rate
  let r := s.run src
  wrapPhase (fmtFrameSamples st rt)
    (samplesBetween st rt r.lineNs (s.egressStart e) - ((r.line - 1) * fmtSamples st rt : Nat))

/-- The instant at which line 1 of a source's latest frame began. -/
def State.lineOneNs (s : State) (f : Nat) : Nat :=
  let r := s.run f
  r.lineNs - nsOf (s.get pgFlow f F.flowwinCtx1Struct) (s.get pgFlow f F.flowwinCtx1Rate)
    ((r.line - 1) * fmtSamples (s.get pgFlow f F.flowwinCtx1Struct) (s.get pgFlow f F.flowwinCtx1Rate))

/-- Have two flows the same STRUCT and RATE? -/
def State.sameRaster (s : State) (a b : Nat) : Bool :=
  decide (s.get pgFlow a F.flowwinCtx1Struct = s.get pgFlow b F.flowwinCtx1Struct ∧
    s.get pgFlow a F.flowwinCtx1Rate = s.get pgFlow b F.flowwinCtx1Rate)

/-- Have two flows the same SAMPLING and DEPTH? -/
def State.sameSamples (s : State) (a b : Nat) : Bool :=
  decide (s.get pgFlow a F.flowwinCtx1Sampling = s.get pgFlow b F.flowwinCtx1Sampling ∧
    s.get pgFlow a F.flowwinCtx1Depth = s.get pgFlow b F.flowwinCtx1Depth)

/-- Is a source timed for an egress at a phase (R91)? -/
def State.timedAt (s : State) (e src : Nat) (phase : Int) : Bool :=
  let w : Int := s.get pgFlow e F.flowwinCtx3BypassWin
  s.sameRaster e src && decide (-w ≤ phase ∧ phase ≤ w)

/-! ### Bypass or frame store (R92) -/

/-- SYNC_POLICY codes. -/
abbrev polBypassOnly : Nat := 0
abbrev polAutoSync : Nat := 1
abbrev polElastic : Nat := 2

/-- What R92 gives: the path, TIMING_ERR and FS_MISSING. -/
def syncChoice (timed force store : Bool) (policy : Nat) : EgPath × Bool × Bool :=
  if timed then
    if !force then (.bypass, false, false)
    else if store then (.frameStore, false, false) else (.none, false, true)
  else if policy = polBypassOnly then (.none, true, false)
  else if store then (.frameStore, false, false)
  else if policy = polElastic then (.none, false, true)
  else (.none, true, true)

/-- Write the CTX7 status of an egress; TIMING_ERR rising raises INT_STAT.ENG.TIMING_ERR. -/
def State.putEgressStatus (s : State) (e : Nat) (timed : Bool) (path : EgPath) (terr missing mode : Bool)
    (phase : Int) : State :=
  let was := s.flag pgFlow e F.flowwinCtx7TimingErr
  let s1 := ((((((s.put pgFlow e F.flowwinCtx7Timed (ofBool timed)).put pgFlow e F.flowwinCtx7FsEngaged
    (ofBool (decide (path = .frameStore)))).put pgFlow e F.flowwinCtx7TimingErr (ofBool terr)).put pgFlow e
    F.flowwinCtx7FsMissing (ofBool missing)).put pgFlow e F.flowwinCtx7PolicyMode (ofBool mode)).put pgFlow e
    F.flowwinCtx7Phase (saturate 24 phase))
  if terr && !was then s1.raise pgFlow 16 else s1

/-! ### Frame selection (R113, R114) -/

/-- The page on which a source's port counts the slips of its readers. -/
def State.slipPage (s : State) (src : Nat) : Option Nat :=
  let (kind, port, _) := s.flowPort src
  if kind = kindSdi then some (pgSdirx port) else none

/-- Count a slip on the source's port (R113). -/
def State.countSlip (s : State) (src : Nat) (rep : Bool) : State :=
  match s.slipPage src with
  | some p => (s.bump p 0 (if rep then F.sdirxSlipCntRepeat else F.sdirxSlipCntDrop)).raise p 19
  | none => s

/-- The extra frames of delay of a reader and whether they are clamped (R114). -/
def State.readDelay (s : State) (e src : Nat) : Nat × Bool :=
  let (kind, port, _) := s.flowPort e
  let d := if kind = kindSdi then s.get (pgSditx port) 0 F.sditxFsReadDelay else 0
  let most := s.get pgFlow src F.flowwinCtx2FsDepth - 3
  if most < d then (most, true) else (d, false)

/-- The last slip while its threshold holds: until the source phase has once moved by more than a line period, for good (R113). -/
def slipStays (frame line : Nat) (slip : Option (Bool × Int)) (phase : Int) : Option (Bool × Int) :=
  slip.filter fun x => decide ((wrapPhase frame (phase - x.2)).natAbs ≤ line)

/-- The threshold of the selection in nanoseconds: 256 ns, 400 ns in a pair (R305), moved one line period by the last
slip until the source phase has moved by more than one line period (R113). -/
def State.readThreshold (s : State) (e src : Nat) : Int :=
  let base : Int := if 4 ≤ s.pairing then 400 else 256
  let st := s.get pgFlow e F.flowwinCtx1Struct
  let rt := s.get pgFlow e F.flowwinCtx1Rate
  let line : Int := s.linesNs e 1
  match (s.run e).slip with
  | none => base
  | some (rep, ph) =>
    let moved := wrapPhase (fmtFrameSamples st rt) (s.phaseOf e src - ph)
    if line < nsOf st rt moved.natAbs then base
    else if rep then base - line else base + line

/-- The complete buffer of a frame number. -/
def FrameStore.ofFrame (st : FrameStore) (now n : Nat) : Option FsBuffer :=
  st.buffers.find? fun b => b.ready now && decide (b.frame = n)

/-- The buffer that a frame-store reader selects now: the newest complete one whose write began in time, moved back by DELAY
(R113); in a pair the lead selects for both (R305). A reader whose source differs in format reads nothing (R114) (log entry 216). -/
def State.pickFor (s : State) (e src : Nat) : Option FsBuffer :=
  if !(s.sameRaster e src && s.sameSamples e src) then none
  else (s.run src).store.bind fun st =>
    let thr := s.readThreshold e src
    let ok := st.buffers.filter fun b => b.ready s.now && decide ((b.begunNs : Int) + thr ≤ (s.now : Int))
    let own := match ok[(s.readDelay e src).1]? with
      | some b => some b
      | none => ok.getLast?
    match s.decided pgFlow e with
    | some [n] => (st.ofFrame s.now n).orElse fun _ => own
    | _ => own

/-! ### Where bound audio is read (R92, R93, R236, R238, R239) -/

/-- Where the audio bound to a video egress comes from now. -/
def State.audioPath (s : State) (e : Nat) : AudioPath :=
  let r := s.run e
  if s.flag pgFlow e F.flowwinCtx7TimingErr || r.mismatch then .silent
  else match s.sourceOf e with
    | none => .direct
    | some src =>
      if r.path = .frameStore then
        if r.lost && decide (s.get pgFlow e F.flowwinCtx3LossPolicy ≠ 0) then .silent
        else match r.shown with
          | some n => .stored src n r.shownNs
          | none => .silent
      else if r.lost then .silent else .direct

/-- Does one path go on where another ends: the next buffer of the same store? -/
def AudioPath.follows (old new : AudioPath) : Bool :=
  match old, new with
  | .stored a n _, .stored b m _ => decide (a = b ∧ m = n + 1)
  | _, _ => false

/-- Nanoseconds of a ramp field. -/
def State.rampOf (s : State) (f : Field) : Nat := s.get pgAsh 0 f * 250000

/-- Are two paths the same store at two delays? -/
def AudioPath.moves (old new : AudioPath) : Bool :=
  match old, new with
  | .late a _, .late b _ => decide (a = b)
  | _, _ => false

/-- A flow's audio goes over to where it now comes from: with FOLLOW_RAMP into and out of silence and at a change of delay, with
CONCEAL_RAMP at a repeat, a drop or a change to bypass. A take (`cut`) fades by the routes that it changes (R172, R236, R239). -/
def State.hear (s : State) (f : Nat) (new : AudioPath) (cut : Bool) : State :=
  let r := s.run f
  if new = r.hears then s
  else
    let len := if new = .silent ∨ r.hears = .silent ∨ r.hears.moves new = true then s.rampOf F.ashAfCfgFollowRamp
      else if cut || r.hears.follows new then 0 else s.rampOf F.ashAfCfgConcealRamp
    s.putRun f { r with heard := r.hears, hears := new, fadeNs := s.now, fadeLen := len }

/-- The audio bound to a video egress follows its video. -/
def State.rehear (s : State) (e : Nat) (cut : Bool) : State := s.hear e (s.audioPath e) cut

/-! ### The choice (R92) -/

/-- What an egress takes over from its source at a take or a frame start: whether their samples agree, and at a take whether the
source is lost, with SRC_LOST (R91, R93). -/
def State.meetSource (s : State) (e src : Nat) (fresh : Bool) : State :=
  let lost := if fresh then (s.run src).lost else (s.run e).lost
  let s1 := s.putRun e { s.run e with
    lost := lost, mismatch := decide (s.flowType e = typeVideo) && !s.sameSamples e src }
  if !fresh then s1
  else if lost && !s.flag pgFlow e F.flowwinCtx7SrcLost then (s1.put pgFlow e F.flowwinCtx7SrcLost 1).raise pgFlow 17
  else s1.put pgFlow e F.flowwinCtx7SrcLost (ofBool lost)

/-- An egress chooses how it reads its source (R92): at a take (`fresh`), by the phase at its arm point (R91), or at a frame start,
where one that has engaged a frame store stays on it unless ELASTIC lets it leave. A frame store engaged at a take delivers the
newest complete frame at once. -/
def State.choose (s0 : State) (e : Nat) (fresh : Bool) : State :=
  match s0.sourceOf e with
  | none =>
    let s := (s0.putEgressStatus e false .none false false false 0).put pgFlow e F.flowwinCtx7SrcLost 0
    (s.putRun e { s.run e with
      path := .none, shown := none, slip := none, lost := false, mismatch := false, armPhase := none }).rehear e fresh
  | some src =>
    let s := s0.meetSource e src fresh
    let pol := s.get pgFlow e F.flowwinCtx3SyncPolicy
    let elastic := decide (pol = polElastic)
    let acting := elastic && !s.egressElastic e
    let pol' := if acting then polAutoSync else pol
    let phase := if fresh then (s.run e).armPhase.getD (s.phaseOf e src) else s.phaseOf e src
    let timed := s.timedAt e src phase
    let s1 :=
      if !fresh && decide ((s.run e).path = .frameStore) && !(decide (pol' = polElastic) && timed) then
        s.putEgressStatus e timed .frameStore false false acting phase
      else
        let (path, terr, missing) := syncChoice timed (s.xpSeen e).forceFs (s.run src).store.isSome pol'
        let shown := if fresh then (if path = .frameStore then (s.pickFor e src).map FsBuffer.seq else none)
          else if path = (s.run e).path then (s.run e).shown else none
        (s.putEgressStatus e timed path terr missing acting phase).putRun e
          { s.run e with
            path := path, shown := shown, shownNs := if fresh then s.egressStart e else (s.run e).shownNs
            slip := if fresh then none else (s.run e).slip }
    (s1.putRun e { s1.run e with armPhase := none }).rehear e fresh

/-- At a frame start, a frame-store reader selects its buffer; a repeat or a drop is a slip, which the audio conceals (R113, R239).
In a pair the lead selects for both (R305). -/
def State.selectBuffer (s : State) (e src : Nat) : State :=
  let buffer := s.pickFor e src
  let (kind, port, _) := s.flowPort e
  let s0 := match buffer with
    | some b => s.share pgFlow e [b.frame]
    | none => s
  let s1 := if kind = kindSdi then s0.putStat (pgSditx port) 22 (s.readDelay e src).2 else s0
  let st := s.get pgFlow e F.flowwinCtx1Struct
  let rt := s.get pgFlow e F.flowwinCtx1Rate
  let show_ := fun (s : State) (n : Nat) => s.putRun e { s.run e with
    shown := some n, shownNs := s.now, slip := slipStays (fmtFrameSamples st rt) (fmtSamples st rt) (s.run e).slip (s.phaseOf e src) }
  let slip := fun (s : State) (rep : Bool) =>
    (s.countSlip src rep).putRun e { (s.countSlip src rep).run e with slip := some (rep, s.phaseOf e src) }
  let s2 := match buffer.map FsBuffer.seq, (s.run e).shown with
    | some n, some old =>
      if n = old then slip (show_ s1 n) true
      else if old + 1 < n then slip (show_ s1 n) false
      else show_ s1 n
    | some n, none => show_ s1 n
    | none, _ => s1
  s2.rehear e false

/-! ### Loss and return (R93) -/

/-- The ingress of a flow produces no segments for two line periods: SRC_LOST on every egress that selects it; the
writer stops at its last complete frame. -/
def State.loseSource (s : State) (f : Nat) : State :=
  let s1 := (s.dropPartial f)
  let s2 := s1.putRun f { s1.run f with producing := false, lost := true }
  (s2.readers f).foldl (fun s e =>
    let s3 := ((s.put pgFlow e F.flowwinCtx7SrcLost 1).putRun e { s.run e with lost := true }).rehear e false
    if s.flag pgFlow e F.flowwinCtx7SrcLost then s3 else s3.raise pgFlow 17) s2

/-- Segments of a lost source are back at a frame start: SRC_LOST clears and R92 is evaluated as at a take. -/
def State.returnSource (s : State) (e : Nat) : State :=
  ((s.put pgFlow e F.flowwinCtx7SrcLost 0).putRun e { s.run e with lost := false }).choose e true

/-- A port's flows stop producing: their writers' partial frames are dropped (R111, R112). -/
def State.stopPortFlows (s : State) (kind port : Nat) : State :=
  (s.flows.filter fun f => s.isIngress f && decide ((s.flowPort f).1 = kind ∧ (s.flowPort f).2.1 = port)).foldl
    (fun s f => (s.dropPartial f).putRun f { (s.dropPartial f).run f with producing := false, partLine := [] }) s

end Sys2Proof.Machine
end

