-- ==== Sys2Proof/Machine/Syn.lean ====
section
/-! DEFINITION. Clock synthesizers: the frequency plan, the band table, lock and use (R348 to R357). -/

namespace Sys2Proof.Machine

/-! ### Status words -/

/-- Write n bits of STATUS.ENG, by the number of the lowest in STATUS. -/
def State.putStatBits (s : State) (p lo n v : Nat) : State :=
  let w := s.get p 0 F.hdrStatusEng
  let l := lo - 16
  s.put p 0 F.hdrStatusEng (w - bits w l n * 2 ^ l + v % 2 ^ n * 2 ^ l)

/-- Read n bits of STATUS.ENG. -/
def State.statBits (s : State) (p lo n : Nat) : Nat := bits (s.get p 0 F.hdrStatusEng) (lo - 16) n

/-! ### Frequencies as fractions of hertz (R58, R348) -/

/-- The domain clock of a timebase that runs a rate (R58). -/
def domainHz (rate : Nat) : Nat × Nat := if rateFraction rate then (148500000000, 1001) else (148500000, 1)

/-- REFCLK_SYS. -/
def refclkHz : Nat × Nat := (100000000, 1)

/-- A frequency plan: source frequency, NUM, DEN, N, and the outputs' DIV. -/
structure SynPlan where
  hz : Nat × Nat
  num : Nat
  den : Nat
  n : Nat
  div : List Nat
  deriving DecidableEq, Repr

/-- f_pll of a plan. -/
def SynPlan.pll (x : SynPlan) : Nat × Nat := (x.hz.1 * x.num, x.hz.2 * x.den)

/-- f_vco of a plan. -/
def SynPlan.vco (x : SynPlan) : Nat × Nat := (x.pll.1 * x.n, x.pll.2)

/-- Is a fraction of hertz at most, or at least, so many megahertz? -/
def mhzLe (f : Nat × Nat) (mhz : Nat) : Bool := decide (f.1 ≤ mhz * 1000000 * f.2)
def mhzGe (f : Nat × Nat) (mhz : Nat) : Bool := decide (mhz * 1000000 * f.2 ≤ f.1)

/-- Does a plan keep every limit of R348? -/
def SynPlan.inRange (x : SynPlan) : Bool :=
  decide (1 ≤ x.den) && mhzGe x.pll 100 && mhzLe x.pll 400 && mhzGe x.vco 1200 && mhzLe x.vco 16000 &&
    decide (4 ≤ x.n ∧ x.n ≤ 40) && x.div.all fun d => decide (1 ≤ d) && mhzLe (x.vco.1, x.vco.2 * d) 1000

/-- The source frequency that settings name: the timebase's domain, or REFCLK_SYS. -/
def State.synHz (s : State) (source k : Nat) : Nat × Nat :=
  if source = 0 then
    domainHz (if (s.tb k).state = .off then s.get (pgTb k) 0 F.tbFormatRate else (s.tb k).rate)
  else refclkHz

/-- The plan of the active settings, and of the shadow settings, of SYN[n]. -/
def State.synPlan (s : State) (n : Nat) (get : State → Nat → Nat → Field → Nat) : SynPlan :=
  let p := pgSyn n
  { hz := s.synHz (get s p 0 F.synCtrlSource) (get s p 0 F.synCtrlTb), num := get s p 0 F.synNum
    den := get s p 0 F.synDen, n := get s p 0 F.synMdllN
    div := (List.range 8).map fun o => get s p o F.synOutCtrlDiv }

/-! ### The band table (R351 to R353) -/

/-- Characterised band limits at a trim of 0 (R351). -/
def bandLimits : List (Nat × Nat) :=
  [(1150, 1327), (1275, 1439), (1383, 1560), (1499, 1692), (1626, 1835), (1763, 1989), (1911, 2157), (2072, 2339),
   (2247, 2536), (2437, 2750), (2642, 2982), (2865, 3233), (3106, 3506), (3368, 3801), (3652, 4122), (3960, 4469)] ++
  [(4294, 4846), (4656, 5255), (5049, 5698), (5474, 6178), (5936, 6699), (6437, 7264), (6979, 7877), (7568, 8541),
   (8206, 9261), (8898, 10041), (9648, 10888), (10461, 11806), (11343, 12801), (12299, 13881), (13336, 15051),
   (14461, 16520)]

/-- The band table of SYN[n]. -/
def State.bandTable (s : State) (n : Nat) : List (Nat × Nat) :=
  (List.range 32).map fun b => (s.get (pgSyn n) b F.synBandMin, s.get (pgSyn n) b F.synBandMax)

/-- Does a limit lie within 5 % of its characterised value? -/
def withinFive (v w : Nat) : Bool := decide (95 * w ≤ 100 * v ∧ 100 * v ≤ 105 * w)

/-- Do neighbouring bands follow each other (R352)? -/
def bandsChain : List (Nat × Nat) → Bool
  | a :: b :: t => decide (a.1 < b.1 ∧ b.1 < a.2) && bandsChain (b :: t)
  | _ => true

/-- Is a band table consistent (R352)? -/
def bandsConsistent (t : List (Nat × Nat)) : Bool :=
  t.all (fun b => decide (b.1 < b.2)) && bandsChain t &&
    decide ((t.headD (0, 0)).1 ≤ 1200 ∧ 16000 ≤ (t.getLastD (0, 0)).2) &&
    (t.zip bandLimits).all fun e => withinFive e.1.1 e.2.1 && withinFive e.1.2 e.2.2

/-- Is the table of SYN[n] consistent? -/
def State.bandOk (s : State) (n : Nat) : Bool := bandsConsistent (s.bandTable n)

/-- The margin of f_vco in a band, in hertz times the denominator; none where f_vco lies outside or the margin is under
0.1 % of f_vco (R353). -/
def bandMargin (f : Nat × Nat) (b : Nat × Nat) : Option Nat :=
  let lo := b.1 * 1000000 * f.2
  let hi := b.2 * 1000000 * f.2
  if lo ≤ f.1 ∧ f.1 ≤ hi then
    let m := min (f.1 - lo) (hi - f.1)
    if f.1 ≤ 1000 * m then some m else none
  else none

/-- The band with the largest margin, the lower index on a tie. -/
def pickBand (f : Nat × Nat) (t : List (Nat × Nat)) : Option Nat :=
  ((List.range 32).zip t).foldl (fun best e =>
    match bandMargin f e.2, best with
    | none, _ => best
    | some m, none => some (e.1, m)
    | some m, some (b, x) => if x < m then some (e.1, m) else some (b, x)) none |>.map fun e => e.1

/-! ### Use (R350) -/

/-- Does a page use an output of SYN[n]: a running transmitter with KIND = 1, or a running FREE raster? -/
def State.usesOutput (s : State) (p n o : Nat) : Bool :=
  match pageType p with
  | 0x041 => s.running p && s.flag p 0 F.sditxClkSrcKind && decide (s.get p 0 F.sditxClkSrcSyn = n ∧
      s.get p 0 F.sditxClkSrcOut = o)
  | 0x042 => (List.range 16).any fun r => (s.raster p r).running && decide ((s.raster p r).mode = 3 ∧
      s.get p r F.rstCtrlFreeSyn = n ∧ s.get p r F.rstCtrlFreeOut = o)
  | 0x061 => (s.raster p 0).running && decide ((s.raster p 0).mode = 3 ∧ s.get p 0 F.rstCtrlFreeSyn = n ∧
      s.get p 0 F.rstCtrlFreeOut = o)
  | _ => false

/-- The users of an output, by page index. -/
def State.synUsers (s : State) (n o : Nat) : List Nat := enginePages.filter fun p => s.usesOutput p n o

/-- Is an output in use? -/
def State.synInUse (s : State) (n o : Nat) : Bool := !(s.synUsers n o).isEmpty

/-! ### Running -/

/-- A synthesizer that is off. -/
def SynRun.cold : SynRun := ⟨.off, (0, 1), false⟩

/-- SYN[n]. -/
def State.syn (s : State) (n : Nat) : SynRun := Tab.at SynRun.cold s.syns n

/-- STATE codes. -/
def SynState.code : SynState → Nat
  | .off => 0 | .acquire => 1 | .locked => 2 | .holdover => 3

/-- Write SYN[n] and its STATE. -/
def State.putSyn (s : State) (n : Nat) (x : SynRun) : State :=
  ({ s with syns := Tab.put n x s.syns }).putStatBits (pgSyn n) 16 3 x.state.code

/-- Are two fractions the same frequency? -/
def sameHz (a b : Nat × Nat) : Bool := decide (a.1 * b.2 = b.1 * a.2)

/-- The plan that SYN[n] runs: the active settings on the frequency that it follows or holds, or on their own source while it
is off (log entry 237). -/
def State.synActive (s : State) (n : Nat) : SynPlan :=
  let x := s.synPlan n State.get
  if (s.syn n).state = .off then x else { x with hz := (s.syn n).hz }

/-- Does a plan give another f_pll or f_vco than a second? -/
def SynPlan.retunes (a b : SynPlan) : Bool := !(sameHz a.pll b.pll && sameHz a.vco b.vco)

/-- The error of a commit: RANGE, IN_USE or NO_BAND (R348, R350, R353). -/
def State.synCommitErr (s : State) (n : Nat) : Option Nat :=
  let p := pgSyn n
  let a := s.synActive n
  let b := s.synPlan n State.getShadow
  let used := fun o => s.synInUse n o
  let any := (List.range 8).any used
  if !b.inRange then some 18
  else if any && (a.retunes b ||
      decide (s.get p 0 F.synCtrlSource ≠ s.getShadow p 0 F.synCtrlSource ∨
        s.get p 0 F.synCtrlTb ≠ s.getShadow p 0 F.synCtrlTb) ||
      (List.range 8).any fun o => used o && decide (s.get p o F.synOutCtrlDiv ≠ s.getShadow p o F.synOutCtrlDiv))
    then some 19
  else if (pickBand b.vco (s.bandTable n)).isNone then some 17
  else none

/-- Start or relock: the DPLL is preset, STATE = ACQUIRE (R354). -/
def State.synAcquire (s : State) (n : Nat) : State :=
  let p := pgSyn n
  s.putSyn n ⟨.acquire, s.synHz (s.get p 0 F.synCtrlSource) (s.get p 0 F.synCtrlTb), false⟩

/-- Select the band of the active settings (R353). -/
def State.synBand (s : State) (n : Nat) : State :=
  match pickBand (s.synPlan n State.get).vco (s.bandTable n) with
  | some b => s.put (pgSyn n) 0 F.synBandSelBand b
  | none => s

/-- A commit of SYN[n] at its commit point: applied, with the band selected and a relock where f_pll or f_vco changed or
the synthesizer held over; or refused. -/
def State.synCommit (s : State) (n : Nat) : State :=
  match s.synCommitErr n with
  | some e => s.refuseCommit (pgSyn n) 0 e
  | none =>
    let a := s.synActive n
    let s1 := ((s.unstage (pgSyn n) 0).applyCommit (pgSyn n) 0).synBand n
    let b := s1.synPlan n State.get
    if s1.running (pgSyn n) && (a.retunes b || decide ((s.syn n).state = .holdover)) then
      s1.synAcquire n
    else s1

/-- A write of EN: refused without a consistent table (R352); the synthesizer starts or stops. -/
def State.writeSynEn (s : State) (n : Nat) (on acts : Bool) : State :=
  let p := pgSyn n
  let run := s.running p
  if on && !run then
    if !s.bandOk n then s.setErr p 16
    else if !acts then s.put p 0 F.synCtrlEn 1
    else (((s.put p 0 F.synCtrlEn 1).putRunning p true).synBand n).synAcquire n
  else if !on && run then
    (((s.put p 0 F.synCtrlEn 0).putRunning p false).putSyn n SynRun.cold).stopCommit p 0
  else s.put p 0 F.synCtrlEn (ofBool on)

/-- The lock sequence ends (R354). -/
def State.synLocked (s : State) (n : Nat) : State :=
  if (s.syn n).state = .acquire then (s.putSyn n { s.syn n with state := .locked }).raise (pgSyn n) 16 else s

/-- A synthesizer leaves the clock of a timebase that turned OFF or changed its frequency: HOLDOVER (R349). -/
def State.synHold (s : State) (n : Nat) (off : Bool) : State :=
  let x := s.syn n
  if x.state = .acquire ∨ x.state = .locked then
    (s.putSyn n { x with state := .holdover, leftOff := off }).raise (pgSyn n) 16
  else s

/-- The synthesizers that follow a timebase. -/
def State.synsOf (s : State) (k : Nat) : List Nat :=
  (List.range 16).filter fun n =>
    s.running (pgSyn n) && decide (s.get (pgSyn n) 0 F.synCtrlSource = 0 ∧ s.get (pgSyn n) 0 F.synCtrlTb = k)

/-- A timebase turned OFF. -/
def State.synTbOff (s : State) (k : Nat) : State := (s.synsOf k).foldl (fun s n => s.synHold n true) s

/-- A timebase runs again: a synthesizer that left it because of OFF returns at the same frequency (log entry 16). -/
def State.synTbOn (s : State) (k : Nat) : State :=
  (s.synsOf k).foldl (fun s n =>
    let x := s.syn n
    if x.state = .holdover ∧ x.leftOff = true ∧ x.hz = domainHz (s.tb k).rate then
      (s.putSyn n { x with state := .locked, leftOff := false }).raise (pgSyn n) 16
    else s) s

/-- A commit of a timebase's FORMAT moved its domain frequency. -/
def State.synTbMoved (s : State) (k : Nat) : State :=
  (s.synsOf k).foldl (fun s n => if (s.syn n).hz = domainHz (s.tb k).rate then s else s.synHold n false) s

/-- Does an output run at a frequency within 200 ppm of a wanted one, given as a fraction of hertz (R356)? -/
def State.synOutNear (s : State) (n o : Nat) (want : Nat × Nat) : Bool :=
  let p := pgSyn n
  let x := { s.synPlan n State.get with hz := (s.syn n).hz }
  let d := s.get p o F.synOutCtrlDiv
  let have_ := x.vco.1 * want.2
  let target := want.1 * x.vco.2 * d
  decide ((s.syn n).state = .locked) && s.flag p o F.synOutCtrlEn &&
    decide (have_ * 1000000 ≤ target * 1000200 ∧ target * 999800 ≤ have_ * 1000000)

/-- READY of SYN[n] follows its table once it has left INERT (R352, R357). -/
def State.synReady (s : State) (n : Nat) : State :=
  let p := pgSyn n
  let c := s.get p 0 F.hdrReadyCause
  if s.bandOk n then (if !s.flag p 0 F.hdrReady && decide (c = causeWaitDependency) then s.putReady p true causeNone else s)
  else if s.flag p 0 F.hdrReady then s.putReady p false causeWaitDependency
  else s

/-- A write of BAND: the entry, then the check of the table (R352). -/
def State.writeBand (s : State) (n c w : Nat) : State :=
  let p := pgSyn n
  let was := s.bandOk n
  let s1 := s.writeFields p c (s.running p) w (fieldsAt p 0x0A4)
  let s2 := if !was && s1.bandOk n then s1.raise p 17 else s1
  s2.synReady n

/-! ### Delays (R355) -/

/-- The delay an output has reached. -/
def State.delayAt (s : State) (n o : Nat) : Nat := (Assoc.find Key.code ⟨pgSyn n, o, 0⟩ s.synDelay).getD 0

/-- One step of 1/64 output period toward DELAY. -/
def State.delayStep (s : State) (n o : Nat) : State :=
  let want := s.get (pgSyn n) o F.synOutCtrlDelay
  let have_ := s.delayAt n o
  let next := if have_ < want then have_ + 1 else if want < have_ then have_ - 1 else have_
  { s with synDelay := Assoc.set Key.code ⟨pgSyn n, o, 0⟩ next s.synDelay }

/-- A write of OUT_CTRL: EN = 0 on an output in use is dropped with IN_USE (R350). -/
def State.writeOutCtrl (s : State) (n o w : Nat) : State :=
  let p := pgSyn n
  let keep := s.flag p o F.synOutCtrlEn && !bit w 31 && s.synInUse n o
  let s1 := s.writeFields p o (s.running p) w ((fieldsAt p 0x0C4).filter fun f => !(keep && decide (f = F.synOutCtrlEn)))
  if keep then s1.setErr p 19 else s1

end Sys2Proof.Machine
end

