-- ==== Sys2Proof/Machine/Audio.lean ====
section
/-! DEFINITION. The shuffler: channel runs of audio flows, routes and their ramps, converter channels, route sets, the
gates of channels that wait for a zero crossing (R231 to R248, R253). -/

namespace Sys2Proof.Machine

/-! ### Curves (R236, R239, R241) -/

/-- One, in the fixed point of the curves. -/
abbrev curveOne : Nat := 2 ^ 40

/-- A quarter turn in that fixed point: half of pi. -/
abbrev quarterTurn : Nat := 1727108826178

/-- The sine series from a term on: so many terms, the number of the term, the square of the angle, the term. -/
def sinSeries : Nat → Nat → Int → Int → Int
  | 0, _, _, _ => 0
  | n + 1, k, sq, term => term + sinSeries n (k + 1) sq (-(term * sq) / ((curveOne * ((2 * k + 2) * (2 * k + 3)) : Nat) : Int))

/-- The raised-cosine weight at a place of a fade, from 0 to one: the square of the sine of that part of a quarter turn (R236). -/
def raisedCosine (t len : Nat) : Nat :=
  if len ≤ t then curveOne
  else
    let y : Int := (quarterTurn * t / len : Nat)
    let sine := sinSeries 9 0 (y * y / curveOne) y
    min curveOne (sine * sine / curveOne).toNat

/-- A 24-bit sample of an exact value times one; between two samples the rounding is open. -/
def roundSample (x : Int) : Nat :=
  let q := x / curveOne
  ((if x % curveOne ≠ 0 ∧ Config.sampleRoundsUp x = true then q + 1 else q) % 2 ^ 24).toNat

/-- (1 - w) of one sample and w of another. -/
def blendSamples (old new w : Nat) : Nat :=
  roundSample (((curveOne - w : Nat) : Int) * signedOf 24 old + (w : Int) * signedOf 24 new)

/-- A sample of a cross-fade between two samples, or with 0 of a fade: the place in it and its length (R236, R239, R241). -/
def crossFade (old new t len : Nat) : Nat := if len ≤ t then new else blendSamples old new (raisedCosine t len)

/-- A sample of a change of gain alone: a linear ramp between two amplitudes (R236). -/
def linearRamp (old new t len : Nat) : Nat := if len ≤ t then new else blendSamples old new (curveOne * t / len)

/-- The amplitude of so many steps of 0.5 dB, one step being the fortieth root of a tenth. -/
def gainFactor : Nat → Nat
  | 0 => 2 ^ 60
  | n + 1 => gainFactor n * 1088428085928025205 / 2 ^ 60

/-- A sample attenuated by a GAIN code, in steps of 0.5 dB (R233, R236). -/
def attenuate (v g : Nat) : Nat :=
  if g = 0 then v else roundSample (((gainFactor g / 2 ^ 20 : Nat) : Int) * signedOf 24 v)

/-! ### Channel runs (R231, R232) -/

/-- Channels of the shuffler in each direction. -/
abbrev channelCount : Nat := 6144

/-- The rate in hertz that SRATE codes. -/
def srateHz : Nat → Nat
  | 0 => 32000 | 1 => 44100 | 2 => 48000 | 3 => 88200 | 4 => 96000 | 5 => 176400 | 6 => 192000
  | _ => 48000

/-- CHANNELS of a flow. -/
def State.flowChannels (s : State) (f : Nat) : Nat := s.get pgFlow f F.flowwinCtx1Channels

/-- SRATE of a flow. -/
def State.flowSrate (s : State) (f : Nat) : Nat := s.get pgFlow f F.flowwinCtx1Srate

/-- The most channels that the place of an audio flow takes (R231): an SDI port 16 at SD and HD, 32 above or without a link. -/
def State.placeChannels (s : State) (f : Nat) : Nat :=
  let (kind, port, _) := s.flowPort f
  if kind = kindSdi then
    let link := if s.isEgress f then s.get (pgSditx port) 0 F.sditxCtrlLink else s.get (pgSdirx port) 0 F.sdirxFmtLink
    if link = 1 ∨ link = 2 then 16 else 32
  else if kind = kindAup then 2
  else 64

/-- The audio flow whose samples a slice or a compositor returns on a flow: what is bound to its picture's source (R172, R207). -/
def State.returnedAudio (s : State) (f : Nat) : Option Nat :=
  match (s.run f).hears with
  | .stored g _ _ | .late g _ => if s.flag pgFlow g F.flowwinCtx5AfEn then some (s.get pgFlow g F.flowwinCtx5AfFlow) else none
  | _ => none

/-- Samples of a packet of audio. -/
def packetSamples (hz : Nat) (short : Bool) : Nat := if short then hz / 8000 else hz / 1000

/-- Bytes of an audio sample of a slot. -/
def sampleBytes (essence : Nat) (l16 : Bool) : Nat := if essence = 2 then 4 else if l16 then 2 else 3

/-- Does a number of channels at a rate fit the audio slot that an IP flow is bound to: packets of at most 1,440 bytes, and under -31 even
counts (R132)? -/
def State.slotFits (s : State) (port slot dir n hz : Nat) : Bool :=
  let p := pgIpp port
  let c := strmCell dir slot
  let ess := s.get p c F.ippStrmCfgEssence
  decide (n * packetSamples hz (s.flag p c F.ippStrmCfgPtime) * sampleBytes ess (s.flag p c F.ippStrmCfgL16) ≤ 1440) &&
    !(decide (ess = 2) && decide (n % 2 = 1))

/-- Do CHANNELS and SRATE of an audio flow fit the row of R231 for its place? A bundle's two flows agree with each
other, a return with its source. -/
def State.audioFits (s : State) (f : Nat) : Bool :=
  let (kind, port, stream) := s.flowPort f
  let n := s.flowChannels f
  let r := s.flowSrate f
  decide (1 ≤ n ∧ n ≤ s.placeChannels f) &&
    (if kind = kindSdi then decide (r = 2)
     else if kind = kindIp then
       decide (r = 2 ∨ r = 4) && s.slotFits port (stream % 64) (ofBool (s.isEgress f)) n (srateHz r)
     else if kind = kindAup then decide (n = 2 ∧ r = s.get (pgAup port) 0 F.aupCtrlRate)
     else if kind = 6 then
       match s.flows.find? fun g => decide (g ≠ f ∧ s.flowPort g = (kind, port, stream)) with
       | some g => decide (s.flowChannels g = n ∧ s.flowSrate g = r)
       | none => true
     else match s.returnedAudio f with
       | some g => decide (s.flowChannels g = n ∧ s.flowSrate g = r)
       | none => true)

/-- An audio flow is used: one that does not fit its place sets FLOW_FMT (R231). -/
def State.checkFit (s : State) (f : Nat) : State := if s.audioFits f then s else s.setErr pgAsh 18

/-- The channel run of a flow. -/
def State.audRun (s : State) (f : Nat) : Option AudRun := s.audRuns.find? fun r => decide (r.flow = f)

/-- Is a run of channels free in a direction? -/
def runFree (rs : List AudRun) (egress : Bool) (base n : Nat) : Bool :=
  rs.all fun r => (r.egress != egress) || decide (base + n ≤ r.base ∨ r.base + r.count ≤ base)

/-- The lowest free run of n channels: it starts at 0 or behind a run. -/
def State.lowestRun (s : State) (egress : Bool) (n : Nat) : Option Nat :=
  let starts := (0 :: s.audRuns.map fun r => r.base + r.count).filter fun b =>
    decide (b + n ≤ channelCount) && runFree s.audRuns egress b n
  starts.foldl (fun m b => match m with | none => some b | some x => some (min x b)) none

/-- An audio flow that is enabled takes the lowest free run; none where no run is free: EN then stays 0 (R232). A flow
that was restored with its run keeps it. -/
def State.takeRun (s : State) (f : Nat) : Option State :=
  let n := s.flowChannels f
  let e := s.isEgress f
  if (s.audRun f).isSome then some s
  else match s.lowestRun e n with
  | some b =>
    some (({ s with audRuns := { flow := f, egress := e, base := b, count := n } :: s.audRuns } : State).checkFit f)
  | none => none

/-- The run of an audio flow is released when its EN returns to 0; what its input channels held goes. -/
def State.dropRun (s : State) (f : Nat) : State :=
  let gone := fun (c : Nat) => s.audRuns.any fun r => !r.egress && decide (r.flow = f ∧ r.base ≤ c ∧ c < r.base + r.count)
  { s with audRuns := s.audRuns.filter fun r => decide (r.flow ≠ f), inputs := s.inputs.filter fun e => !gone e.1 }

/-- The enabled egress flow that an output channel belongs to. -/
def State.outFlow (s : State) (out : Nat) : Option Nat :=
  (s.audRuns.find? fun r => r.egress && decide (r.base ≤ out ∧ out < r.base + r.count)).map fun r => r.flow

/-- The enabled ingress flow that an input channel belongs to. -/
def State.inFlow (s : State) (ch : Nat) : Option Nat :=
  (s.audRuns.find? fun r => !r.egress && decide (r.base ≤ ch ∧ ch < r.base + r.count)).map fun r => r.flow

/-! ### Samples (R238 to R241) -/

/-- Samples of an input channel that are held: the longest DELAY of an output at a sixth of its rate, and the look-ahead (R240, R241,
R243). -/
abbrev heldSamples : Nat := 6 * 16384 + 32

/-- Samples of look-ahead of an audio ingress (R241). -/
abbrev lookAhead : Nat := 32

/-- How far off the nearest missing sample is in a list, counted from 1, within the look-ahead. -/
def missingWithin (l : List (Option Nat)) : Option Nat := ((l.take lookAhead).findIdx? Option.isNone).map (· + 1)

/-- A sample of a channel, newest first from `newer` on to `older`: zero where it is missing; the 32 before a gap fade out, the 32
after it fade in (R241). -/
def concealed (newer : List (Option Nat)) (v : Option Nat) (older : List (Option Nat)) : Nat :=
  match v with
  | none => 0
  | some x =>
    let out := match missingWithin newer.reverse with
      | some d => crossFade x 0 (lookAhead - d) lookAhead
      | none => x
    match missingWithin older with
    | some d => crossFade 0 out (d - 1) lookAhead
    | none => out

/-- Sample n of a list, newest first. -/
def sampleIn (l : List (Option Nat)) (n : Nat) : Nat :=
  match l.drop n with
  | v :: older => concealed (l.take n) v older
  | [] => 0

/-- The sample period in nanoseconds of a flow. -/
def State.flowPeriod (s : State) (f : Nat) : Nat := 1000000000 / srateHz (s.flowSrate f)

/-- The sample period in nanoseconds of an input channel. -/
def State.inputPeriod (s : State) (c : Nat) : Nat :=
  match s.inFlow c with
  | some f => s.flowPeriod f
  | none => 1000000000 / 48000

/-- What input channel c of the shuffler carries at an instant, its look-ahead behind the newest sample; the samples that a source no
longer gives are missing (R241). -/
def State.inputAt (s : State) (c t : Nat) : Nat :=
  let l := Tab.at [] s.inputs c
  let i := l.findIdx fun e => decide (e.1 ≤ t)
  let period := s.inputPeriod c
  let gone := match l with
    | e :: _ => if e.1 + 2 * period ≤ t then min ((t - e.1) / period - 1) (2 * lookAhead) else 0
    | [] => 0
  sampleIn (List.replicate gone none ++ l.map Prod.snd) (i + lookAhead)

/-- Source of a route word: none where it names no source. -/
def routeSource (w : Nat) : Option Nat := if bit w 31 then some (bits w 0 13) else none

/-- A channel without a route. -/
def RouteRun.cold : RouteRun :=
  { word := 4 * 2 ^ 24, ramping := false, held := false, asrc := none, rateErr := false, noAsrc := false
    eventNs := none, writeNs := none, waiting := none, rampNs := 0, oldWord := 0, oldMute := true, oldAsrc := false, lockNs := 0
    oldRatio := none }

/-- What an output channel does. -/
def State.routeRun (s : State) (out : Nat) : RouteRun := Tab.at RouteRun.cold s.routes out

/-- Write what an output channel does. -/
def State.putRouteRun (s : State) (out : Nat) (r : RouteRun) : State := { s with routes := Tab.put out r s.routes }

/-- Samples that an elastic buffer holds (R244); it begins half full. -/
abbrev elasticDepth : Nat := 16

/-- Does an audio ingress flow run on a clock foreign to an egress flow's: a serial port on a board's word clock, an embedded group that its
sender flags asynchronous, or a flow of another timebase (R242)? -/
def State.foreignClock (s : State) (e f : Nat) : Bool :=
  let (kind, port, _) := s.flowPort f
  (decide (kind = kindAup) && !s.flag (pgAup port) 0 F.aupCtrlMaster) ||
    (decide (kind = kindSdi) && decide (s.get (pgSdirx port) 0 F.sdirxAudStatAsync ≠ 0)) ||
    decide (s.get pgFlow f F.flowwinCtx0Tb ≠ s.get pgFlow e F.flowwinCtx0Tb)

/-- The buffer between two flows. -/
def State.elasticOf (s : State) (e f : Nat) : Option Elastic := Assoc.find Key.code ⟨e, f, 0⟩ s.elastic

/-- Samples in a buffer at an instant, at the nominal rate of its output. -/
def Elastic.fill (x : Elastic) (hz t : Nat) : Int := elasticDepth / 2 + x.fed - x.slips - ((t - x.since) * hz / 1000000000 : Nat)

/-- A sample of a source enters the buffer before an egress flow: one that then is full drops a sample, one that had emptied repeats one, and
either slip is counted; after a pause of the source it begins afresh (R244). -/
def State.elasticStep (f t : Nat) (s : State) (e : Nat) : State :=
  let hz := srateHz (s.flowSrate e)
  let fresh : Elastic := ⟨t, 0, 0⟩
  let x0 := (s.elasticOf e f).getD fresh
  let x1 := { x0 with fed := x0.fed + 1 }
  let n := x1.fill hz t
  let put := fun (s : State) (x : Elastic) => ({ s with elastic := Assoc.set Key.code ⟨e, f, 0⟩ x s.elastic } : State)
  if n < -(elasticDepth : Int) then put s fresh
  else if (elasticDepth : Int) ≤ n then put (s.bump pgAsh 0 F.ashCntSlip) { x1 with slips := x1.slips + 1 }
  else if n ≤ 0 then put (s.bump pgAsh 0 F.ashCntSlip) { x1 with slips := x1.slips - 1 }
  else put s x1

/-- The egress flows that a source on a foreign clock reaches at its own nominal rate without a converter (R244). -/
def State.elasticUsers (s : State) (f : Nat) (a : AudRun) : List Nat :=
  s.routes.foldl (fun l x =>
    match s.outFlow x.1, routeSource x.2.word with
    | some e, some c =>
      if x.2.asrc.isNone ∧ a.base ≤ c ∧ c < a.base + a.count ∧ s.flowSrate e = s.flowSrate f ∧ s.foreignClock e f = true ∧ e ∉ l then e :: l
      else l
    | _, _ => l) []

/-- A sample of channel k of an ingress audio flow that falls at an instant: its input channel takes it, and every frame-store
writer that the flow is bound to (R238). A flow that does not fit its place produces none (R231). -/
def State.feed (s0 : State) (f k t : Nat) (v : Option Nat) : State :=
  if !s0.audioFits f then s0.checkFit f else
  let s := s0
  let s1 := match s.audRun f with
    | some a =>
      if k < a.count then
        let s' : State := { s with inputs := Tab.put (a.base + k) (((t, v) :: Tab.at [] s.inputs (a.base + k)).take heldSamples) s.inputs }
        if k = 0 then (s.elasticUsers f a).foldl (State.elasticStep f t) s' else s'
      else s
    | none => s
  let bound := s1.flows.filter fun g =>
    s1.isIngress g && s1.flag pgFlow g F.flowwinCtx5AfEn && decide (s1.get pgFlow g F.flowwinCtx5AfFlow = f) && s1.fsWriter g
  bound.foldl (fun s g =>
    match (s.run g).store with
    | some st => s.putRun g { s.run g with store := some { st with buffers := st.buffers.map fun b =>
        { b with audio := (t - b.begunNs, k, v) :: b.audio } } }
    | none => s) s1

/-- A sample that a buffer holds, by channel and nanoseconds from its start (R238). -/
def FsBuffer.sampleAt (b : FsBuffer) (k off : Nat) : Nat :=
  let l := b.audio.filter fun e => decide (e.2.1 = k)
  sampleIn (l.map fun e => e.2.2) (l.findIdx fun e => decide (e.1 ≤ off))

/-- A sample of an input channel as the shuffler holds it, without its look-ahead. -/
def State.heldAt (s : State) (c t : Nat) : Nat :=
  let l := Tab.at [] s.inputs c
  sampleIn (l.map Prod.snd) (l.findIdx fun e => decide (e.1 ≤ t))

/-- PORT_KIND of a bundle. -/
abbrev kindBundle : Nat := 6

/-- The output channel of a bundle that an input channel follows (R231). -/
def State.bundleOf (s : State) (c : Nat) : Option (Nat × Nat) :=
  (s.audRuns.find? fun r => !r.egress && decide (r.base ≤ c ∧ c < r.base + r.count)).bind fun i =>
    if (s.flowPort i.flow).1 = kindBundle then
      (s.audRuns.find? fun r => r.egress && decide (s.flowPort r.flow = s.flowPort i.flow ∧ c - i.base < r.count)).map fun e =>
        (e.base + (c - i.base), s.flowPeriod i.flow)
    else none

/-- The flow and its channel of an input channel that a conversion slice or a compositor returns (R172, R207). -/
def State.returnedOf (s : State) (c : Nat) : Option (Nat × Nat) :=
  (s.audRuns.find? fun r => !r.egress && decide (r.base ≤ c ∧ c < r.base + r.count)).bind fun i =>
    if (s.flowPort i.flow).1 = kindCnv ∨ (s.flowPort i.flow).1 = kindCpo then some (i.flow, c - i.base) else none

/-- Are the samples of an input channel formed from those of others? -/
def State.derived (s : State) (c : Nat) : Bool := (s.bundleOf c).isSome || (s.returnedOf c).isSome

/-- The sample that a buffer of a store gives for an input channel, the audio stored with it (R238): one that fell before the buffer's frame
is in the shuffler still; a bundle's is taken from its routes. -/
def State.storedSample (s : State) (src : Nat → Nat → Nat) (store seq startNs k c t lag : Nat) : Nat :=
  match ((s.run store).store.map FrameStore.buffers).bind fun l => l.find? fun b => decide (b.seq = seq) with
  | some b =>
    if s.derived c then src c (b.begunNs + (t - startNs) - lag)
    else if t - startNs < lag then s.heldAt c (b.begunNs + (t - startNs) - lag)
    else b.sampleAt k (t - startNs - lag)
  | none => 0

/-- The sample that a path of bound audio gives for an input channel of an ingress flow, `lag` nanoseconds late; `src` gives an input
channel's samples. A flow that is not bound to the video whose store the path reads is read directly. -/
def State.pathSample (s : State) (src : Nat → Nat → Nat) (x : AudioPath) (f k c t lag : Nat) : Nat :=
  match x with
  | .silent => 0
  | .direct => src c (t - lag)
  | .stored store seq startNs =>
    if s.flag pgFlow store F.flowwinCtx5AfEn && decide (s.get pgFlow store F.flowwinCtx5AfFlow = f) then
      s.storedSample src store seq startNs k c t lag
    else src c (t - lag)
  | .late store d =>
    let u := t - lag - d
    if s.derived c then src c u
    else match ((s.run store).store.map FrameStore.buffers).bind fun l => l.find? fun b => decide (b.begunNs ≤ u) with
      | some b => b.sampleAt k (u - b.begunNs)
      | none => 0

/-- The sample that a slice or a compositor returns on channel k of a flow: the audio bound to its source, along the path of the
picture, through the cross-fade in progress (R172, R207); a flow that does not fit its
source returns none (R231). -/
def State.returnSample (s : State) (src : Nat → Nat → Nat) (f k t : Nat) : Nat :=
  if !s.audioFits f then 0 else
  let r := s.run f
  let u := t - lookAhead * s.flowPeriod f
  let one := fun (x : AudioPath) =>
    match x with
    | .stored g q n =>
      (match s.audRun (s.get pgFlow g F.flowwinCtx5AfFlow) with
       | some a => if k < a.count then s.storedSample src g q n k (a.base + k) u 0 else 0
       | none => 0)
    | .late g _ =>
      (match s.audRun (s.get pgFlow g F.flowwinCtx5AfFlow) with
       | some a => if k < a.count then s.pathSample src x a.flow k (a.base + k) u 0 else 0
       | none => 0)
    | _ => 0
  if u < r.fadeNs then one r.heard
  else if u < r.fadeNs + r.fadeLen then crossFade (one r.heard) (one r.hears) (u - r.fadeNs) r.fadeLen
  else one r.hears

/-- The video egress flow that an audio egress flow is bound to (CTX5). -/
def State.boundVideo (s : State) (a : Nat) : Option Nat :=
  s.flows.find? fun e => s.isEgress e && s.flowEn e && decide (s.flowType e = typeVideo) &&
    s.flag pgFlow e F.flowwinCtx5AfEn && decide (s.get pgFlow e F.flowwinCtx5AfFlow = a)

/-- What an output channel takes from an input channel at an instant, so late: bound audio along its video's path, through the
cross-fade in progress (R92, R93, R238, R239), other audio from the shuffler's input. -/
def State.inputFor (s : State) (src : Nat → Nat → Nat) (out c t lag : Nat) : Nat :=
  match s.audRuns.find? (fun r => !r.egress && decide (r.base ≤ c ∧ c < r.base + r.count)), (s.outFlow out).bind s.boundVideo with
  | some i, some e =>
    let r := s.run e
    let v := s.pathSample src r.hears i.flow (c - i.base) c t lag
    if t < r.fadeNs + r.fadeLen then
      crossFade (s.pathSample src r.heard i.flow (c - i.base) c t lag) v (t - r.fadeNs) r.fadeLen
    else v
  | _, _ => src c (t - lag)

/-- Nanoseconds of a RAMP code, in steps of 250 us. -/
abbrev rampTime (r : Nat) : Nat := r * 250000

/-- FLOW_ATTR.DELAY of an output channel's flow in nanoseconds. -/
def State.delayNs (s : State) (f n : Nat) : Nat := n * 1000000000 / srateHz (s.flowSrate f)

/-- How late the elastic buffer before an output channel makes its source: by the samples that it holds (R244). Audio bound to video keeps
its place and passes none (R240). -/
def State.elasticLag (s : State) (out c : Nat) : Nat :=
  match s.outFlow out, s.inFlow c with
  | some e, some f =>
    if (s.boundVideo e).isSome then 0
    else match (s.routeRun out).asrc, s.elasticOf e f with
    | none, some x => (x.fill (srateHz (s.flowSrate e)) s.now).toNat * s.flowPeriod f
    | _, _ => 0
  | _, _ => 0

/-- What an output channel takes from an input channel at an instant, its flow's DELAY late; a change of DELAY cross-fades over
FOLLOW_RAMP (R240). -/
def State.delayed (s : State) (src : Nat → Nat → Nat) (out c t : Nat) : Nat :=
  match s.outFlow out with
  | none => s.inputFor src out c t 0
  | some e =>
    let own := s.elasticLag out c
    let v := s.inputFor src out c t (own + s.delayNs e (s.get pgAsh e F.ashFlowAttrDelay))
    let len := rampTime (s.get pgAsh 0 F.ashAfCfgFollowRamp)
    match (s.run e).delayNs with
    | some t0 =>
      if t < t0 + len then
        crossFade (s.inputFor src out c t (own + s.delayNs e (s.run e).oldDelay)) v (t - t0) len
      else v
    | none => v

/-- A write of FLOW_ATTR: a change of DELAY begins its cross-fade (R240). -/
def State.changeDelay (s : State) (f old : Nat) : State :=
  if s.get pgAsh f F.ashFlowAttrDelay = old then s
  else s.putRun f { s.run f with delayNs := some s.now, oldDelay := old }

/-! ### Routes (R233 to R236) -/

/-- The route word of an output channel, as ROUTE reads. -/
def State.routeWord (s : State) (out : Nat) : Nat :=
  s.get pgAsh out F.ashRouteEn * 2 ^ 31 + s.get pgAsh out F.ashRouteAsrc * 2 ^ 30 + s.get pgAsh out F.ashRouteRamp * 2 ^ 24 +
    s.get pgAsh out F.ashRouteGain * 2 ^ 16 + s.get pgAsh out F.ashRouteSource

/-- Write a route word to an output channel's ROUTE. -/
def State.putRouteWord (s : State) (out w : Nat) : State :=
  ((((s.put pgAsh out F.ashRouteEn (bits w 31 1)).put pgAsh out F.ashRouteAsrc (bits w 30 1)).put pgAsh out F.ashRouteRamp
    (bits w 24 6)).put pgAsh out F.ashRouteGain (bits w 16 8)).put pgAsh out F.ashRouteSource (bits w 0 13)

/-! ### Converter channels (R242, R243) -/

/-- The page and the cell of converter channel n. -/
def asrcAt (n : Nat) : Nat × Nat := (pgAsrc (n / 128), n % 128)

/-- Is a converter channel in use? -/
def State.asrcBound (s : State) (n : Nat) : Bool := s.flag (asrcAt n).1 (asrcAt n).2 F.asrcChStatusBound

/-- The lowest free converter channel from n on, within so many tries; an engine that is being reset has none. -/
def State.freeAsrcFrom (s : State) (n : Nat) : Nat → Option Nat
  | 0 => none
  | k + 1 => if s.asrcBound n || s.resetting (pgAsrc (n / 128)) then s.freeAsrcFrom (n + 1) k else some n

/-- The lowest free channel of ASRC[0], then ASRC[1], and so on. -/
def State.freeAsrc (s : State) : Option Nat := s.freeAsrcFrom 0 512

/-- A route takes a converter channel; it is not locked yet. -/
def State.bindAsrc (s : State) (n out : Nat) : State :=
  let (p, c) := asrcAt n
  (((s.put p c F.asrcChStatusBound 1).put p c F.asrcChStatusLocked 0).put p c F.asrcChStatusOut out).put p c
    F.asrcChRatioRatio 0

/-- A route releases its converter channel. -/
def State.unbindAsrc (s : State) (n : Nat) : State :=
  let (p, c) := asrcAt n
  (((s.put p c F.asrcChStatusBound 0).put p c F.asrcChStatusLocked 0).put p c F.asrcChStatusOut 0).put p c
    F.asrcChRatioRatio 0

/-- Free channels of ASRC[k] (STATUS.ENG [23:16]). -/
def State.asrcFree (s : State) (k : Nat) : Nat :=
  128 - (s.regs.filter fun e =>
    decide (e.1.page = pgAsrc k ∧ e.1.slot = F.asrcChStatusBound.slot ∧ e.2 = 1)).length

/-- Do a route's source and its output run at different nominal rates? -/
def State.ratesDiffer (s : State) (out : Nat) (w : Nat) : Bool :=
  match routeSource w, s.outFlow out with
  | some src, some e =>
    match s.inFlow src with
    | some i => decide (s.flowSrate i ≠ s.flowSrate e)
    | none => false
  | _, _ => false

/-- Does a route need a converter (R242)? ASRC_MODE of its egress flow decides; under AUTO a route's own ASRC bit also asks
for one (log entry 14). -/
def State.needsAsrc (s : State) (out w : Nat) : Bool :=
  match routeSource w, s.outFlow out with
  | some _, some e =>
    let m := s.get pgAsh e F.ashFlowAttrAsrcMode
    decide (m = 1) || (decide (m = 2) && (bit w 30 || s.ratesDiffer out w))
  | some _, none => bit w 30
  | none, _ => false

/-- A route's errors; the first of them raises ROUTE_ERR, no converter sets NO_ASRC (R242, R244). -/
def State.putRouteErr (s : State) (out : Nat) (rate noAsrc : Bool) : State :=
  let r := s.routeRun out
  let s1 := s.putRouteRun out { r with rateErr := rate, noAsrc := noAsrc }
  let s2 := if noAsrc then s1.setErr pgAsh 17 else s1
  if (rate && !r.rateErr) || (noAsrc && !r.noAsrc) then s2.raise pgAsh 17 else s2

/-- A route takes the converter it needs, or is silent without one. -/
def State.assignAsrc (s : State) (out w : Nat) : State :=
  if s.needsAsrc out w then
    match s.freeAsrc with
    | some n => (((s.bindAsrc n out).putRouteRun out { (s.bindAsrc n out).routeRun out with asrc := some n }).putRouteErr
        out false false)
    | none => s.putRouteErr out false true
  else s.putRouteErr out (s.ratesDiffer out w) false

/-- Output channels that wait for a converter, lowest first. -/
def State.asrcWaiters (s : State) : List Nat := (s.routes.filter fun e => e.2.noAsrc).map fun e => e.1

/-- After a route change a channel that had no converter takes one that has become free (R242). -/
def State.retryAsrc (s : State) : State :=
  s.asrcWaiters.foldl (fun s out => if s.freeAsrc.isSome then s.assignAsrc out (s.routeRun out).word else s) s

/-- A running route is judged again: it takes the converter that it now needs, or releases one that it needs no more (R242, R244). -/
def State.rejudge (s : State) (out : Nat) : State :=
  let r := s.routeRun out
  if (routeSource r.word).isNone then s
  else match r.asrc with
    | some n => if s.needsAsrc out r.word then s
        else ((s.unbindAsrc n).putRouteRun out { r with asrc := none }).assignAsrc out r.word
    | none => if s.needsAsrc out r.word then s.assignAsrc out r.word else s.putRouteErr out (s.ratesDiffer out r.word) false

/-- Output channels whose route begins or ends at a flow. -/
def State.routesAt (s : State) (f : Nat) : List Nat :=
  (s.routes.filter fun e => decide (s.outFlow e.1 = some f ∨ (routeSource e.2.word).bind s.inFlow = some f)).map fun e => e.1

/-- Routes at a flow are judged again: its converter choice or its place in the shuffler has changed. -/
def State.rejudgeAll (s : State) (outs : List Nat) : State := outs.foldl State.rejudge s

/-- Does a route carry silence: without a source, the converter it needs or matching rates, or muted (R233, R242, R244)? -/
def RouteRun.mute (r : RouteRun) (w : Nat) : Bool :=
  (routeSource w).isNone || r.rateErr || r.noAsrc || decide (bits w 16 8 = 255)

/-- A change of a channel's route begins its ramp; the converter of the old route is released (R236, R242). -/
def State.startRoute (s : State) (out w : Nat) : State :=
  let r := s.routeRun out
  let s1 := match r.asrc with
    | some n => s.unbindAsrc n
    | none => s
  let s2 := s1.putRouteRun out { r with
    word := w, ramping := true, held := false, asrc := none, rampNs := s1.now, oldWord := r.word, oldMute := r.mute r.word
    oldAsrc := r.asrc.isSome }
  (s2.assignAsrc out w).retryAsrc

/-- A change of a route: it begins at once, or is held behind a running ramp; a later change replaces a held one. -/
def State.setRoute (s : State) (out w : Nat) : State :=
  let r := s.routeRun out
  let s1 := s.putRouteWord out w
  if r.ramping then s1.putRouteRun out { s1.routeRun out with held := decide (w ≠ r.word) }
  else if w = r.word then s1
  else s1.startRoute out w

/-- The sample period of an output channel that an instant falls in. -/
def State.samplePeriod (s : State) (out ns : Nat) : Nat :=
  ns * (match s.outFlow out with | some e => srateHz (s.flowSrate e) | none => 48000) / 1000000000

/-- Two instants in one sample period of an output channel. -/
def State.samePeriod (s : State) (out : Nat) (a : Option Nat) (b : Nat) : Bool :=
  match a with
  | some t => decide (s.samplePeriod out t = s.samplePeriod out b)
  | none => false

/-- A ROUTE write: it loses to an event's change in the same sample period (R235). -/
def State.writeRoute (s : State) (out w : Nat) : State :=
  let r := s.routeRun out
  if s.samePeriod out r.eventNs s.now then s
  else
    let s1 := s.setRoute out w
    s1.putRouteRun out { s1.routeRun out with writeNs := some s.now }

/-- A change takes the place of one that began its ramp in the same sample period: the ramp runs from the route before both. -/
def State.replaceRoute (s : State) (out w : Nat) : State :=
  let r := s.routeRun out
  let s1 := match r.asrc with
    | some n => s.unbindAsrc n
    | none => s
  let s2 := (s1.putRouteWord out w).putRouteRun out { r with
    word := w, ramping := true, held := false, asrc := none, rampNs := s1.now }
  (s2.assignAsrc out w).retryAsrc

/-- A change made by a take or an event: one that meets a ROUTE write of the same sample period takes its place, and so does the later of
two changes that share a switch point (R79, R235). -/
def State.eventRoute (s : State) (out w : Nat) : State :=
  let r := s.routeRun out
  let meets := s.samePeriod out r.writeNs s.now || decide (r.eventNs = some s.now)
  let s1 := if meets && r.ramping && s.samePeriod out (some r.rampNs) s.now then s.replaceRoute out w
    else s.setRoute out w
  s1.putRouteRun out { s1.routeRun out with eventNs := some s.now }

/-- Has a raster the switch points of timebase k: LOCKED to it, without an offset, and on its target (R94, R217)? -/
def State.rasterShares (s : State) (p c k : Nat) : Bool :=
  let r := s.raster p c
  decide (r.mode = 0 ∧ r.tb = k ∧ r.offset = 0) && s.flag p c F.rstStatusOutLocked

/-- Does an audio egress flow's change wait for the switch point of its own raster: on a transmitter whose raster has another one
than the timebase (R94, R235)? -/
def State.audioWaits (s : State) (f k : Nat) : Bool :=
  let (kind, port, _) := s.flowPort f
  decide (kind = kindSdi) && (s.raster (pgSditx port) 0).running && !s.rasterShares (pgSditx port) 0 k

/-- A change made by a take or an event of timebase k: at once, or at the switch point of the output's raster (R235). -/
def State.takeRoute (s : State) (k out w : Nat) : State :=
  match s.outFlow out with
  | some f => if s.audioWaits f k then s.putRouteRun out { s.routeRun out with waiting := some w } else s.eventRoute out w
  | none => s.eventRoute out w

/-- The raster of an audio egress flow reaches its switch point: the changes that waited for it begin (R235). -/
def State.showRoutes (s : State) (f : Nat) : State :=
  match s.audRun f with
  | some a =>
    (List.range a.count).foldl (fun s k =>
      match (s.routeRun (a.base + k)).waiting with
      | some w => (s.putRouteRun (a.base + k) { s.routeRun (a.base + k) with waiting := none }).eventRoute (a.base + k) w
      | none => s) s
  | none => s

/-- A ramp ends; a held change begins (R236). -/
def State.rampEnd (s : State) (out : Nat) : State :=
  let r := s.routeRun out
  if r.ramping then
    if r.held then s.startRoute out (s.routeWord out) else s.putRouteRun out { r with ramping := false }
  else s

/-! ### Whole-flow routes (R234) -/

/-- The route word of channel k of a whole-flow route: gain 0 dB, FOLLOW_RAMP, the flow's ASRC choice. -/
def State.flowRouteWord (s : State) (e src ch : Nat) : Nat :=
  let m := s.get pgAsh e F.ashFlowAttrAsrcMode
  let conv := decide (m = 1) || (decide (m = 2) && decide (s.flowSrate e ≠ s.flowSrate src))
  2 ^ 31 + ofBool conv * 2 ^ 30 + s.get pgAsh 0 F.ashAfCfgFollowRamp * 2 ^ 24 + ch

/-- The word of a channel that loses its route: no source, FOLLOW_RAMP. -/
def State.noRouteWord (s : State) : Nat := s.get pgAsh 0 F.ashAfCfgFollowRamp * 2 ^ 24

/-- A whole-flow route from an egress flow to a source, or its removal, by a take of timebase t (R234). -/
def State.flowRoute (s : State) (t e : Nat) (src : Option Nat) : State :=
  match s.audRun e with
  | none => s
  | some r =>
    let from_ : Option (Nat × AudRun) := match src with
      | some f => (s.audRun f).map fun q => (f, q)
      | none => none
    (List.range r.count).foldl (fun s k =>
      match from_ with
      | some (f, q) =>
        if k < q.count then s.takeRoute t (r.base + k) (s.flowRouteWord e f (q.base + k))
        else s.takeRoute t (r.base + k) s.noRouteWord
      | none => s.takeRoute t (r.base + k) s.noRouteWord) s

/-! ### Route sets (R237) -/

/-- The pool of route-set entries. -/
abbrev routePool : Nat := 16384

/-- The entries of a route set. -/
def State.routeSet (s : State) (n : Nat) : List RouteEntry := Tab.at [] s.routeSets n

/-- Free pool entries (RS_FREE). -/
def State.routeFree (s : State) : Nat := routePool - s.routeSets.foldl (fun n e => n + e.2.length) 0

/-- Is a route set named by a pending event? -/
def State.setBusy (s : State) (n : Nat) : Bool :=
  s.events.any fun e => decide (e.kind = .audioRoute) && decide (e.arg = n)

/-- The entries in a byte string, 8 bytes each. -/
def routeEntries : Nat → Bytes → List RouteEntry
  | 0, _ => []
  | n + 1, l =>
    let w := leValue (l.take 8)
    { out := bits w 51 13, word := bits w 0 32 } :: routeEntries n (l.drop 8)

/-- One entry of a route set is applied, or skipped and counted (R237). A reserved RAMP keeps the channel's own (R12). -/
def State.applyRouteEntry (k : Nat) (s : State) (e : RouteEntry) : State :=
  let srcOk := match routeSource e.word with
    | some c => (s.inFlow c).isSome
    | none => true
  if (s.outFlow e.out).isSome && srcOk then
    let r := bits e.word 24 6
    let ramp := if 1 ≤ r ∧ r ≤ 40 then r else s.get pgAsh e.out F.ashRouteRamp
    s.takeRoute k e.out (bits e.word 30 2 * 2 ^ 30 + ramp * 2 ^ 24 + bits e.word 16 8 * 2 ^ 16 + bits e.word 0 13)
  else s.bump pgAsh 0 F.ashCntRouteSkip

/-- An AUDIO_ROUTE event of timebase k applies the entries of its set. -/
def State.applyRoutes (s : State) (k : Nat) (es : List RouteEntry) : State := es.foldl (State.applyRouteEntry k) s

/-! ### What an output channel carries -/

/-- The sample of a route without a converter: its input at its gain (R233, R236). -/
def State.wordSample (s : State) (src : Nat → Nat → Nat) (out w t : Nat) : Nat :=
  match routeSource w with
  | none => 0
  | some c =>
    let v := s.delayed src out c t
    attenuate v (bits w 16 8)

/-- Input samples that a converter channel spans: 64 on both sides of the sample that it converts (R243). -/
abbrev asrcSpan : Nat := 128

/-- What a converter channel at a ratio gives for a route at an instant: the samples that it spans lie 32 output sample periods back, and
64 input sample periods on both sides of the one converted (R243). -/
def State.converted (s : State) (src : Nat → Nat → Nat) (out w t ratio : Nat) : Nat :=
  let period := s.inputPeriod (bits w 0 13)
  let newest := t - 32 * 1000000000 / (match s.outFlow out with | some e => srateHz (s.flowSrate e) | none => 48000)
  (Config.asrcSample out ratio t ((List.range asrcSpan).map fun j => s.wordSample src out w (newest - j * period))).toNat

/-- The sample of a route at an instant; a converter is silent until it is locked and then fades in over FOLLOW_RAMP; one that locks again
cross-fades from its ratio before (R243). -/
def State.plainSample (s : State) (src : Nat → Nat → Nat) (out w t : Nat) (mute conv locked : Bool) : Nat :=
  if mute then 0
  else if !conv then s.wordSample src out w t
  else if !locked then 0
  else
    let r := s.routeRun out
    let ratio := match r.asrc with
      | some n => s.get (asrcAt n).1 (asrcAt n).2 F.asrcChRatioRatio
      | none => 0
    let old := match r.oldRatio with
      | some q => s.converted src out w t q
      | none => 0
    crossFade old (s.converted src out w t ratio) (t - r.lockNs) (rampTime (s.get pgAsh 0 F.ashAfCfgFollowRamp))

/-- The sample an output channel carries at an instant: silence on a faulted bank and on a flow that does not fit
its place (R231); through a running ramp a cross-fade, or a linear
ramp where only the gain changes (R236). -/
def State.routeFrom (s : State) (src : Nat → Nat → Nat) (out t : Nat) : Nat :=
  let r := s.routeRun out
  let locked := match r.asrc with
    | some n => s.flag (asrcAt n).1 (asrcAt n).2 F.asrcChStatusLocked
    | none => false
  let fits := match s.outFlow out with
    | some e => s.audioFits e
    | none => true
  if out / 256 ∈ s.ashFaulted ∨ fits = false then 0
  else if r.ramping then
    let u := s.plainSample src out r.oldWord t r.oldMute r.oldAsrc true
    if t < r.rampNs then u
    else
      let v := s.plainSample src out r.word t (r.mute r.word) r.asrc.isSome locked
      let len := rampTime (bits r.word 24 6)
      let gain := decide (routeSource r.word = routeSource r.oldWord) && (!r.oldMute || decide (bits r.oldWord 16 8 = 255))
      if gain then linearRamp u v (t - r.rampNs) len else crossFade u v (t - r.rampNs) len
  else s.plainSample src out r.word t (r.mute r.word) r.asrc.isSome locked

/-- Passes through bundles that a sample is followed back. -/
abbrev bundlePasses : Nat := 65

/-- The sample of an input channel, through so many bundles and returns: a bundle's input has its output 4 sample periods earlier
(R231). -/
def State.inputThrough (s : State) : Nat → Nat → Nat → Nat
  | 0, _, _ => 0
  | n + 1, c, t =>
    match s.bundleOf c, s.returnedOf c with
    | some (o, period), _ => s.routeFrom (s.inputThrough n) o (t - 4 * period)
    | none, some (f, k) => s.returnSample (s.inputThrough n) f k t
    | none, none => s.inputAt c t

/-- The sample an output channel carries at an instant. -/
def State.routeSample (s : State) (out t : Nat) : Nat := s.routeFrom (s.inputThrough bundlePasses) out t

/-! ### Gates (R248, R253) -/

/-- Samples of a fade of a gate. -/
abbrev fadeSamples : Nat := 64

/-- Does a signal cross zero between two samples (R253)? -/
def crossesZero (last : Option Nat) (x : Nat) : Bool :=
  decide (x = 0) ||
  (match last with
   | some y => decide (signedOf 24 y < 0 ∧ signedOf 24 x > 0) || decide (signedOf 24 y > 0 ∧ signedOf 24 x < 0)
   | none => false)

/-- One sample through a gate: what comes out, and the gate after. The curve of a fade is a free value. -/
def State.gateSample (s : State) (g : Gate) (x : Nat) : Nat × Gate × State :=
  let g' := { g with last := some x }
  match g.state with
  | .shut => (0, g', s)
  | .open => (x, g', s)
  | .opening => if crossesZero g.last x then (x, { g' with state := .open }, s) else (0, g', s)
  | .closing => if crossesZero g.last x then (0, { g' with state := .shut }, s) else (x, g', s)
  | .leaving => (x, if crossesZero g.last x then { g' with state := .fadeOut, left := fadeSamples } else g', s)
  | .fadeIn =>
    let (v, s1) := s.draw
    if g.left ≤ 1 then (x, { g' with state := .open, left := 0 }, s)
    else (v % 2 ^ 24, { g' with left := g.left - 1 }, s1)
  | .fadeOut =>
    let (v, s1) := s.draw
    if g.left ≤ 1 then (0, { g' with state := .shut, left := 0 }, s)
    else (v % 2 ^ 24, { g' with left := g.left - 1 }, s1)

/-- The gate under a key. -/
def State.gate (s : State) (k : Key) : Option Gate := Assoc.find Key.code k s.gates

/-- Write a gate. -/
def State.putGate (s : State) (k : Key) (g : Gate) : State := { s with gates := Assoc.set Key.code k g s.gates }

/-- Remove a gate. -/
def State.dropGate (s : State) (k : Key) : State := { s with gates := Assoc.erase Key.code k s.gates }

/-- A gate that begins to wait for its channel's crossing. -/
def State.waitGate (s : State) (k : Key) (how : GateState) : State := s.putGate k ⟨how, none, 0, s.now⟩

/-- A channel is to close: one that carries zero still is shut, another waits for its crossing. -/
def State.closeGate (s : State) (k : Key) (how : GateState) : State :=
  match s.gate k with
  | some g => s.putGate k (if g.state = .opening ∨ g.state = .shut then { g with state := .shut }
      else { g with state := how, left := 0, sinceNs := s.now })
  | none => s.waitGate k how

/-- ZC_TIMEOUT in nanoseconds: a serial audio port's register, 2 ms for the slot masks (R248, R253). -/
def State.crossTimeout (s : State) (p : Nat) : Nat :=
  if (List.range 32).any (fun n => decide (pgAup n = p)) then s.get p 0 F.aupZcTimeout * 250000 else 2000000

/-- A channel that has not crossed zero within ZC_TIMEOUT fades over 64 samples (R248, R253). -/
def Gate.timeout (g : Gate) : Gate :=
  match g.state with
  | .opening => { g with state := .fadeIn, left := fadeSamples }
  | .closing | .leaving => { g with state := .fadeOut, left := fadeSamples }
  | _ => g

/-! ### Slot masks (R247, R248) -/

/-- A slot mask changes at a switch point: a channel added waits for its zero crossing to open, a channel removed to
close; the channels are numbered from `first`. -/
def State.maskChange (s : State) (p cell first old new : Nat) : Nat → State
  | 0 => s
  | n + 1 =>
    let s' := s.maskChange p cell first old new n
    if bit new n && !bit old n then s'.waitGate ⟨p, first + n, cell⟩ .opening
    else if !bit new n && bit old n then s'.closeGate ⟨p, first + n, cell⟩ .closing
    else s'

/-! ### Faults and resets of the audio engines -/

/-- A fault in a shuffler bank: its outputs ramp to silence, DEGRADED is set. -/
def State.ashBankFault (s : State) (bank : Nat) : State :=
  ({ s with ashFaulted := if bank ∈ s.ashFaulted then s.ashFaulted else bank :: s.ashFaulted }).putDegraded pgAsh true

/-- An engine reset of ASRC[k] releases its channels: the routes take new converters at once where their flow's mode is
ALWAYS or AUTO, else they are silent until their next change. -/
def State.asrcReset (s : State) (k : Nat) : State :=
  let hit := s.routes.filter fun e => match e.2.asrc with | some n => decide (n / 128 = k) | none => false
  let s1 := hit.foldl (fun s e =>
    match e.2.asrc with
    | some n => (s.unbindAsrc n).putRouteRun e.1 { s.routeRun e.1 with asrc := none }
    | none => s) s
  hit.foldl (fun s e => s.assignAsrc e.1 e.2.word) s1

/-- Route storage goes with an engine reset or a warm reset of ASH; pending AUDIO_ROUTE events end FLUSHED (R237). -/
def State.ashReset (s : State) : State :=
  let s1 := (s.events.filter fun e => decide (e.kind = .audioRoute)).foldl State.flushEvent s
  { s1 with routeSets := [], setOp := none, ashFaulted := [] }

end Sys2Proof.Machine
end

