-- ==== Sys2Proof/Machine/Takes.lean ====
section
/-! DEFINITION. Takes: crosspoint entries as they apply, the Rind and its copies, TAKE pins, the commits of a switch
line (R71 to R74, R79, R86, R88 to R98). -/

namespace Sys2Proof.Machine

/-! ### Entries (R88 to R90, R94) -/

/-- Is an entry skipped (R89)? -/
def State.entryBad (s : State) (e : XpEntry) : Bool :=
  !s.isEgress e.egress ||
  (!e.disconnect && !(s.isIngress e.source && decide (s.flowType e.source = s.flowType e.egress))) ||
  (e.policySet && decide (e.policy = 3))

/-- Does an egress flow's change wait for the switch point of its own raster (R94)? A LOCKED raster of the take's
timebase with no offset, on its target, has the same switch point; a fabric transmitter's raster is its flow's timebase, OFFSET
behind (R91). -/
def State.waitsForRaster (s : State) (f k : Nat) : Bool :=
  match s.rasterOfFlow f with
  | some (p, c) => (s.raster p c).running && !s.rasterShares p c k
  | none => decide ((s.flowPort f).1 = kindFabric) &&
      !decide (s.get pgFlow f F.flowwinCtx0Tb = k ∧ s.get pgFlow f F.flowwinCtx4Offset = 0)

/-- The map takes an entry; what the egress shows changes with it, or at its raster's switch point. -/
def State.putXp (s : State) (k f : Nat) (e : XpEntry) : State :=
  let old := s.xpSeen f
  let s1 := { s with xp := Tab.put f e s.xp }
  if s.waitsForRaster f k then { s1.putRun f { s1.run f with takenNs := s.now } with xpOld := Tab.put f old s.xpOld }
  else ({ s1 with xpOld := Tab.del f s.xpOld }).choose f true

/-- The bound audio flows that AUDIO_FOLLOW switches (R90). -/
def State.followPair (s : State) (e src : Nat) : Option (Nat × Nat) :=
  let a := s.get pgFlow e F.flowwinCtx5AfFlow
  let b := s.get pgFlow src F.flowwinCtx5AfFlow
  if s.flag pgFlow e F.flowwinCtx5AfEn && s.flag pgFlow src F.flowwinCtx5AfEn && s.isEgress a && s.isIngress b &&
      decide (s.flowType a = typeAudio ∧ s.flowType b = typeAudio)
  then some (a, b) else none

/-- A whole-flow entry of an audio egress flow that selects an ingress flow. -/
def followEntry (a b : Nat) : XpEntry :=
  { egress := a, source := b, disconnect := false, audioFollow := false, forceFs := false, policySet := false
    policy := 0 }

/-- An entry of a take at timebase k applies, or is skipped and counted (R88 to R90); `phases` are those of the arm point (R91)
(log entry 215). -/
def State.applyEntry (k : Nat) (phases : List (Nat × Int)) (s : State) (e : XpEntry) : State :=
  if s.entryBad e then s.bump pgCore 0 F.coreTakeSkipCount
  else
    let f := e.egress
    let s1 := if e.policySet then
        let s' := s.put pgFlow f F.flowwinCtx3SyncPolicy e.policy
        { s' with shadow := Assoc.erase Key.code (F.flowwinCtx3SyncPolicy.key pgFlow f) s'.shadow }
      else s
    if s.flowType f = typeAudio then
      ({ s1 with xp := Tab.put f e s1.xp }).flowRoute k f (if e.disconnect then none else some e.source)
    else
      let s2 := (s1.putRun f { s1.run f with armPhase := Assoc.find id f phases }).putXp k f e
      if e.audioFollow && !e.disconnect && decide (s.flowType f = typeVideo) then
        match s2.followPair f e.source with
        | some (a, b) => ({ s2 with xp := Tab.put a (followEntry a b) s2.xp }).flowRoute k a (some b)
        | none => s2
      else s2

/-- A take applies every entry (R94). -/
def State.applyTake (s : State) (k : Nat) (es : List XpEntry) (phases : List (Nat × Int)) : State :=
  (es.foldl (State.applyEntry k phases) s).bump pgCore 0 F.coreTakeCntCount

/-- An egress flow's own raster reaches its switch point: what a take or an event left waiting becomes visible. -/
def State.showXp (s : State) (f : Nat) : State :=
  if s.flowType f = typeAudio then s.showRoutes f
  else match Assoc.find id f s.xpOld with
    | some _ => ({ s with xpOld := Tab.del f s.xpOld }).choose f true
    | none => s

/-- The crosspoint of a freed egress flow is DISCONNECT (R85). -/
def State.disconnect (s : State) (f : Nat) : State :=
  { s with xp := Tab.del f s.xp, xpOld := Tab.del f s.xpOld }

/-! ### Units that commit at switch lines (R86, R247) -/

/-- The allocated flows of a timebase. -/
def State.flowsOf (s : State) (k : Nat) : List Nat := s.flows.filter fun f => decide (s.get pgFlow f F.flowwinCtx0Tb = k)

/-- The page and the slot-mask unit of an IP audio sender's flow. -/
def State.maskUnit (s : State) (f : Nat) : Option (Nat × Nat) :=
  let (kind, port, slot) := s.flowPort f
  if decide (kind = kindIp) && s.isEgress f && decide (s.flowType f = typeAudio) then
    some (pgIpp port, strmCell 1 (slot % 64) + 0x201) else none

/-- The cell of a slot-mask unit. -/
def maskCell (u : Nat) : Nat := u - 0x201

/-- A slot mask of an IP send slot, channels 0 to 63. -/
def State.ipMask (s : State) (p c : Nat) : Nat :=
  s.get p c F.ippStrmAmaskHiMask * 2 ^ 32 + s.get p c F.ippStrmAmaskLoMask

/-- A slot-mask unit's capture: it commits without a request, the last write before the capture wins (R247). -/
def State.captureMask (s : State) (p u : Nat) : State :=
  s.putUnit p u { s.unit p u with frozen := true, captured := true }

/-- A slot-mask unit of an IP sender applies at its switch point. -/
def State.applyIpMask (s : State) (p u : Nat) : State :=
  if (s.unit p u).captured then
    let c := maskCell u
    let old := s.ipMask p c
    let s1 := (s.applyShadow p u).putUnit p u { s.unit p u with captured := false }
    s1.maskChange p c 0 old (s1.ipMask p c) 64
  else s

/-! ### The Rind (R72, R73, R95, R96) -/

/-- A bulk copy of a scheduled TAKE or AUDIO_ROUTE (R96). -/
def State.bulkCopy (s : State) (e : Event) : State :=
  let take := decide (e.kind = .take)
  { s with bank := s.bank ++ [{ owner := .event e.handle, tb := e.tb, late := false, state := .copying
                                entries := if take then s.salvo e.arg else []
                                routes := if take then [] else s.routeSet e.arg, phases := [] }] }

/-- Pending events of a kind for a point of a timebase. -/
def State.eventsAt (s : State) (kind : EvKind) (k frame line : Nat) : List Event :=
  s.events.filter fun e => decide (e.kind = kind ∧ e.tb = k ∧ e.frame = frame ∧ e.line = line)

/-- The Rind of a switch line opens: shadow copies freeze and pending commits are captured; scheduled takes and route sets of the
line begin their copies on the bulk port. -/
def State.rindOpen (s : State) (k line : Nat) : State :=
  let t := s.tb k
  let s1 := s.putTb k { t with rind := some line }
  let s2 := (s1.flowsOf k).foldl (fun s f => s.capture pgFlow (f + 1) t.frame) s1
  let s3 := (s2.flowsOf k).foldl (fun s f =>
    match s.maskUnit f with
    | some (p, u) => s.captureMask p u
    | none => s) s2
  (s3.eventsAt .take k t.frame line ++ s3.eventsAt .audioRoute k t.frame line).foldl State.bulkCopy s3

/-- The Rind closes: staged writes join the shadow copies. -/
def State.rindClose (s : State) (k : Nat) : State :=
  let s1 := s.putTb k { s.tb k with rind := none }
  let s2 := (s1.flowsOf k).foldl (fun s f => s.thaw pgFlow (f + 1)) s1
  (s2.flowsOf k).foldl (fun s f =>
    match s.maskUnit f with
    | some (p, u) => s.thaw p u
    | none => s) s2

/-- The phases of the sources that a list of entries gives to its egress flows (R91). -/
def State.phasesOf (s : State) (es : List XpEntry) : List (Nat × Int) :=
  (es.filter fun e => s.isEgress e.egress && !e.disconnect).map fun e => (e.egress, s.phaseOf e.egress e.source)

/-- The arm point: copies for the switch point are captured, with the phases of their sources (R91, R94). -/
def State.armPoint (s : State) (k line : Nat) : State :=
  let fr := (s.tb k).frame
  let hs := (s.eventsAt .take k fr line ++ s.eventsAt .audioRoute k fr line).map fun e => e.handle
  { s with bank := s.bank.map fun c =>
      let mine := match c.owner with
        | .event h => decide (h ∈ hs)
        | .pin n => decide (c.tb = k) && !(s.pin n).following
      if mine && (decide (c.state = .done) || (!c.late && decide (c.state = .copying) &&
          (match c.owner with | .event _ => true | .pin _ => false)))
      then { c with state := .armed, phases := s.phasesOf c.entries } else c }

/-! ### Copies (R95, R96) -/

/-- A late copy ends: pin copies that waited for it start, then the late TAKE that waits. -/
def State.lateCopyDone (s : State) : State :=
  let b1 := s.bank.map fun c =>
    if c.late && decide (c.state = .copying) then { c with state := .done } else c
  { s with bank := b1.map fun c => if decide (c.state = .waiting) then { c with state := .copying } else c }

/-- Is a late copy in progress? -/
def State.lateBusy (s : State) : Bool := s.bank.any fun c => c.late && decide (c.state = .copying)

/-! ### TAKE pins (R97, R98) -/

/-- Nanoseconds until the next switch point of a timebase, by its count as it stands; a jump that is pending ends the frame at its
instant, and a switch line that the frame then does not reach is its last line (R67). -/
def State.toSwitchPoint (s : State) (k : Nat) : Nat :=
  let t := (s.tb k).settle s.now
  let here := t.pos s.now
  let lines := switchLines t.struct
  let ahead := lines.filterMap fun l =>
    let p := (l - 1) * fmtSamples t.struct t.rate
    if here < p then some p else none
  let frameEnd := t.jumpEnd.getD (t.startNs + nsOf t.struct t.rate (fmtFrameSamples t.struct t.rate))
  let point := match ahead with
    | p :: _ => min (t.startNs + nsOf t.struct t.rate p) (frameEnd - nsOf t.struct t.rate (fmtSamples t.struct t.rate))
    | [] => frameEnd + nsOf t.struct t.rate ((lines.headD 1 - 1) * fmtSamples t.struct t.rate)
  point - s.now

/-- A pin's armed salvo starts its copy, behind a late copy in progress. -/
def State.pinCopy (s : State) (n : Nat) : State :=
  { s with bank := s.bank ++ [{ owner := .pin n, tb := s.get pgCore 0 (pinTb n), late := false
                                state := if s.lateBusy then .waiting else .copying
                                entries := s.salvo (s.get pgCore 0 (pinSalvo n)), routes := [], phases := [] }] }

/-- Set a bit of a write-one-to-clear field. -/
def State.setBit (s : State) (p c : Nat) (f : Field) (n : Nat) : State := s.put p c f (withBit (s.get p c f) n)

/-- A take on TAKE[n], for the coming switch point or the one after it. -/
def State.takeOnPin (s : State) (n : Nat) (gated : Bool) : State :=
  let edge := PinEdge.take (gated && !bit (s.get pgCore 0 F.corePinStatusGated) n)
    (gated && !bit (s.get pgCore 0 F.hdrIntStat) 17)
  let s1 := (s.pinCopy n).putPin n { s.pin n with pending := true, following := gated, edge := edge }
  if gated then (s1.setBit pgCore 0 F.corePinStatusGated n).raise pgCore 17 else s1

/-- Does a TAKE pin act: armed, its timebase running, CORE not resetting? -/
def State.pinActs (s : State) (n : Nat) : Bool :=
  s.flag pgCore 0 (pinArm n) && decide ((s.tb (s.get pgCore 0 (pinTb n))).state ≠ .off) && !s.resetting pgCore

/-- A rising edge on TAKE[n] (R97). An edge within 12 ns of the 1.0 µs boundary may fall on either side. A lead forwards the
take; a shadow ignores its pins (R299, R305). -/
def State.pinEdge (s : State) (n : Nat) : State :=
  let k := s.get pgCore 0 (pinTb n)
  if !s.pinActs n || decide (s.role = roleShadow) then s
  else if (s.pin n).pending then
    (s.putPin n { s.pin n with edge := .dup !(bit (s.get pgCore 0 F.corePinStatusDup) n) }).setBit pgCore 0 F.corePinStatusDup n
  else
    let lead := s.toSwitchPoint k
    let (v, s1) := if 988 ≤ lead ∧ lead < 1012 then s.draw else (0, s)
    let gated := if 988 ≤ lead ∧ lead < 1012 then decide (v % 2 = 1) else decide (lead < 1000)
    (s1.share pgCore n [ofBool gated]).takeOnPin n gated

/-- The pulse on TAKE[n] was a runt: what its edge did is taken back, a pending take's copy with it (R97). -/
def State.pinRunt (s : State) (n : Nat) : State :=
  let clear := fun (s : State) (f : Field) (b : Nat) (yes : Bool) => if yes then s.put pgCore 0 f (withoutBit (s.get pgCore 0 f) b) else s
  match (s.pin n).edge with
  | .none => s
  | .take gated raised =>
    let s1 := clear (clear (s.dropPin n) F.corePinStatusGated n gated) F.hdrIntStat 17 raised
    s1.releasePinCfg n
  | .dup set => clear (s.putPin n { s.pin n with edge := .none }) F.corePinStatusDup n set

/-- A PIN_CFG write: held while a take is pending (R97). -/
def State.writePinCfg (s : State) (n w : Nat) : State :=
  if (s.pin n).pending then s.putPin n { s.pin n with heldCfg := some w } else s.applyPinCfg n w

/-- A pin's take at a switch point of its timebase: it applies, or the switch point is the one before its own. -/
def State.pinTake (s : State) (k n : Nat) : State :=
  let x := s.pin n
  if !(x.pending && decide (s.get pgCore 0 (pinTb n) = k)) then s
  else if x.following then s.putPin n { x with following := false }
  else
    let (es, ph) := match s.bank.find? fun c => decide (c.owner = .pin n) with
      | some c => (c.entries, c.phases)
      | none => ([], [])
    (((s.applyTake k es ph).dropPin n).raise pgCore 16).releasePinCfg n

/-- An engine reset of CORE (R426): pin takes are dropped, pins disarmed, held writes discarded, a march test abandoned. -/
def State.coreReset (s : State) : State :=
  let s1 := [0, 1, 2, 3].foldl (fun s n => ((s.dropPin n).putPin n TakePin.idle).put pgCore 0 (pinArm n) 0) s
  { s1 with vat := s1.vat.map fun e =>
      if e.2.state = .testing then (e.1, { e.2 with state := .fenced, tested := false }) else e }

/-! ### The switch point (R79, R94) -/

/-- The copy of an event in the shadow crosspoint bank. -/
def State.eventCopy (s : State) (e : Event) : Option BankCopy := s.bank.find? fun c => decide (c.owner = .event e.handle)

/-- An event's copy leaves the bank. -/
def State.dropCopy (s : State) (e : Event) : State :=
  { s with bank := s.bank.filter fun c => decide (c.owner ≠ .event e.handle) }

/-- A scheduled take applies what its copy holds. -/
def State.takeEvent (s : State) (e : Event) : State :=
  let (es, ph) := match s.eventCopy e with
    | some c => (c.entries, c.phases)
    | none => (s.salvo e.arg, [])
  ((s.applyTake e.tb es ph).appliedEvent e).dropCopy e

/-- A scheduled route set applies what its copy holds. -/
def State.routeEvent (s : State) (e : Event) : State :=
  let es := match s.eventCopy e with
    | some c => c.routes
    | none => s.routeSet e.arg
  ((s.applyRoutes e.tb es).appliedEvent e).dropCopy e

/-- Captured commits of a timebase's flows and slot masks apply. -/
def State.switchCommits (s : State) (k : Nat) : State :=
  let s1 := (s.flowsOf k).foldl (fun s f =>
    if (s.unit pgFlow (f + 1)).captured then s.applyCommit pgFlow (f + 1) else s) s
  (s1.flowsOf k).foldl (fun s f =>
    match s.maskUnit f with
    | some (p, u) => s.applyIpMask p u
    | none => s) s1

/-- A switch point, but for the profiles that come first (R79). -/
def State.switchPoint (s : State) (k line : Nat) : State :=
  let frame := (s.tb k).frame
  let s1 := s.switchCommits k
  let s2 := (s1.eventsAt .take k frame line).foldl State.takeEvent s1
  let s3 := (s2.eventsAt .audioRoute k frame line).foldl State.routeEvent s2
  [0, 1, 2, 3].foldl (fun s n => s.pinTake k n) s3

/-! ### Resets of the schedule (R83) -/

/-- Salvo storage is cleared: pins whose salvo goes are disarmed; a pin's pending take stays where its copy is done, and what a
PIN_CFG write left waiting for a take that goes takes effect. -/
def State.clearSalvos (s : State) : State :=
  let s1 := [0, 1, 2, 3].foldl (fun s n =>
    if s.flag pgCore 0 (pinArm n) then
      let copying := s.bank.any fun c => decide (c.owner = .pin n) && decide (c.state = .copying ∨ c.state = .waiting)
      (if copying then s.dropPin n else s).put pgCore 0 (pinArm n) 0
    else s) s
  let s2 := { s1 with salvos := [], salvoOp := none }
  [0, 1, 2, 3].foldl (fun s n => if (s.pin n).pending then s else s.releasePinCfg n) s2

/-- What an engine reset or a warm reset of SCHED does at the end of its reset phase. -/
def State.schedReset (s : State) : State :=
  let tbs := [0, 1, 2, 3].filter fun k => s.events.any fun e => decide (e.tb = k)
  let s1 := s.events.foldl State.flushEvent s
  let s2 := tbs.foldl (fun s k => s.raise (pgTb k) 20) s1
  let s3 := if tbs.isEmpty then s2 else s2.raise pgSched 17
  { s3.clearSalvos with doneLog := [], doneOvf := false }

/-! ### Submitting and cancelling (R77, R80) -/

/-- EV_SUBMIT of a master: the staged event is checked and entered (R77). -/
def State.evSubmit (s : State) (m : Nat) : State :=
  let w0 := s.get pgSched m F.schedEvW0Word
  let put := fun (s : State) (c h : Nat) => (s.put pgSched m F.schedEvResultCode c).put pgSched m F.schedEvResultHandle h
  match evKindOf (bits w0 28 4) with
  | none => put s evBadKind 0
  | some k =>
    let e := eventOf w0 (s.get pgSched m F.schedEvW1Word) (s.get pgSched m F.schedEvW2Word)
      (s.get pgSched m F.schedEvW3Word) k (.submit m)
    let (s1, c, h) := s.submit e
    put s1 c h

/-- EV_CANCEL of a master (R80). A take whose copy has begun is withdrawn with its copy. -/
def State.evCancel (s : State) (m h : Nat) : State :=
  let put := fun (s : State) (c : Nat) => (s.put pgSched m F.schedEvResultCode c).put pgSched m F.schedEvResultHandle h
  match s.pendingEvent h with
  | none => put s evNotFound
  | some e =>
    if e.kind = .pageCommit ∨ e.kind = .layerCommit then put s evBadKind
    else if s.deadlinePassed e.kind e.tb e.frame e.line e.sample then put s evTooLate
    else
      let s1 := s.endEvent h .cancelled
      put { s1 with bank := s1.bank.filter fun c => decide (c.owner ≠ .event h) } evOk

/-- What EV_QSTATE reads for a handle (R80). -/
def State.evQuery (s : State) (h : Nat) : Nat :=
  let x := s.evSlot (handleSlot h)
  if x.gen = handleGen h then
    match x.state with
    | .free => 0 | .pending => 1 | .applied => 2 | .cancelled => 3 | .flushed => 4
  else 0

/-! ### Salvo operations (R82) -/

/-- Result codes of SALVO_RESULT. -/
abbrev opOk : Nat := 0
abbrev opPoolFull : Nat := 1
abbrev opBusy2 : Nat := 2
abbrev opBadArg : Nat := 3
abbrev opBusy : Nat := 4

/-- SALVO_OP = LOAD: refused, or begun with the entries read. -/
def State.salvoLoad (s : State) : State :=
  let n := s.get pgSched 0 F.schedSalvoCountCount
  let v := s.get pgSched 0 F.schedSalvoIndexSalvo
  let code := fun (c : Nat) => s.put pgSched 0 F.schedSalvoResultCode c
  if s.salvoOp.isSome then code opBusy
  else if n = 0 ∨ 1024 < n then code opBadArg
  else if s.salvoBusy v then code opBusy2
  else if s.poolFree < n then code opPoolFull
  else
    let data := s.readBytes (s.addr40 pgSched 0 F.schedSalvoSrcLoAddr F.schedSalvoSrcHiAddr) (8 * n)
    ({ s with salvoOp := some (.load v (data.map (xpEntries n))) }).put pgSched 0 F.schedSalvoResultBusy 1

/-- SALVO_OP = DELETE: refused, or begun. -/
def State.salvoDelete (s : State) : State :=
  let v := s.get pgSched 0 F.schedSalvoIndexSalvo
  let code := fun (c : Nat) => s.put pgSched 0 F.schedSalvoResultCode c
  if s.salvoOp.isSome then code opBusy
  else if s.salvoBusy v then code opBusy2
  else ({ s with salvoOp := some (.delete v) }).put pgSched 0 F.schedSalvoResultBusy 1

/-- A salvo operation completes. -/
def State.salvoDone (s : State) : State :=
  let done := fun (s : State) (c : Nat) =>
    (({ s with salvoOp := none }).put pgSched 0 F.schedSalvoResultBusy 0).put pgSched 0 F.schedSalvoResultCode c
  match s.salvoOp with
  | some (.load v (some es)) => done { s with salvos := Tab.put v es s.salvos } opOk
  | some (.load _ none) => done s opBadArg
  | some (.delete v) => done { s with salvos := Tab.del v s.salvos } opOk
  | none => s

end Sys2Proof.Machine
end

