-- ==== Sys2Proof/Machine/Vat.lean ====
section
/-! DEFINITION. The Vat: banks and their fencing, fragments and their reads (R16, R93, R100 to R103). -/

namespace Sys2Proof.Machine

/-! ### Banks -/

/-- A bank at cold power-up: 0 to 63 in service in their own slots, 64 and 65 spare (R101). -/
def VatBank.cold (n : Nat) : VatBank :=
  { state := if n < 64 then .inService else .spare, slot := if n < 64 then some n else none, tested := false, ue := 0
    ce := 0, ceTimes := [] }

/-- Bank n. -/
def State.bank_ (s : State) (n : Nat) : VatBank := (Assoc.find id n s.vat).getD (VatBank.cold n)

/-- Write bank n. -/
def State.putBank (s : State) (n : Nat) (b : VatBank) : State := { s with vat := Tab.put n b s.vat }

/-- All banks. -/
abbrev bankCount : Nat := 66

/-- The banks in a state. -/
def State.banksIn (s : State) (x : VatState) : List Nat :=
  (List.range bankCount).filter fun n => decide ((s.bank_ n).state = x)

/-- Banks in service (VAT_SUMMARY). A spare that took a draining bank's slot is in service for that slot (R101). -/
def State.inService (s : State) : Nat := (s.banksIn .inService).length

/-- Codes of VAT_STATUS.STATE. -/
def VatState.code : VatState → Nat
  | .inService => 0 | .spare => 1 | .draining => 2 | .fenced => 3 | .testing => 4 | .testFailed => 5

/-- Spare banks that have taken no slot. -/
def State.freeSpares (s : State) : List Nat := (s.banksIn .spare).filter fun n => (s.bank_ n).slot.isNone

/-- Is a fence refused (R101)? -/
def State.fenceRefused (s : State) (n : Nat) : Bool :=
  decide ((s.bank_ n).state ≠ .inService) || !(s.banksIn .draining).isEmpty ||
    (s.freeSpares.isEmpty && decide (s.inService ≤ 48))

/-- A fence: with a spare, which takes the bank's slot; without one, the interleave re-forms and DEGRADED is set
(R101, R102). -/
def State.fence (s : State) (n : Nat) : State :=
  if s.fenceRefused n then s.setErr pgCore 16
  else
    let b := s.bank_ n
    let s1 := s.putBank n { b with state := .draining, slot := none, tested := false }
    match s.freeSpares with
    | sp :: _ => s1.putBank sp { s1.bank_ sp with slot := b.slot }
    | [] => s1.putDegraded pgCore true

/-- The drain of a bank ends: it is FENCED, the spare that took its slot is IN_SERVICE (R101). -/
def State.drainDone (s : State) (n : Nat) : State :=
  let b := s.bank_ n
  if b.state = .draining then
    let s1 := s.putBank n { b with state := .fenced }
    let s2 := match (s.banksIn .spare).find? fun m => (s.bank_ m).slot.isSome with
      | some m => s1.putBank m { s1.bank_ m with state := .inService }
      | none => s1
    s2.raise pgCore 18
  else s

/-- VAT_CTRL.TEST (R103). -/
def State.vatTest (s : State) (n : Nat) : State :=
  let b := s.bank_ n
  if b.state = .fenced ∨ b.state = .testFailed then s.putBank n { b with state := .testing, tested := false }
  else s.setErr pgCore errBadValue

/-- A march test ends (R103). -/
def State.vatTestDone (s : State) (n : Nat) (pass : Bool) : State :=
  let b := s.bank_ n
  if b.state = .testing then
    s.putBank n { b with state := if pass then .fenced else .testFailed, tested := pass }
  else s

/-- The lowest logical slot that no bank holds. -/
def State.freeSlot (s : State) : Option Nat :=
  (List.range 64).find? fun k => (List.range bankCount).all fun m => decide ((s.bank_ m).slot ≠ some k)

/-- Banks that take new segments: those in service and a spare that has taken a draining bank's slot. -/
def State.slotsHeld (s : State) : Nat :=
  s.inService + ((s.banksIn .spare).filter fun n => (s.bank_ n).slot.isSome).length

/-- VAT_CTRL.UNFENCE: the bank is SPARE, or IN_SERVICE where the interleave runs with fewer than 64 banks (R103) (log entry 214). -/
def State.vatUnfence (s : State) (n : Nat) : State :=
  let b := s.bank_ n
  if b.state = .fenced ∧ b.tested = true then
    if 64 ≤ s.slotsHeld then s.putBank n { b with state := .spare, tested := false }
    else
      let s1 := s.putBank n { b with state := .inService, slot := s.freeSlot, tested := false }
      if s1.inService = 64 then s1.putDegraded pgCore false else s1
  else s.setErr pgCore errBadValue

/-- A VAT_CTRL write: more than one of FENCE, TEST and UNFENCE is refused whole (R101). -/
def State.vatCtrl (s : State) (w : Nat) : State :=
  let n := s.get pgCore 0 F.coreVatIndexBank
  match bit w 31, bit w 30, bit w 29 with
  | true, false, false => s.fence n
  | false, true, false => s.vatTest n
  | false, false, true => s.vatUnfence n
  | false, false, false => s
  | _, _, _ => s.setErr pgCore errBadValue

/-! ### ECC (R100, R101) -/

/-- AUTO_FENCE fences a bank; one that is refused leaves ERR.ENG.FENCE_REFUSED as any other. -/
def State.autoFence (s : State) (n : Nat) : State := if s.flag pgCore 0 F.coreCfgAutoFence then s.fence n else s

/-- A corrected error of a bank: counted; more than CE_LIMIT within 1 s fences it. -/
def State.vatCe (s : State) (n : Nat) : State :=
  let b := s.bank_ n
  let times := s.now :: b.ceTimes.filter fun t => decide (s.now < t + 1000000000)
  let s1 := s.putBank n { b with ce := satNat 8 (b.ce + 1), ceTimes := times }
  let lim := s.get pgCore 0 F.coreCfgCeLimit
  if lim ≠ 0 ∧ lim < times.length then s1.autoFence n else s1

/-- An uncorrectable error of a bank: flagged, recorded, and the bank fenced (R100, R101). -/
def State.vatUe (s : State) (n : Nat) : State :=
  let b := s.bank_ n
  let s1 := s.putBank n { b with ue := satNat 8 (b.ue + 1) }
  let s2 := (s1.setErr pgCore 17).raise pgCore 19
  let resp := if s.pairing = 5 then respMasked else respConcealed
  (s2.fault fltMemUe resp 0 pgCore n 0).autoFence n

/-! ### Fragments (R16, R100) -/

/-- Residence of a segment with so many banks (R100, R102), in nanoseconds: four segment slots for each. -/
def State.residenceNs (s : State) : Nat := 4 * s.slotsHeld * 128

/-- The key of a fragment: flow, line, segment and fragment. -/
def fragKey (flow line seg frag : Nat) : Key := ⟨flow, line, seg * 32 + frag⟩

/-- Does a key name a fragment of a segment? -/
def inSegment (flow line seg : Nat) (k : Key) : Bool := decide (k.page = flow ∧ k.cell = line ∧ k.slot / 32 = seg)

/-- The fragments of a segment that the Vat holds, in order. -/
def State.segment (s : State) (flow line seg : Nat) : List (Key × Fragment) :=
  s.frags.filter fun e => inSegment flow line seg e.1

/-- The lines that have a resident fragment: flow and line. -/
def State.residentLines (s : State) : List (Nat × Nat) :=
  s.frags.foldl (fun l e =>
    if s.now ≤ e.2.atNs + s.residenceNs ∧ (e.1.page, e.1.cell) ∉ l then (e.1.page, e.1.cell) :: l else l) []

/-- Is a fragment kept: resident, of the line before one that is, which it conceals, or of its flow's line in progress or the one
before (R100)? -/
def State.keepsFrag (s : State) (live : List (Nat × Nat)) (e : Key × Fragment) : Bool :=
  decide ((e.1.page, e.1.cell) ∈ live ∨ (e.1.page, e.1.cell + 1) ∈ live) ||
    match Assoc.find id e.1.page s.runs with
    | some r => decide (e.1.cell = r.line ∨ e.1.cell + 1 = r.line)
    | none => false

/-- A fragment is written at an instant: the residence of its whole segment counts from it (R100); what is kept no more goes. -/
def State.writeFragAt (s : State) (at_ flow line seg frag : Nat) (b : Bytes) (sl : Nat) : State :=
  let kept := (s.frags.filter (s.keepsFrag s.residentLines)).map fun e =>
    if inSegment flow line seg e.1 then (e.1, { e.2 with atNs := at_ }) else e
  { s with frags := Assoc.set Key.code (fragKey flow line seg frag) ⟨at_, b, sl⟩ kept }

/-- A fragment is written now. -/
def State.writeFrag (s : State) (flow line seg frag : Nat) (b : Bytes) (sl : Nat) : State :=
  s.writeFragAt s.now flow line seg frag b sl

/-- A fragment that is resident. -/
def State.readFrag (s : State) (flow line seg frag : Nat) : Option Fragment :=
  match Assoc.find Key.code (fragKey flow line seg frag) s.frags with
  | some x => if x.atNs ≤ s.now ∧ s.now ≤ x.atNs + s.residenceNs then some x else none
  | none => none

end Sys2Proof.Machine
end

