-- ==== Sys2Proof/Machine/TimeCmds.lean ====
section
/-! DEFINITION. The commands of the timebases, the Rind, the Event Schedule, salvo storage and the TAKE pins (R57 to
R83, R94 to R98), but for those that end a frame or reach a switch point. -/

namespace Sys2Proof.Machine

/-! ### CTRL and FORMAT of a timebase -/

/-- A write of a word's fields but for listed ones. -/
def State.writeBut (s : State) (p c : Nat) (run : Bool) (w off : Nat) (but : List Field) : State :=
  s.writeFields p c run w ((fieldsAt p off).filter fun f => decide (f ∉ but))

/-- A STRUCT and RATE pair of one write, judged together: an illegal pair leaves both and sets BAD_VALUE (R59). -/
def State.writeFormat (s : State) (p c : Nat) (run : Bool) (w off : Nat) (st rt : Field) : State :=
  if fmtLegal (st.extract w) (rt.extract w) then s.writeFields p c run w (fieldsAt p off)
  else (s.writeBut p c run w off [st, rt]).setErr p errBadValue

/-- A slice or a compositor that only its power grant keeps from READY (R173, R208, R326). -/
def State.wantsPower (s : State) (p : Nat) : Bool :=
  decide (pageType p = 0x060 ∨ pageType p = 0x061) && !s.flag p 0 F.hdrReady &&
    decide (s.get p 0 F.hdrReadyCause = causeWaitPower)

/-- Does an engine act on what is written to it? One that is not READY stores LIVE and IDLE writes and acts on them when
it becomes READY (R326, log entry 15); a slice or a compositor is started to have its power granted. -/
def State.acts (s : State) (p : Nat) : Bool := s.flag p 0 F.hdrReady || s.wantsPower p

/-- A write of TB CTRL: the fields, then RUN (R61, R69). -/
def State.writeTbCtrl (s : State) (k w : Nat) : State :=
  let p := pgTb k
  let run := s.running p
  let s1 := (s.writeBut p 0 run w 0x080 [F.tbCtrlRun]).put p 0 F.tbCtrlRun (bits w 0 1)
  if run && !bit w 0 then (s1.tbHalt k).synTbOff k
  else if !run && bit w 0 && s1.acts p then (s1.tbStart k).synTbOn k
  else s1

/-- A write of PRESET_ARM (R62). -/
def State.writePresetArm (s : State) (k w : Nat) : State :=
  let p := pgTb k
  if bit w 0 then
    if s.tbSource k ≤ srcRefB then s.put p 0 F.tbPresetArmArm 1 else s.setErr p errBadValue
  else s

/-- A write of PHASE_SLEW: a slew in progress goes on at the limit now in force (R67). -/
def State.writePhaseSlew (s : State) (k w : Nat) : State :=
  let p := pgTb k
  let s1 := s.writeFields p 0 (s.running p) w (fieldsAt p F.tbPhaseSlewPpm.off)
  let t := s1.tb k
  if t.slewErr = 0 then s1 else s1.putTb k { t.settle s.now with slewPpm := s1.get p 0 F.tbPhaseSlewPpm }

/-- TB_RUN (R61): a write of CTRL with RUN set. -/
def execTbRun (m : Fin 8) (k : Fin 4) (w : Word) (s : State) : Host.Outcome State Fault Refusal :=
  let w' := withBit w.toNat 0
  .next (s.write m (pgTb k) 0x080 w' fun s => s.writeTbCtrl k w')

/-- TB_STOP (R69): a write of CTRL with RUN clear. -/
def execTbStop (m : Fin 8) (k : Fin 4) (w : Word) (s : State) : Host.Outcome State Fault Refusal :=
  let w' := withoutBit w.toNat 0
  .next (s.write m (pgTb k) 0x080 w' fun s => s.writeTbCtrl k w')

/-- PRESET_ARM (R62). -/
def execPresetArm (m : Fin 8) (k : Fin 4) (s : State) : Host.Outcome State Fault Refusal :=
  .next (s.write m (pgTb k) 0x0A0 1 fun s => s.writePresetArm k 1)

/-! ### References -/

/-- An H edge of a reference, in the line that the count from V gives, at one timebase. -/
def State.hEdge (refB : Bool) (line : Nat) (s : State) (k : Nat) : State :=
  let t := s.tb k
  if s.tbSource k = (if refB then srcRefB else srcRefA) then
    s.sync k (t.edgeError s.now line) (t.periodOk s.now 1 t.judged) none
  else s

/-- REF_H_EDGE (R57, R64, R66): every timebase that follows the reference takes the edge. -/
def execRefHEdge (refB : Bool) (line : Nat) (s : State) : Host.Outcome State Fault Refusal :=
  .next ([0, 1, 2, 3].foldl (State.hEdge refB line) s)

/-- TB_LOSS (R65): a timebase in LOCKED whose reference has been silent for the interval of R57 enters HOLDOVER. -/
def execTbLoss (k : Fin 4) (s : State) : Host.Outcome State Fault Refusal :=
  .next (if s.tbSilent k then s.tbLoss k else s)

/-- TB_RATE_MISMATCH (R68): at the first off-rate frame HOLDOVER without a loss, at the third MISMATCH. -/
def execTbRateMismatch (k : Fin 4) (s : State) : Host.Outcome State Fault Refusal := .next (s.rateFrame k)

/-! ### The Rind (R72, R73) -/

/-- Is a line a switch line of a running timebase? -/
def State.switchLineOf (s : State) (k line : Nat) : Bool :=
  decide ((s.tb k).state ≠ .off ∧ line ∈ switchLines (s.tb k).struct)

/-- RIND_OPEN (R72) for a switch line. -/
def execRindOpen (k : Fin 4) (line : Nat) (s : State) : Host.Outcome State Fault Refusal :=
  .next (if s.switchLineOf k line then s.rindOpen k line else s)

/-- RIND_CLOSE (R73). -/
def execRindClose (k : Fin 4) (s : State) : Host.Outcome State Fault Refusal :=
  .next (if (s.tb k).rind.isSome then s.rindClose k else s)

/-- ARM_POINT (R94). -/
def execArmPoint (k : Fin 4) (line : Nat) (s : State) : Host.Outcome State Fault Refusal :=
  .next (if s.switchLineOf k line then s.armPoint k line else s)

/-! ### Events (R75 to R81) -/

/-- Does the schedule carry out its functions? From the time the firmware runs (R326). -/
def State.schedOpen (s : State) : Bool := decide (s.fw = .running)

/-- EVENT_SUBMIT (R77): EV_SUBMIT.GO of a master. -/
def execEventSubmit (m : Fin 8) (s : State) : Host.Outcome State Fault Refusal :=
  .next (s.write m pgSched 0x090 1 fun s => if s.schedOpen then s.evSubmit m else s)

/-- EVENT_CANCEL (R80): EV_CANCEL of a master. -/
def execEventCancel (m : Fin 8) (handle : BitVec 16) (s : State) : Host.Outcome State Fault Refusal :=
  .next (s.write m pgSched 0x098 handle.toNat fun s => if s.schedOpen then s.evCancel m handle.toNat else s)

/-- NOTIFY_EVENT (R76, R81): a pending NOTIFY event reaches its point. -/
def execNotifyEvent (handle : BitVec 16) (s : State) : Host.Outcome State Fault Refusal :=
  .next (match s.pendingEvent handle.toNat with
    | some e => if e.kind = .notify then s.appliedEvent e else s
    | none => s)

/-! ### Salvos (R82) -/

/-- A write of SALVO_OP. -/
def State.writeSalvoOp (s : State) (w : Nat) : State :=
  if !s.schedOpen then s
  else match bits w 0 2 with
    | 1 => s.salvoLoad
    | 2 => s.salvoDelete
    | _ => s.setErr pgSched errBadValue

/-- SALVO_LOAD (R82). -/
def execSalvoLoad (m : Fin 8) (s : State) : Host.Outcome State Fault Refusal :=
  .next (s.write m pgSched 0x0C0 1 fun s => s.writeSalvoOp 1)

/-- SALVO_LOAD_DONE (R82): the load in progress completes. -/
def execSalvoLoadDone (s : State) : Host.Outcome State Fault Refusal :=
  .next (match s.salvoOp with
    | some (.load _ _) => s.salvoDone
    | _ => s)

/-- SALVO_DELETE (R82). -/
def execSalvoDelete (m : Fin 8) (s : State) : Host.Outcome State Fault Refusal :=
  .next (s.write m pgSched 0x0C0 2 fun s => s.writeSalvoOp 2)

/-- SALVO_DELETE_DONE (R82): the delete in progress completes. -/
def execSalvoDeleteDone (s : State) : Host.Outcome State Fault Refusal :=
  .next (match s.salvoOp with
    | some (.delete _) => s.salvoDone
    | _ => s)

/-! ### Copies and pins (R95 to R98) -/

/-- LATE_COPY_DONE (R95). -/
def execLateCopyDone (s : State) : Host.Outcome State Fault Refusal := .next s.lateCopyDone

/-- PIN_COPY_DONE (R98): the copy of a pin's salvo is in the bank. -/
def execPinCopyDone (n : Fin 4) (s : State) : Host.Outcome State Fault Refusal :=
  .next { s with bank := s.bank.map fun c =>
    if c.owner = .pin n ∧ c.state = .copying then { c with state := .done } else c }

/-- TAKE_PIN_EDGE (R97). -/
def execTakePinEdge (n : Fin 4) (s : State) : Host.Outcome State Fault Refusal := .next (s.pinEdge n)

/-- TAKE_PIN_RUNT (R97): the pin falls less than 20 ns after the edge; the take is withdrawn, nothing is counted. -/
def execTakePinRunt (n : Fin 4) (s : State) : Host.Outcome State Fault Refusal :=
  .next (if s.role ≠ roleShadow then s.pinRunt n else s)

/-- PIN_CFG_WRITE (R97). -/
def execPinCfgWrite (m : Fin 8) (n : Fin 4) (w : Word) (s : State) : Host.Outcome State Fault Refusal :=
  .next (s.write m pgCore (0x090 + 4 * n) w.toNat fun s => s.writePinCfg n w.toNat)

/-! ### The Vat (R101 to R103) -/

/-- A VAT_CTRL write with the named bit set. -/
def State.vatWrite (s : State) (m w b : Nat) : State :=
  s.write m pgCore 0x0B4 (withBit w b) fun s => s.vatCtrl (withBit w b)

/-- VAT_FENCE (R101). -/
def execVatFence (m : Fin 8) (w : Word) (s : State) : Host.Outcome State Fault Refusal := .next (s.vatWrite m w.toNat 31)

/-- VAT_DRAIN_DONE (R101). -/
def execVatDrainDone (bank : Fin 66) (s : State) : Host.Outcome State Fault Refusal := .next (s.drainDone bank)

/-- VAT_TEST (R103). -/
def execVatTest (m : Fin 8) (w : Word) (s : State) : Host.Outcome State Fault Refusal := .next (s.vatWrite m w.toNat 30)

/-- VAT_TEST_DONE (R103). -/
def execVatTestDone (bank : Fin 66) (pass : Bool) (s : State) : Host.Outcome State Fault Refusal :=
  .next (s.vatTestDone bank pass)

/-- VAT_UNFENCE (R103). -/
def execVatUnfence (m : Fin 8) (w : Word) (s : State) : Host.Outcome State Fault Refusal :=
  .next (s.vatWrite m w.toNat 29)

end Sys2Proof.Machine
end

