-- ==== Sys2Proof/Machine/FlowCmds.lean ====
section
/-! DEFINITION. The commands of the flow window and of the segments: allocation, contexts, cell commits, fragments, loss
and frame starts (R16, R17, R85 to R87, R92, R93, R100, R112, R113). -/

namespace Sys2Proof.Machine

/-! ### FLOW_CMD (R85) -/

/-- FLOW_RESULT codes. -/
abbrev flowOk : Nat := 0
abbrev flowNoContext : Nat := 1
abbrev flowInUse : Nat := 2
abbrev flowNotAllocated : Nat := 3
abbrev flowBadArg : Nat := 4

/-- FLOW_RESULT of a master. -/
def State.flowResult (s : State) (m c f : Nat) : State :=
  (s.put pgFlow m F.flowwinFlowResultCode c).put pgFlow m F.flowwinFlowResultFlow f

/-- FLOW_INDEX of a master. -/
def State.flowIndex (s : State) (m : Nat) : Nat := s.get pgFlow m F.flowwinFlowIndexFlow

/-- ALLOC: the lowest free context, or NO_CONTEXT. -/
def State.flowAlloc (s : State) (m ty dir : Nat) : State :=
  if ty = 3 then s.flowResult m flowBadArg 0
  else
    let f := firstFree s.flows 0 flowCount
    if flowCount ≤ f then s.flowResult m flowNoContext 0
    else
      let s1 := s.clearContext f
      (((s1.put pgFlow f F.flowwinCtx0Valid 1).put pgFlow f F.flowwinCtx0Dir dir).put pgFlow f F.flowwinCtx0Type ty).flowResult
        m flowOk f

/-- FREE of the flow that FLOW_INDEX selects, or its refusal. -/
def State.flowFree (s : State) (m : Nat) : State :=
  let f := s.flowIndex m
  if !s.flowValid f then s.flowResult m flowNotAllocated f
  else if s.flowEn f then s.flowResult m flowInUse f
  else if s.isIngress f && !(s.readers f).isEmpty then s.flowResult m flowInUse f
  else
    let s1 := if s.isEgress f then s.disconnect f else s.dropStore f
    (((s1.closeCommit pgFlow (f + 1)).putUnit pgFlow (f + 1) CommitUnit.idle).clearContext f).flowResult m flowOk f

/-- A write of FLOW_CMD. -/
def State.writeFlowCmd (s : State) (m w : Nat) : State :=
  match bits w 28 4 with
  | 1 => s.flowAlloc m (bits w 24 2) (bits w 20 1)
  | 2 => s.flowFree m
  | _ => s.flowResult m flowBadArg 0

/-- FLOW_ALLOC (R85): a write of FLOW_CMD with OP = ALLOC. -/
def execFlowAlloc (m : Fin 8) (w : Word) (s : State) : Host.Outcome State Fault Refusal :=
  let w' := w.toNat % 2 ^ 28 + 2 ^ 28
  .next (s.write m pgFlow 0x084 w' fun s => s.writeFlowCmd m w')

/-- FLOW_FREE (R85): a write of FLOW_CMD with OP = FREE. -/
def execFlowFree (m : Fin 8) (w : Word) (s : State) : Host.Outcome State Fault Refusal :=
  let w' := w.toNat % 2 ^ 28 + 2 * 2 ^ 28
  .next (s.write m pgFlow 0x084 w' fun s => s.writeFlowCmd m w')

/-! ### Contexts (R86, R87) -/

/-- A flow starts: an audio flow takes its channel run, EN stays 0 where none is free (R232); an egress chooses how it
reads its source. -/
def State.startFlow (s : State) (f : Nat) : State :=
  if s.flowType f = typeAudio then
    match s.takeRun f with
    | some s1 => (s1.put pgFlow f F.flowwinCtx0En 1).rejudgeAll (s1.routesAt f)
    | none => (s.put pgFlow f F.flowwinCtx0En 0).setErr pgAsh 16
  else
    let s1 := s.put pgFlow f F.flowwinCtx0En 1
    if s1.isEgress f then s1.choose f true else s1

/-- A flow stops: its requested commit applies at once, its channel run is released, its writer's partial frame is
dropped. -/
def State.stopFlow (s : State) (f : Nat) : State :=
  let s1 := (((s.put pgFlow f F.flowwinCtx0En 0).dropRun f).rejudgeAll (s.routesAt f)).dropPartial f
  (s1.putRun f { s1.run f with producing := false, partLine := [] }).stopCommit pgFlow (f + 1)

/-- Codes of STREAM that the port chapters do not mark reserved (R106, R130, R155, R231). -/
def streamLegal (kind v : Nat) : Bool :=
  match kind with
  | 0 => decide (v = 0 ∨ (0x10 ≤ v ∧ v ≤ 0x13) ∨ v = 0x20)
  | 1 => decide (v < 64)
  | 3 => decide (v < 4 ∨ (0x20 ≤ v ∧ v < 0x24))
  | 4 => decide (v = 0 ∨ v = 0x20)
  | 5 => decide (v = 0)
  | 6 => decide (v < 64)
  | _ => true

/-- STREAM of a CTX0 write, judged by the PORT_KIND that the write leaves (R12). -/
def State.writeStream (s : State) (f w : Nat) : State :=
  let run := s.flowEn f
  let v := F.flowwinCtx0Stream.extract w
  if streamLegal (s.get pgFlow f F.flowwinCtx0PortKind) v then s.writeField pgFlow f F.flowwinCtx0Stream run v
  else s.setErr pgFlow errBadValue

/-- A CTX0 write: the fields, then EN (R86). Codes 3 and 4 of PORT_KIND are legal for an ingress only. -/
def State.writeCtx0 (s : State) (f w : Nat) : State :=
  let run := s.flowEn f
  let kind := F.flowwinCtx0PortKind.extract w
  let s0 :=
    if s.isEgress f && decide (kind = kindCnv ∨ kind = kindCpo) then
      (s.writeBut pgFlow f run w 0x0A0 [F.flowwinCtx0En, F.flowwinCtx0Stream, F.flowwinCtx0PortKind]).setErr pgFlow errBadValue
    else s.writeBut pgFlow f run w 0x0A0 [F.flowwinCtx0En, F.flowwinCtx0Stream]
  let s1 := s0.writeStream f w
  let en := F.flowwinCtx0En.extract w = 1
  if run && !en then s1.stopFlow f
  else if !run && en then (if s1.acts pgFlow then s1.startFlow f else s1.put pgFlow f F.flowwinCtx0En 1)
  else s1

/-- The fields of a context that size its store. -/
def storeFields : List Field :=
  [F.flowwinCtx1Struct, F.flowwinCtx1Rate, F.flowwinCtx1Sampling, F.flowwinCtx1Depth, F.flowwinCtx2FsDepth]

/-- A write that may change the size of a flow's store: where the new store does not fit, the fields that concern it keep
their values and FS_NOSPACE is set (R87). -/
def State.fitStore (s after : State) (f : Nat) : State :=
  if (s.run f).store.isSome && decide (after.storeNeed f ≠ s.storeNeed f) then
    match after.giveStore f with
    | some s1 => s1
    | none => (storeFields.foldl (fun t g => t.put pgFlow f g (s.get pgFlow f g)) after).setErr pgFlow 16
  else after

/-- Egress video flows whose samples no longer match those of a flow read it no more until a frame start at which they do (R91). -/
def State.noteMismatch (s : State) (f : Nat) : State :=
  (s.readers f).foldl (fun s e =>
    if decide (s.flowType e = typeVideo) && !s.sameSamples e f then
      (s.putRun e { s.run e with mismatch := true }).rehear e false
    else s) s

/-- A CTX1 write: STRUCT and RATE as a pair, then the store (R87). -/
def State.writeCtx1 (s : State) (f w : Nat) : State :=
  (s.fitStore (s.writeFormat pgFlow f (s.flowEn f) w 0x0A4 F.flowwinCtx1Struct F.flowwinCtx1Rate) f).noteMismatch f

/-- A CTX2 write: FS_DEPTH, then FS_EN, which takes or releases a store; one that sets FS_EN on an egress is dropped (R87). -/
def State.writeCtx2 (s : State) (f w : Nat) : State :=
  let run := s.flowEn f
  let on := decide (F.flowwinCtx2FsEn.extract w = 1)
  let was := s.flag pgFlow f F.flowwinCtx2FsEn
  if on && s.isEgress f then s.setErr pgFlow errBadValue else
  let s1 := s.fitStore (s.writeBut pgFlow f run w 0x0A8 [F.flowwinCtx2FsEn]) f
  if on == was then s1
  else if run then s1.setErr pgFlow errIdleWrite
  else if on then
    match s1.giveStore f with
    | some s2 => s2.put pgFlow f F.flowwinCtx2FsEn 1
    | none => s1.setErr pgFlow 16
  else (s1.dropStore f).put pgFlow f F.flowwinCtx2FsEn 0

/-- The largest OFFSET: one frame less one line. -/
def State.offsetLimit (s : State) (f : Nat) : Nat :=
  let st := s.get pgFlow f F.flowwinCtx1Struct
  let rt := s.get pgFlow f F.flowwinCtx1Rate
  fmtFrameSamples st rt - fmtSamples st rt

/-- A write of one word of a flow's context. -/
def State.writeCtxOf (s : State) (f n w : Nat) : State :=
  match n with
  | 0 => s.writeCtx0 f w
  | 1 => s.writeCtx1 f w
  | 2 => s.writeCtx2 f w
  | 4 =>
    if F.flowwinCtx4Offset.extract w ≤ s.offsetLimit f then
      s.writeFields pgFlow f (s.flowEn f) w (fieldsAt pgFlow 0x0B0)
    else s.setErr pgFlow errBadValue
  | _ => s.writeFields pgFlow f (s.flowEn f) w (fieldsAt pgFlow (0x0A0 + 4 * n))

/-- A write of CTX0 to CTX7: dropped where the selected flow is not allocated (R85). -/
def State.writeCtx (s : State) (m n w : Nat) : State :=
  let f := s.flowIndex m
  if s.flowValid f then s.writeCtxOf f n w else s.setErr pgFlow errBadValue

/-- FLOW_CTX_WRITE (R86). -/
def execFlowCtxWrite (m n : Fin 8) (w : Word) (s : State) : Host.Outcome State Fault Refusal :=
  .next (s.write m pgFlow (0x0A0 + 4 * n) w.toNat fun s => s.writeCtx m n w.toNat)

/-! ### FLOW_COMMIT (R86, R38) -/

/-- A write of FLOW_COMMIT: CANCEL, then COMMIT; a stopped flow commits at once. -/
def State.writeFlowCommit (s : State) (m w : Nat) : State :=
  let f := s.flowIndex m
  if !s.flowValid f then s.setErr pgFlow errBadValue
  else
    let s1 := if bit w 5 then s.cancelCommit pgFlow (f + 1) else s
    if bit w 0 then (if s.flowEn f then s1.requestCommit pgFlow (f + 1) else s1.completeNow pgFlow (f + 1)) else s1

/-- FLOW_COMMIT (R86). -/
def execFlowCommit (m : Fin 8) (s : State) : Host.Outcome State Fault Refusal :=
  .next (s.write m pgFlow 0x08C 1 fun s => s.writeFlowCommit m 1)

/-- FLOW_COMMIT_CANCEL (R38), with or without a new request. -/
def execFlowCommitCancel (m : Fin 8) (commit : Bool) (s : State) : Host.Outcome State Fault Refusal :=
  let w := 32 + ofBool commit
  .next (s.write m pgFlow 0x08C w fun s => s.writeFlowCommit m w)

/-! ### Segments (R16, R17, R93, R112) -/

/-- Largest bytes of a fragment. -/
abbrev fragBytes : Nat := 8

/-- An ingress produces a fragment at an instant: the Vat holds it, the flow's line grows, a new line says when its source's line
began. -/
def State.produceAt (s : State) (at_ f line seg frag : Nat) (b : Bytes) : State :=
  let r := s.run f
  let fresh := decide (seg = 0 ∧ frag = 0)
  let r1 := { r with
    producing := true, lastSegNs := at_
    line := line
    lineNs := if fresh then at_ else r.lineNs
    partLine := if fresh then b else r.partLine ++ b
    errored := if fresh then false else r.errored
    sealState := Config.lineSeal (if fresh then 0 else r.sealState) b
    lost := false }
  (s.writeFragAt at_ f line seg frag b r1.sealState).putRun f r1

/-- An ingress produces a fragment now. -/
def State.produce (s : State) (f line seg frag : Nat) (b : Bytes) : State := s.produceAt s.now f line seg frag b

/-- The samples of a flow's bound audio since an instant that the shuffler's inputs hold, as a buffer that begins then keeps them
(R238). -/
def State.boundSince (s : State) (f t : Nat) : List (Nat × Nat × Option Nat) :=
  if s.flag pgFlow f F.flowwinCtx5AfEn then
    match s.audRun (s.get pgFlow f F.flowwinCtx5AfFlow) with
    | some a => (List.range a.count).flatMap fun k =>
        ((Tab.at [] s.inputs (a.base + k)).filter fun e => decide (t ≤ e.1)).map fun e => (e.1 - t, k, e.2)
    | none => []
  else []

/-- A line of an ingress flow ends at an instant: its frame-synchroniser writer writes it (R112). -/
def State.endLineAt (s : State) (at_ f : Nat) : State :=
  let r := s.run f
  match r.store with
  | some st =>
    if s.fsWriter f then
      let struct := s.get pgFlow f F.flowwinCtx1Struct
      let begun := s.lineOneNs f
      s.putRun f { r with
        store := some (st.writeLine struct r.line at_ begun
          (s.tb (s.get pgFlow f F.flowwinCtx0Tb)).frame (s.boundSince f begun) r.errored r.partLine)
        partLine := [] }
    else s.putRun f { r with partLine := [] }
  | none => s.putRun f { r with partLine := [] }

/-- A line of an ingress flow ends now. -/
def State.endLine (s : State) (f : Nat) : State := s.endLineAt s.now f

/-- Has the raster of an egress flow that no raster generator carries, its timebase's delayed by OFFSET, passed a switch point since a
take was left waiting for it (R91, R94, R211)? -/
def State.switchPassed (s : State) (f : Nat) : Bool :=
  let st := s.get pgFlow f F.flowwinCtx1Struct
  let rt := s.get pgFlow f F.flowwinCtx1Rate
  let here := s.egressStart f
  let start := if s.now < here then here - nsOf st rt (fmtFrameSamples st rt) else here
  (switchLines st).any fun l =>
    let p := start + nsOf st rt ((l - 1) * fmtSamples st rt)
    decide ((s.run f).takenNs ≤ p ∧ p ≤ s.now)

/-- An egress flow that no raster generator carries: what a take left waiting becomes visible at its raster's switch point (R94). -/
def State.segmentShow (s : State) (f : Nat) : State :=
  if (s.rasterOfFlow f).isNone && s.isEgress f && s.switchPassed f then s.showXp f else s

/-- The flow whose fragments a reader reads: an egress reads its source, a writer its own flow. -/
def State.readFlow (s : State) (f : Nat) : Nat := if s.isEgress f then (s.sourceOf f).getD f else f

/-- Is the flow bound to a fabric port? -/
def State.fromFabric (s : State) (f : Nat) : Bool := decide ((s.flowPort f).1 = kindFabric)

/-- A segment is replaced by the co-sited segment of the line before, fragment for fragment (R100, R282). -/
def State.concealSegment (s : State) (f line seg : Nat) : State :=
  let old := s.segment f (line - 1) seg
  if old.isEmpty then s
  else
    let s1 := { s with frags := s.frags.filter fun e => !inSegment f line seg e.1 }
    old.foldl (fun s e => s.writeFrag f line seg (e.1.slot % 32) e.2.bytes e.2.sealState) s1

/-- A read of a fragment from a bank, its ECC checked (R100). A video segment of a fabric ingress that was not written reads the line
before (R282). A segment with an uncorrectable word is replaced by the co-sited segment of the line before. -/
def State.segmentRead (s : State) (flow line seg frag bank : Nat) (ecc : Ecc) : State :=
  let s0 := s.segmentShow flow
  let f := s0.readFlow flow
  match ecc with
  | .clean =>
    if (s0.readFrag f line seg frag).isNone && s0.fromFabric f && decide (s0.flowType f = typeVideo) then s0.concealSegment f line seg else s0
  | .corrected => s0.vatCe bank
  | .uncorrectable => ((s0.vatUe bank).touch f).concealSegment f line seg

/-- An ingress flow has produced a whole frame: its alive state (R227). -/
def State.aliveFrame (s : State) (f : Nat) : State :=
  let r := s.run f
  if r.producing then s.putRun f { r with alive := (r.frame, r.sig), frame := r.frame + 1, sig := 0 } else s

/-- A line of an ingress flow ends: a video line's samples join its frame's signature, and the last active line of a flow that nothing
else ends the frame of is its frame's end (R227). -/
def State.closeLine (s : State) (f : Nat) (ends : Bool) : State :=
  let r := s.run f
  let st := s.get pgFlow f F.flowwinCtx1Struct
  let s1 := if s.flowType f = typeVideo ∧ fmtActive st r.line = true then
      s.putRun f { r with sig := lineSignature r.sig (s.get pgFlow f F.flowwinCtx1Depth) r.partLine }
    else s
  let s2 := s1.endLine f
  if ends && decide (s.flowType f = typeVideo ∧ r.line = fmtLastActive st) then s2.aliveFrame f else s2

/-- Does a fragment follow the one before it in its line: the first, or the next of the line in progress, whose segments before it are
full (R16)? -/
def State.nextFrag (s : State) (f line seg frag : Nat) : Bool :=
  decide (seg = 0 ∧ frag = 0) ||
    decide ((s.run f).line = line ∧ (s.run f).partLine.length = fragBytes * (32 * seg + frag))

/-- SOURCE_LOSS (R93): no segments of the flow for two line periods. -/
def execSourceLoss (flow : Fin 4096) (s : State) : Host.Outcome State Fault Refusal :=
  .next (if s.isIngress flow && decide (s.linesNs flow 2 ≤ s.now - (s.run flow).lastSegNs) then s.loseSource flow else s)

/-- A frame start of an egress flow: the return of a lost source, the choice of R92, the buffer of R113. -/
def State.egressFrame (s0 : State) (f : Nat) : State :=
  let s := s0.segmentShow f
  match s.sourceOf f with
  | none => s.choose f false
  | some src =>
    let s1 := if (s.run f).lost && (s.run src).producing then s.returnSource f else s.choose f false
    if (s1.run f).path = .frameStore then s1.selectBuffer f src else s1

/-- EGRESS_FRAME_START (R92). -/
def execEgressFrameStart (flow : Fin 4096) (s : State) : Host.Outcome State Fault Refusal :=
  .next (if s.isEgress flow && s.flowEn flow then s.egressFrame flow else s)

end Sys2Proof.Machine
end

