-- ==== Sys2Proof/Machine/Aup.lean ====
section
/-! DEFINITION. The commands of the audio engines: routes and route sets, converters, gates, Rennets, the serial audio ports
and their Hoops (R234 to R259). -/

namespace Sys2Proof.Machine

/-! ### Routes (R234 to R237) -/

/-- A write of ROUTE: a reserved RAMP or SOURCE keeps the channel's own and sets BAD_VALUE. -/
def State.writeRouteReg (s : State) (w : Nat) : State :=
  let out := s.get pgAsh 0 F.ashRouteIndexOut
  let ramp := F.ashRouteRamp.extract w
  let src := F.ashRouteSource.extract w
  let rOk := F.ashRouteRamp.legal.ok ramp
  let cOk := F.ashRouteSource.legal.ok src
  let w' := bits w 30 2 * 2 ^ 30 + (if rOk then ramp else s.get pgAsh out F.ashRouteRamp) * 2 ^ 24 + bits w 16 8 * 2 ^ 16 +
    (if cOk then src else s.get pgAsh out F.ashRouteSource)
  let s1 := if rOk && cOk then s else s.setErr pgAsh errBadValue
  if s1.acts pgAsh then s1.writeRoute out w' else s1.putRouteWord out w'

/-- ROUTE_WRITE (R234). -/
def execRouteWrite (m : Fin 8) (w : Word) (s : State) : Host.Outcome State Fault Refusal :=
  .next (s.write m pgAsh 0x094 w.toNat fun s => s.writeRouteReg w.toNat)

/-- ROUTE_RAMP_DONE (R236). -/
def execRouteRampDone (out : Fin 6144) (s : State) : Host.Outcome State Fault Refusal := .next (s.rampEnd out)

/-- RS_RESULT.CODE. -/
def State.routeSetCode (s : State) (c : Nat) : State := s.put pgAsh 0 F.ashRsResultCode c

/-- RS_OP = LOAD: refused, or begun with the entries read. -/
def State.routeSetLoad (s : State) : State :=
  let n := s.get pgAsh 0 F.ashRsCountCount
  let v := s.get pgAsh 0 F.ashRsIndexSet
  if s.setOp.isSome then s.routeSetCode opBusy
  else if n = 0 ∨ 6144 < n then s.routeSetCode opBadArg
  else if s.setBusy v then s.routeSetCode opBusy2
  else if s.routeFree < n then s.routeSetCode opPoolFull
  else
    let data := s.readBytes (s.addr40 pgAsh 0 F.ashRsSrcLoAddr F.ashRsSrcHiAddr) (8 * n)
    ({ s with setOp := some { set := v, entries := data.map (routeEntries n) } }).put pgAsh 0 F.ashRsResultBusy 1

/-- RS_OP = DELETE: refused, or done. -/
def State.routeSetDelete (s : State) : State :=
  let v := s.get pgAsh 0 F.ashRsIndexSet
  if s.setOp.isSome then s.routeSetCode opBusy
  else if s.setBusy v then s.routeSetCode opBusy2
  else (({ s with routeSets := Tab.del v s.routeSets }).routeSetCode opOk).raise pgAsh 16

/-- A write of RS_OP. -/
def State.writeRouteSetOp (s : State) (w : Nat) : State :=
  if !s.acts pgAsh then s
  else match bits w 0 2 with
    | 1 => s.routeSetLoad
    | 2 => s.routeSetDelete
    | _ => s.setErr pgAsh errBadValue

/-- A route-set load completes. -/
def State.routeSetDone (s : State) : State :=
  match s.setOp with
  | none => s
  | some o =>
    let s1 := ({ s with setOp := none }).put pgAsh 0 F.ashRsResultBusy 0
    match o.entries with
    | some es => (({ s1 with routeSets := Tab.put o.set es s1.routeSets }).routeSetCode opOk).raise pgAsh 16
    | none => (s1.routeSetCode opBadArg).raise pgAsh 16

/-- ROUTE_SET_LOAD (R237). -/
def execRouteSetLoad (m : Fin 8) (s : State) : Host.Outcome State Fault Refusal :=
  .next (s.write m pgAsh 0x0B0 1 fun s => s.writeRouteSetOp 1)

/-- ROUTE_SET_LOAD_DONE (R237). -/
def execRouteSetLoadDone (s : State) : Host.Outcome State Fault Refusal := .next s.routeSetDone

/-- ROUTE_SET_DELETE (R237). -/
def execRouteSetDelete (m : Fin 8) (s : State) : Host.Outcome State Fault Refusal :=
  .next (s.write m pgAsh 0x0B0 2 fun s => s.writeRouteSetOp 2)

/-- The least and the greatest ratio that a converter channel takes, 1/6 and 6, with 24 fraction bits (R243). -/
abbrev ratioLeast : Nat := 2796203
abbrev ratioMost : Nat := 6 * 2 ^ 24

/-- ASRC_LOCK (R243): a bound converter channel locks; the ratio that it measures is a free value, a shadow's its lead's (R305). -/
def execAsrcLock (unit : Fin 4) (ch : Fin 128) (s : State) : Host.Outcome State Fault Refusal :=
  .next (if s.flag (pgAsrc unit) ch F.asrcChStatusBound then
    let (v, s1) := match s.decided (pgAsrc unit) ch with
      | some [v] => (v, s)
      | _ =>
        let (x, s1) := s.draw
        let v := ratioLeast + x % (ratioMost - ratioLeast + 1)
        (v, s1.share (pgAsrc unit) ch [v])
    let out := s.get (pgAsrc unit) ch F.asrcChStatusOut
    let old := if s.flag (pgAsrc unit) ch F.asrcChStatusLocked then some (s.get (pgAsrc unit) ch F.asrcChRatioRatio) else none
    ((s1.putRouteRun out { s1.routeRun out with lockNs := s.now, oldRatio := old }).put (pgAsrc unit) ch F.asrcChStatusLocked 1).put (pgAsrc unit) ch
      F.asrcChRatioRatio v
  else s)

/-- ZERO_CROSS_TIMEOUT (R248, R253): a channel's gate that has waited ZC_TIMEOUT for a crossing begins its fade. -/
def execZeroCrossTimeout (page : Fin 4096) (channel cell : Nat) (s : State) : Host.Outcome State Fault Refusal :=
  let k : Key := ⟨page, channel, cell⟩
  .next (match s.gate k with
    | some g => if g.sinceNs + s.crossTimeout page ≤ s.now then s.putGate k g.timeout else s
    | none => s)

/-! ### Serial audio ports: starting and stopping (R253) -/

/-- A port that has never run. -/
def AupRun.cold : AupRun :=
  { state := .stopped, edgeNs := 0, missed := 0, agree := 0, glitches := 0, rateAt := 0, classAt := 0, acc := 0, ofs := 0
    clamped := false, lockTicks := 0, clampTicks := 0, strayNs := 0, lost := false, offSince := none, filledNs := 0 }

/-- AUP[n]. -/
def State.aup (s : State) (n : Nat) : AupRun := Tab.at AupRun.cold s.aups n

/-- STATE codes of a port. -/
def AupState.code : AupState → Nat
  | .stopped => 0 | .armed => 1 | .starting => 2 | .running => 3 | .stopping => 4 | .holdover => 5 | .mismatch => 6

/-- Write AUP[n] with its STATE. -/
def State.putAup (s : State) (n : Nat) (x : AupRun) : State :=
  ({ s with aups := Tab.put n x s.aups }).putStatBits (pgAup n) 16 3 x.state.code

/-- The enabled audio flow of a port. -/
def State.aupFlow (s : State) (n : Nat) : Option Nat :=
  match s.flowOn kindAup n 0 (s.flag (pgAup n) 0 F.aupCtrlDir) with
  | some f => if s.flowType f = typeAudio then some f else none
  | none => none

/-- The port's flow at the port's rate; another rate sets FLOW_RATE and carries nothing (R249). -/
def State.aupCarry (s : State) (n : Nat) : Option AudRun × State :=
  match s.aupFlow n with
  | some f =>
    if s.flowSrate f = s.get (pgAup n) 0 F.aupCtrlRate then (s.audRun f, s.checkFit f)
    else (none, (s.setErr (pgAup n) 18).checkFit f)
  | none => (none, s)

/-- EN = 1: the port starts at its next frame, or waits for its Rennet. -/
def State.aupStart (s : State) (n : Nat) : State :=
  let p := pgAup n
  let st : AupState := if s.get p 0 F.aupCtrlTrig = 0 then .starting else .armed
  (((s.putRunning p true).put p 0 F.aupNcoOfsOfs 0).putAup n
    { AupRun.cold with state := st, rateAt := (s.aup n).rateAt, classAt := (s.aup n).classAt }).aupCarry n |>.2

/-- The port has stopped its frames; one that was enabled meanwhile starts anew. -/
def State.aupStopped (s : State) (n : Nat) : State :=
  let p := pgAup n
  let s1 := ((((s.putAup n { s.aup n with state := .stopped }).putRunning p false).dropGate ⟨p, 0, 0⟩).dropGate ⟨p, 1, 0⟩).raise
    p 17
  let s2 := ((s1.putStat p 19 false).putStat p 20 false).put p 0 F.aupNcoOfsOfs 0
  if s2.flag p 0 F.aupCtrlEn && s2.acts p then s2.aupStart n else s2

/-- EN = 0: each channel waits for its crossing; a port without frames stops at once. -/
def State.aupStop (s : State) (n : Nat) : State :=
  let p := pgAup n
  let x := s.aup n
  match x.state with
  | .stopped => s
  | .armed => s.aupStopped n
  | .starting => s.aupStopped n
  | .stopping => s
  | _ => ((s.putAup n { x with state := .stopping }).closeGate ⟨p, 0, 0⟩ .leaving).closeGate ⟨p, 1, 0⟩ .leaving

/-- A write of AUP CTRL. -/
def State.writeAupCtrl (s : State) (n w : Nat) : State :=
  let p := pgAup n
  let run := s.running p
  let was := s.flag p 0 F.aupCtrlEn
  let s1 := (s.writeBut p 0 run w 0x080 [F.aupCtrlEn]).put p 0 F.aupCtrlEn (bits w 0 1)
  if was && !bit w 0 then s1.aupStop n
  else if !run && bit w 0 && s1.acts p then s1.aupStart n
  else s1

/-- AUP_ENABLE (R253): a write of CTRL with EN set. -/
def execAupEnable (m : Fin 8) (n : Fin 32) (w : Word) (s : State) : Host.Outcome State Fault Refusal :=
  let w' := withBit w.toNat 0
  .next (s.write m (pgAup n) 0x080 w' fun s => s.writeAupCtrl n w')

/-- AUP_DISABLE (R253): a write of CTRL with EN clear. -/
def execAupDisable (m : Fin 8) (n : Fin 32) (w : Word) (s : State) : Host.Outcome State Fault Refusal :=
  let w' := withoutBit w.toNat 0
  .next (s.write m (pgAup n) 0x080 w' fun s => s.writeAupCtrl n w')

/-- Is a channel's gate shut? -/
def State.gateShut (s : State) (k : Key) : Bool :=
  match s.gate k with
  | some g => decide (g.state = .shut)
  | none => false

/-- AUP_STOPPED (R253): both channels have faded out. -/
def execAupStopped (n : Fin 32) (s : State) : Host.Outcome State Fault Refusal :=
  .next (if (s.aup n).state = .stopping && s.gateShut ⟨pgAup n, 0, 0⟩ && s.gateShut ⟨pgAup n, 1, 0⟩ then s.aupStopped n else s)

/-! ### Rennets (R254) -/

/-- RENNET_OUT of a Rennet: it rises, or the pulse is extended. -/
def State.rennetPulse (s : State) : State :=
  let s1 := { s with rennets := s.now :: s.rennets, rennetOut := true }
  if s.rennetOut then s1 else s1.emit (.pin "RENNET_OUT" true)

/-- The ports armed for a Rennet start. -/
def State.rennetStart (s : State) (trig : Nat) (tb : Option Nat) : State :=
  (List.range 32).foldl (fun s n =>
    let p := pgAup n
    if decide ((s.aup n).state = .armed ∧ s.get p 0 F.aupCtrlTrig = trig) &&
        (match tb with | some k => decide (s.get p 0 F.aupCtrlTb = k) | none => true) then
      s.putAup n { s.aup n with state := .starting }
    else s) s

/-- RENNET_EVENT (R254): a RENNET event reaches its point. -/
def execRennetEvent (handle : BitVec 16) (s : State) : Host.Outcome State Fault Refusal :=
  .next (match s.pendingEvent handle.toNat with
    | some e => if e.kind = .rennet then ((s.rennetStart 1 (some e.tb)).rennetPulse).appliedEvent e else s
    | none => s)

/-- RENNET_PIN_EDGE (R254): a rising edge on RENNET_IN. -/
def execRennetPinEdge (s : State) : Host.Outcome State Fault Refusal := .next ((s.rennetStart 2 none).rennetPulse)

/-- RENNET_OUT_END (R254): 1 µs after the rise of the latest Rennet, which follows its instant by 36 ns at least. -/
def execRennetOutEnd (s : State) : Host.Outcome State Fault Refusal :=
  .next (if s.rennetOut && s.rennets.all (fun t => decide (t + 1036 ≤ s.now)) then
    ({ s with rennets := [], rennetOut := false }).emit (.pin "RENNET_OUT" false)
  else s)

/-! ### Hoops (R255 to R257) -/

/-- HOOP_SIZE. -/
def State.hoopSize (s : State) (n : Nat) : Nat := s.get (pgAup n) 0 F.aupHoopSizeFrames

/-- Frames in the Hoop. -/
def State.hoopFill (s : State) (n : Nat) : Nat :=
  let z := s.hoopSize n
  (s.get (pgAup n) 0 F.aupHoopWrFrame + z - s.get (pgAup n) 0 F.aupHoopRdFrame % z) % z

/-- Bytes of a frame by PACK. -/
def packBytes (pack : Nat) : Nat := if pack = 0 then 6 else 8

/-- The bytes of a frame (R255). -/
def packFrame (pack l r : Nat) : Bytes :=
  let sign := fun (v : Nat) => if bit v 23 then v + 0xFF000000 else v
  match pack with
  | 0 => leBytes 3 l ++ leBytes 3 r
  | 1 => leBytes 4 (l * 256) ++ leBytes 4 (r * 256)
  | _ => leBytes 4 (sign l) ++ leBytes 4 (sign r)

/-- The samples of a frame. -/
def unpackFrame (pack : Nat) (b : Bytes) : Nat × Nat :=
  match pack with
  | 0 => (leValue (b.take 3), leValue ((b.drop 3).take 3))
  | 1 => (leValue ((b.drop 1).take 3), leValue ((b.drop 5).take 3))
  | _ => (leValue (b.take 3), leValue ((b.drop 4).take 3))

/-- The address of a frame of the Hoop. -/
def State.hoopAddr (s : State) (n i : Nat) : Nat :=
  s.addr40 (pgAup n) 0 F.aupHoopBaseLoAddr F.aupHoopBaseHiAddr + i * packBytes (s.get (pgAup n) 0 F.aupCtrlPack)

/-- Raise an interrupt bit that is clear. -/
def State.raiseOnce (s : State) (p b : Nat) : State := if bit (s.get p 0 F.hdrIntStat) b then s else s.raise p b

/-- Write a frame to the Hoop: a full one first loses its oldest frame (R257). -/
def State.hoopWrite (s : State) (n l r : Nat) : State :=
  let p := pgAup n
  let z := s.hoopSize n
  let s1 := if s.hoopFill n + 1 = z then
      ((s.put p 0 F.aupHoopRdFrame ((s.get p 0 F.aupHoopRdFrame + 1) % z)).bump p 0 F.aupCntOverrun).raiseOnce p 20
    else s
  let i := s1.get p 0 F.aupHoopWrFrame
  (s1.pokeBytes 6 (s1.hoopAddr n i) (packFrame (s1.get p 0 F.aupCtrlPack) l r)).put p 0 F.aupHoopWrFrame ((i + 1) % z)

/-- Read a frame of the Hoop: missed frames are skipped; an empty Hoop plays zero (R257). -/
def State.hoopRead (s : State) (n : Nat) : Nat × Nat × State :=
  let p := pgAup n
  let z := s.hoopSize n
  let x := s.aup n
  let skip := min x.missed (s.hoopFill n)
  let rd := (s.get p 0 F.aupHoopRdFrame + skip) % z
  let left := s.hoopFill n - skip
  let s1 := (s.put p 0 F.aupHoopRdFrame rd).putAup n { x with missed := x.missed - skip }
  if left = 0 then
    (0, 0, ((s1.putAup n { s1.aup n with missed := (s1.aup n).missed + 1 }).bump p 0 F.aupCntUnderrun).raiseOnce p 19)
  else
    let pk := s1.get p 0 F.aupCtrlPack
    let (l, r) := match s1.readBytes (s1.hoopAddr n rd) (packBytes pk) with
      | some b => unpackFrame pk b
      | none => (0, 0)
    (l, r, s1.put p 0 F.aupHoopRdFrame ((rd + 1) % z))

/-- A sample through a channel's gate, where it has one. -/
def State.throughGate (s : State) (k : Key) (v : Nat) : Nat × State :=
  match s.gate k with
  | some g =>
    let (y, g', s1) := s.gateSample g v
    (y, s1.putGate k g')
  | none => (v, s)

/-! ### Frames (R249, R250, R252, R253, R256) -/

/-- How far a master port's clock runs off the nominal rate, in parts of 10^12: by the loop in LOOP on an output, else by the clock domain
of the timebase CTRL.TB, in HOLDOVER too (R250). -/
def State.aupPpt (s : State) (n : Nat) : Int :=
  let p := pgAup n
  if s.flag p 0 F.aupCtrlNcoMode && s.flag p 0 F.aupCtrlDir then (s.aup n).ofs * 1000
  else
    let t := s.tb (s.get p 0 F.aupCtrlTb)
    if t.state = .off then 0 else t.ppt

/-- The least whole nanoseconds between two frames of a master port. -/
def State.aupPeriodNs (s : State) (n : Nat) : Nat :=
  (1000000000000000000000 / ((srateHz (s.get (pgAup n) 0 F.aupCtrlRate) : Int) * (pptScale + s.aupPpt n))).toNat

/-- Is a frame due: of a slave, with its word clock; of a master, a period after the one before (R250)? -/
def State.aupDue (s : State) (n : Nat) : Bool :=
  !s.flag (pgAup n) 0 F.aupCtrlMaster || decide ((s.aup n).edgeNs + s.aupPeriodNs n ≤ s.now)

/-- The bits of a value, the greatest first. -/
def msbBits : Nat → Nat → List Bool
  | 0, _ => []
  | k + 1, v => bit v k :: msbBits k v

/-- What a port drives over a frame: MSB first in slots of 32, zeros behind the 24 bits, by FMT with WS low or high for the left channel and
the data a BCLK later or with the edge (R249, log entry 211). -/
def State.aupWire (s : State) (n l r : Nat) : State :=
  let p := pgAup n
  let i2s := decide (s.get p 0 F.aupCtrlFmt = 0)
  let slots := msbBits 24 l ++ List.replicate 8 false ++ msbBits 24 r ++ List.replicate 8 false
  let sd := if i2s then (false :: slots).take 64 else slots
  let ws := List.replicate 32 (!i2s) ++ List.replicate 32 i2s
  let master := s.flag p 0 F.aupCtrlMaster
  let out := s.flag p 0 F.aupCtrlDir
  if master || out then s.emit (.audioWire n (if master then ws else []) (if out then sd else [])) else s

/-- The instants at which samples of a rate fall after one instant and no later than another, on the grid of the clock. -/
def sampleTimes (hz a b : Nat) : List Nat :=
  (List.range (b * hz / 1000000000 - a * hz / 1000000000)).map fun i =>
    ((a * hz / 1000000000 + 1 + i) * 1000000000 + hz - 1) / hz

/-- The first frame of a port: START_FRAME, START_POS, STARTED, and the gates unless HARD. -/
def State.aupBegin (s : State) (n : Nat) : State :=
  let p := pgAup n
  let t := s.tb (s.get p 0 F.aupCtrlTb)
  let filled := s.now - 1000000000 / srateHz (s.get p 0 F.aupCtrlRate)
  let s1 := ((s.putAup n { s.aup n with state := .running, filledNs := filled }).putFrame48 p 0 F.aupStartFrameLoFrame F.aupStartFrameHiFrame
    t.frame).put p 0 F.aupStartPosLine (t.line s.now)
  let s2 := (s1.put p 0 F.aupStartPosSample (t.sample s.now)).raise p 16
  if s2.flag p 0 F.aupCtrlHard then s2
  else (s2.waitGate ⟨p, 0, 0⟩ .opening).waitGate ⟨p, 1, 0⟩ .opening

/-- The word clock of a slave port at a frame: edges out of place are ignored and counted, three that agree with one another to within 2
BCLK periods realign the port; three consistent frames end a holdover. -/
def State.aupClock (s : State) (n : Nat) (x : AudioFrame) : State :=
  let p := pgAup n
  let a := s.aup n
  if s.flag p 0 F.aupCtrlMaster then s
  else if a.state = .holdover then
    if x.edge && x.inPlace then
      (if 3 ≤ a.agree + 1 then s.putAup n { a with state := .running, agree := 0 } else s.putAup n { a with agree := a.agree + 1 })
    else s.putAup n { a with agree := 0 }
  else if x.edge && !x.inPlace then
    let hz := srateHz (s.get p 0 F.aupCtrlRate)
    let gap := s.now - a.strayNs
    let agrees := decide (0 < a.glitches ∧ 62 * 1000000000 ≤ 64 * hz * (gap + 1) ∧ 64 * hz * gap ≤ 66 * 1000000000)
    let k := if agrees then a.glitches + 1 else 1
    (s.putAup n { a with glitches := k % 3, strayNs := s.now }).bump p 0 F.aupGlitchCount
  else s.putAup n { a with glitches := 0 }

/-- A frame of an input port. -/
def State.aupInput (s : State) (n : Nat) (x : AudioFrame) : State :=
  let p := pgAup n
  let held := decide ((s.aup n).state = .holdover ∨ (s.aup n).state = .mismatch) || (s.aup n).lost
  let (l, s1) := s.throughGate ⟨p, 0, 0⟩ (if held then 0 else x.left.toNat)
  let (r, s2) := s1.throughGate ⟨p, 1, 0⟩ (if held then 0 else x.right.toNat)
  let (run, s3) := s2.aupCarry n
  let s4 := match run with
    | some a => (s3.feed a.flow 0 s3.now (some l)).feed a.flow 1 s3.now (some r)
    | none => s3
  let s5 := s4.aupWire n 0 0
  if s5.flag p 0 F.aupCtrlHoopEn then s5.hoopWrite n l r else s5

/-- Audio DMA fills the Hoop with the samples of the port's flow that have fallen since, at the flow's own rate (R256). -/
def State.aupFill (s : State) (n : Nat) (a : AudRun) : State :=
  let times := sampleTimes (srateHz (s.flowSrate a.flow)) (s.aup n).filledNs s.now
  times.foldl (fun s t => s.hoopWrite n (s.routeSample a.base t % 2 ^ 24) (s.routeSample (a.base + 1) t % 2 ^ 24)) s

/-- A frame of an output port: the Hoop is filled from the flow where SRC = FLOW, and always played from. -/
def State.aupOutput (s : State) (n : Nat) : State :=
  let p := pgAup n
  let (run, s1) := s.aupCarry n
  let s2 := if s1.flag p 0 F.aupCtrlSrc then s1
    else
      let s' := match run with
        | some a => s1.aupFill n a
        | none => s1
      s'.putAup n { s'.aup n with filledNs := s'.now }
  let (l, r, s3) := s2.hoopRead n
  let (l', s4) := s3.throughGate ⟨p, 0, 0⟩ l
  let (r', s5) := s4.throughGate ⟨p, 1, 0⟩ r
  (s5.aupWire n l' r').emit (.audio n [l', r'])

/-- A frame of a port. -/
def State.aupFrame (s : State) (n : Nat) (x : AudioFrame) : State :=
  let s0 := if x.edge || s.flag (pgAup n) 0 F.aupCtrlMaster then s.putAup n { s.aup n with edgeNs := s.now } else s
  let s1 := if (s0.aup n).state = .starting then s0.aupBegin n else s0.aupClock n x
  if s1.flag (pgAup n) 0 F.aupCtrlDir then s1.aupOutput n else s1.aupInput n x

/-- AUP_FRAME (R257): one sample frame of a port that has frames, when it is due. A slave port starts with an edge. -/
def execAupFrame (n : Fin 32) (x : AudioFrame) (s : State) : Host.Outcome State Fault Refusal :=
  let st := (s.aup n).state
  .next (if st = .stopped ∨ st = .armed then s
    else if st = .starting ∧ s.flag (pgAup n) 0 F.aupCtrlMaster = false ∧ x.edge = false then s
    else if st ≠ .starting ∧ s.aupDue n = false then s
    else s.aupFrame n x)

/-- A port without its word clock: it holds over; one that is stopping goes on to stop, on zero frames. -/
def AupRun.hold (a : AupRun) (st : AupState) : AupRun :=
  if a.state = .stopping then { a with lost := true } else { a with state := st, agree := 0 }

/-- AUP_WS_LOSS (R252): no edge of WS for 2 sample periods. -/
def execAupWsLoss (n : Fin 32) (s : State) : Host.Outcome State Fault Refusal :=
  .next (if ((s.aup n).state = .running ∨ (s.aup n).state = .stopping ∧ (s.aup n).lost = false) ∧
      s.flag (pgAup n) 0 F.aupCtrlMaster = false ∧
      (s.aup n).edgeNs + 2 * (1000000000 / srateHz (s.get (pgAup n) 0 F.aupCtrlRate)) ≤ s.now then
    (s.putAup n ((s.aup n).hold .holdover)).raise (pgAup n) 21
  else s)

/-- Nanoseconds for which the measured rate departs from RATE before a port enters MISMATCH. -/
abbrev mismatchNs : Nat := 10000000

/-- AUP_RATE_MISMATCH (R252): the measured rate has departed from RATE by more than RATE_TOL for 10 ms. -/
def execAupRateMismatch (n : Fin 32) (s : State) : Host.Outcome State Fault Refusal :=
  let due := match (s.aup n).offSince with
    | some t => decide (t + mismatchNs ≤ s.now)
    | none => false
  .next (if ((s.aup n).state = .running ∨ (s.aup n).state = .holdover ∨ (s.aup n).state = .stopping) ∧
      s.flag (pgAup n) 0 F.aupCtrlMaster = false ∧ due = true then
    (s.putAup n ((s.aup n).hold .mismatch)).raise (pgAup n) 18
  else s)

/-- The SRATE code nearest a rate in 0.01 Hz; the lower rate wins a tie. -/
def nearestRate (rate : Nat) : Nat :=
  let d := fun (k : Nat) => (srateHz k * 100 - rate) + (rate - srateHz k * 100)
  [1, 2, 3, 4, 5, 6].foldl (fun best k => if d k < d best then k else best) 0

/-- AUP_RATE_MEASURE (R251): the rate of WS over the last 100 ms, in 0.01 Hz. -/
def execAupRateMeasure (n : Fin 32) (rate : Nat) (s : State) : Host.Outcome State Fault Refusal :=
  let p := pgAup n
  let a := s.aup n
  let c := nearestRate rate
  let want := srateHz (s.get p 0 F.aupCtrlRate) * 100
  let off := decide (want * s.get p 0 F.aupRateTolPpm < ((rate - want) + (want - rate)) * 1000000)
  let a1 := { a with offSince := if off then a.offSince.orElse fun _ => some s.now else none }
  let far := decide (a.rateAt * s.get p 0 F.aupRateTolPpm < ((rate - a.rateAt) + (a.rateAt - rate)) * 1000000)
  let s1 := (s.put p 0 F.aupRateMeasClass c).put p 0 F.aupRateMeasRate rate
  .next (if s.running p then
    (if decide (c ≠ a.classAt) || far then (s1.putAup n { a1 with rateAt := rate, classAt := c }).raise p 18 else s1.putAup n a1)
  else s)

/-! ### The buffer-level loop (R259) -/

/-- Hold an integer between two limits. -/
def clampInt (lo hi x : Int) : Int := if x < lo then lo else if hi < x then hi else x

/-- One step of the loop. -/
def State.loopTick (s : State) (n : Nat) : State :=
  let p := pgAup n
  let a := s.aup n
  let t := s.get p 0 F.aupLoopTarget
  let target := if t = 0 then s.hoopSize n / 2 else t
  let e : Int := (s.hoopFill n : Int) - target
  let acc := if a.clamped then a.acc else a.acc + e
  let step : Int := s.get p 0 F.aupLoopSlewStep
  let raw := clampInt (-1000000) 1000000 ((s.get p 0 F.aupLoopKp : Int) * e + (s.get p 0 F.aupLoopKi : Int) * acc)
  let ofs := clampInt (a.ofs - step) (a.ofs + step) raw
  let clamped := decide (ofs = -1000000 ∨ ofs = 1000000)
  let win : Int := s.get p 0 F.aupLoopSlewLockWin
  let lockT := if -win ≤ e ∧ e ≤ win then a.lockTicks + 1 else 0
  let clampT := if clamped then a.clampTicks + 1 else 0
  let s1 := s.putAup n { a with acc := acc, ofs := ofs, clamped := clamped, lockTicks := lockT, clampTicks := clampT }
  let s2 := ((s1.put p 0 F.aupNcoOfsOfs (saturate 32 ofs)).putStat p 19 (decide (100 ≤ lockT))).putStat p 20 clamped
  if clampT = 1000 then s2.raise p 22 else s2

/-- AUP_LOOP_TICK (R259): an output master port in LOOP with frames. -/
def execAupLoopTick (n : Fin 32) (s : State) : Host.Outcome State Fault Refusal :=
  let p := pgAup n
  let st := (s.aup n).state
  .next (if s.flag p 0 F.aupCtrlNcoMode && s.flag p 0 F.aupCtrlDir && s.flag p 0 F.aupCtrlMaster &&
      decide (st = .running ∨ st = .stopping) then s.loopTick n else s)

/-- A host write of HOOP_WR or HOOP_RD (R256): the owner's pointers only, forward only. -/
def State.writeHoopPointer (s : State) (n : Nat) (rd : Bool) (w : Nat) : State :=
  let p := pgAup n
  let f := if rd then F.aupHoopRdFrame else F.aupHoopWrFrame
  let v := f.extract w
  let z := s.hoopSize n
  let out := s.flag p 0 F.aupCtrlDir
  let mine := if rd then !out else out && s.flag p 0 F.aupCtrlSrc
  let old := s.get p 0 f
  let moved := (v + z - old % z) % z
  let room := if rd then s.hoopFill n else z - 1 - s.hoopFill n
  if !mine then s.setErr p 16
  else if v < z ∧ 0 < moved ∧ moved ≤ room then s.put p 0 f v
  else s.setErr p 17

/-- HOOP_POINTER_WRITE (R256). -/
def execHoopPointerWrite (m : Fin 8) (n : Fin 32) (rd : Bool) (w : Word) (s : State) : Host.Outcome State Fault Refusal :=
  .next (s.write m (pgAup n) (if rd then 0x09C else 0x098) w.toNat fun s => s.writeHoopPointer n rd w.toNat)

end Sys2Proof.Machine
end

