-- ==== Sys2Proof/Machine/Crypto.lean ====
section
/-! DEFINITION. The algorithms the manual names: SHA-256, HMAC and the KDF of R363, AES-256, KWP (R365), AES-256-GCM
(R146, R291), CRC-32 of Ethernet. Numbers stand for bytes and words; every loop is over a list. -/

namespace Sys2Proof.Machine

/-- Bytes as numbers. -/
def toNats (l : Bytes) : List Nat := l.map BitVec.toNat

/-- Numbers as bytes. -/
def ofNats (l : List Nat) : Bytes := l.map (BitVec.ofNat 8)

/-- The exclusive or of two byte strings. -/
def xorBytes (a b : Bytes) : Bytes := List.zipWith (· ^^^ ·) a b

/-- Zero bytes. -/
def zeros (n : Nat) : Bytes := List.replicate n 0

/-- A byte string of exactly n bytes: cut, or padded with zeros. -/
def fit (n : Nat) (l : Bytes) : Bytes := (l ++ zeros n).take n

/-- Cut a list into groups of n, within so many groups. -/
def groupsOf {α : Type} (n : Nat) : Nat → List α → List (List α)
  | 0, _ => []
  | k + 1, l => if l.isEmpty then [] else l.take n :: groupsOf n k (l.drop n)

/-! ### SHA-256 -/

/-- Rotate a 32-bit word right. -/
def rotr (n x : Nat) : Nat := x / 2 ^ n + x % 2 ^ n * 2 ^ (32 - n)

/-- The round constants. -/
def shaK : List Nat :=
  [0x428a2f98, 0x71374491, 0xb5c0fbcf, 0xe9b5dba5, 0x3956c25b, 0x59f111f1, 0x923f82a4, 0xab1c5ed5] ++
  [0xd807aa98, 0x12835b01, 0x243185be, 0x550c7dc3, 0x72be5d74, 0x80deb1fe, 0x9bdc06a7, 0xc19bf174] ++
  [0xe49b69c1, 0xefbe4786, 0x0fc19dc6, 0x240ca1cc, 0x2de92c6f, 0x4a7484aa, 0x5cb0a9dc, 0x76f988da] ++
  [0x983e5152, 0xa831c66d, 0xb00327c8, 0xbf597fc7, 0xc6e00bf3, 0xd5a79147, 0x06ca6351, 0x14292967] ++
  [0x27b70a85, 0x2e1b2138, 0x4d2c6dfc, 0x53380d13, 0x650a7354, 0x766a0abb, 0x81c2c92e, 0x92722c85] ++
  [0xa2bfe8a1, 0xa81a664b, 0xc24b8b70, 0xc76c51a3, 0xd192e819, 0xd6990624, 0xf40e3585, 0x106aa070] ++
  [0x19a4c116, 0x1e376c08, 0x2748774c, 0x34b0bcb5, 0x391c0cb3, 0x4ed8aa4a, 0x5b9cca4f, 0x682e6ff3] ++
  [0x748f82ee, 0x78a5636f, 0x84c87814, 0x8cc70208, 0x90befffa, 0xa4506ceb, 0xbef9a3f7, 0xc67178f2]

/-- The initial hash value. -/
def shaH0 : List Nat :=
  [0x6a09e667, 0xbb67ae85, 0x3c6ef372, 0xa54ff53a, 0x510e527f, 0x9b05688c, 0x1f83d9ab, 0x5be0cd19]

/-- Extend the message schedule by so many words; it is kept newest first. -/
def shaExtend : Nat → List Nat → List Nat
  | 0, w => w
  | n + 1, w =>
    let a := w.getD 14 0
    let b := w.getD 1 0
    let s0 := rotr 7 a ^^^ rotr 18 a ^^^ (a / 2 ^ 3)
    let s1 := rotr 17 b ^^^ rotr 19 b ^^^ (b / 2 ^ 10)
    shaExtend n ((w.getD 15 0 + s0 + w.getD 6 0 + s1) % 2 ^ 32 :: w)

/-- One round. -/
def shaRound (v : List Nat) (k w : Nat) : List Nat :=
  match v with
  | [a, b, c, d, e, f, g, h] =>
    let s1 := rotr 6 e ^^^ rotr 11 e ^^^ rotr 25 e
    let ch := (e &&& f) ^^^ ((2 ^ 32 - 1 - e) &&& g)
    let t1 := (h + s1 + ch + k + w) % 2 ^ 32
    let s0 := rotr 2 a ^^^ rotr 13 a ^^^ rotr 22 a
    let maj := (a &&& b) ^^^ (a &&& c) ^^^ (b &&& c)
    [(t1 + s0 + maj) % 2 ^ 32, a, b, c, (d + t1) % 2 ^ 32, e, f, g]
  | _ => v

/-- One 64-byte block. -/
def shaBlock (h : List Nat) (b : Bytes) : List Nat :=
  let w := (shaExtend 48 ((groupsOf 4 16 b).map beValue).reverse).reverse
  let v := (List.zip shaK w).foldl (fun v kw => shaRound v kw.1 kw.2) h
  List.zipWith (fun x y => (x + y) % 2 ^ 32) h v

/-- SHA-256. -/
def sha256 (m : Bytes) : Bytes :=
  let n := m.length
  let padded := m ++ [0x80] ++ zeros ((119 - n % 64) % 64) ++ beBytes 8 (8 * n)
  ((groupsOf 64 (padded.length / 64) padded).foldl shaBlock shaH0).flatMap (beBytes 4)

/-- HMAC-SHA-256 under a key of at most 64 bytes. -/
def hmac (k m : Bytes) : Bytes :=
  let k' := fit 64 k
  let pad := fun (x : Byte) => k'.map (· ^^^ x)
  sha256 (pad 0x5C ++ sha256 (pad 0x36 ++ m))

/-- The KDF of R363: one iteration of the counter mode, 256 bits. -/
def kdf (k fid : Bytes) : Bytes := hmac k (beBytes 4 1 ++ fid ++ beBytes 4 0x100)

/-- The key check value of R364. -/
def kcv (k : Bytes) : Nat := beValue ((hmac k (zeros 32)).take 4)

/-- Text as bytes. -/
def ascii (t : List Nat) : Bytes := ofNats t

/-! ### AES-256 -/

/-- Multiply by x in GF(2^8). -/
def xtime (b : Nat) : Nat := if 128 ≤ b then (2 * b % 256) ^^^ 0x1B else 2 * b

/-- Multiply in GF(2^8), over so many bits of the second factor. -/
def gmulFrom : Nat → Nat → Nat → Nat
  | 0, _, _ => 0
  | n + 1, a, b => (if b % 2 = 1 then a else 0) ^^^ gmulFrom n (xtime a) (b / 2)

/-- Multiply in GF(2^8). -/
def gmul (a b : Nat) : Nat := gmulFrom 8 a b

/-- The inverse in GF(2^8): the 254th power. -/
def ginv (a : Nat) : Nat :=
  let a2 := gmul a a
  let a4 := gmul a2 a2
  let a8 := gmul a4 a4
  let a16 := gmul a8 a8
  let a32 := gmul a16 a16
  let a64 := gmul a32 a32
  let a128 := gmul a64 a64
  gmul a2 (gmul a4 (gmul a8 (gmul a16 (gmul a32 (gmul a64 a128)))))

/-- Rotate a byte left. -/
def rotl8 (n x : Nat) : Nat := (x * 2 ^ n) % 256 + x / 2 ^ (8 - n)

/-- The S-box. -/
def sbox (a : Nat) : Nat :=
  let b := ginv a
  b ^^^ rotl8 1 b ^^^ rotl8 2 b ^^^ rotl8 3 b ^^^ rotl8 4 b ^^^ 0x63

/-- The inverse S-box. -/
def invSbox (a : Nat) : Nat := ginv (rotl8 1 a ^^^ rotl8 3 a ^^^ rotl8 6 a ^^^ 0x05)

/-- Extend the key schedule; words newest first, `i` the number of the next word, `rc` the next round constant. -/
def aesExtend : Nat → Nat → Nat → List (List Nat) → List (List Nat)
  | 0, _, _, w => w
  | n + 1, i, rc, w =>
    let t := w.getD 0 []
    let old := w.getD 7 []
    if i % 8 = 0 then
      let r := ((t.drop 1 ++ t.take 1).map sbox)
      let r' := (r.headD 0 ^^^ rc) :: r.drop 1
      aesExtend n (i + 1) (xtime rc) (List.zipWith (· ^^^ ·) old r' :: w)
    else if i % 8 = 4 then aesExtend n (i + 1) rc (List.zipWith (· ^^^ ·) old (t.map sbox) :: w)
    else aesExtend n (i + 1) rc (List.zipWith (· ^^^ ·) old t :: w)

/-- The 15 round keys of a 32-byte key. -/
def aesKeys (k : Bytes) : List (List Nat) :=
  let w := aesExtend 52 8 1 (groupsOf 4 8 (toNats (fit 32 k))).reverse
  (groupsOf 4 15 w.reverse).map List.flatten

/-- Move the bytes of a row r by m × r columns. -/
def shiftRows (m : Nat) (s : List Nat) : List Nat :=
  (List.range 16).map fun i => s.getD (i % 4 + 4 * ((i / 4 + m * (i % 4)) % 4)) 0

/-- Multiply each column by a circulant row of coefficients. -/
def mixColumns (c : List Nat) (s : List Nat) : List Nat :=
  (List.range 16).map fun i =>
    let col := i / 4
    let r := i % 4
    (List.range 4).foldl (fun acc j => acc ^^^ gmul (s.getD (4 * col + j) 0) (c.getD ((j + 4 - r) % 4) 0)) 0

/-- Add a round key. -/
def addKey (s k : List Nat) : List Nat := List.zipWith (· ^^^ ·) s k

/-- Encrypt a block under round keys. -/
def aesEncRounds (s : List Nat) : List (List Nat) → List Nat
  | [] => s
  | [k] => addKey (shiftRows 1 (s.map sbox)) k
  | k :: t => aesEncRounds (addKey (mixColumns [2, 3, 1, 1] (shiftRows 1 (s.map sbox))) k) t

/-- AES-256 encryption of a block. -/
def aesEnc (k b : Bytes) : Bytes :=
  match aesKeys k with
  | k0 :: t => ofNats (aesEncRounds (addKey (toNats b) k0) t)
  | [] => b

/-- Decrypt a block under round keys, last first. -/
def aesDecRounds (s : List Nat) : List (List Nat) → List Nat
  | [] => s
  | [k] => addKey ((shiftRows 3 s).map invSbox) k
  | k :: t => aesDecRounds (mixColumns [14, 11, 13, 9] (addKey ((shiftRows 3 s).map invSbox) k)) t

/-- AES-256 decryption of a block. -/
def aesDec (k b : Bytes) : Bytes :=
  match (aesKeys k).reverse with
  | k0 :: t => ofNats (aesDecRounds (addKey (toNats b) k0) t)
  | [] => b

/-! ### KWP (SP 800-38F), R365 -/

/-- One pass of the wrapping function over the registers. -/
def kwpPass (k : Bytes) (j n : Nat) (a : Bytes) (r : List Bytes) : Bytes × List Bytes :=
  (r.zipIdx).foldl (fun (s : Bytes × List Bytes) x =>
    let b := aesEnc k (s.1 ++ x.1)
    (xorBytes (b.take 8) (beBytes 8 (n * j + x.2 + 1)), s.2 ++ [b.drop 8])) (a, [])

/-- Wrap 48 bytes: 56 bytes. -/
def kwpWrap (k p : Bytes) : Bytes :=
  let r0 := groupsOf 8 (p.length / 8) p
  let out := (List.range 6).foldl (fun (s : Bytes × List Bytes) j => kwpPass k j r0.length s.1 s.2)
    (beBytes 4 0xA65959A6 ++ beBytes 4 p.length, r0)
  out.1 ++ out.2.flatten

/-- One pass backward. -/
def kwpUnpass (k : Bytes) (j n : Nat) (a : Bytes) (r : List Bytes) : Bytes × List Bytes :=
  ((r.zipIdx).reverse).foldl (fun (s : Bytes × List Bytes) x =>
    let b := aesDec k (xorBytes s.1 (beBytes 8 (n * j + x.2 + 1)) ++ x.1)
    (b.take 8, b.drop 8 :: s.2)) (a, [])

/-- Unwrap 56 bytes to 48; none where the integrity check fails. -/
def kwpUnwrap (k c : Bytes) : Option Bytes :=
  let all := groupsOf 8 (c.length / 8) c
  let n := all.length - 1
  let out := ([5, 4, 3, 2, 1, 0] : List Nat).foldl (fun (s : Bytes × List Bytes) j => kwpUnpass k j n s.1 s.2)
    (all.headD [], all.drop 1)
  if out.1 = beBytes 4 0xA65959A6 ++ beBytes 4 (8 * n) then some out.2.flatten else none

/-! ### AES-256-GCM -/

/-- Multiply in the field of GHASH; bit 127 of a number is the first bit of its block. -/
def ghashMul : Nat → Nat → Nat → Nat → Nat
  | 0, _, _, z => z
  | n + 1, x, v, z =>
    let z' := if x.testBit n then z ^^^ v else z
    let v' := if v % 2 = 1 then (v / 2) ^^^ (0xE1 * 2 ^ 120) else v / 2
    ghashMul n x v' z'

/-- GHASH of bytes whose length is a multiple of 16. -/
def ghash (h : Nat) (l : Bytes) : Nat :=
  (groupsOf 16 (l.length / 16) l).foldl (fun y b => ghashMul 128 (y ^^^ beValue b) h 0) 0

/-- Zero padding to a multiple of 16. -/
def pad16 (l : Bytes) : Bytes := l ++ zeros ((16 - l.length % 16) % 16)

/-- Encrypt or decrypt in counter mode from a counter block. -/
def gctr (k iv : Bytes) (l : Bytes) : Bytes :=
  ((groupsOf 16 (l.length / 16 + 1) l).zipIdx).flatMap fun x =>
    xorBytes x.1 (aesEnc k (iv ++ beBytes 4 (x.2 + 2)))

/-- The tag over associated data and ciphertext under a 96-bit IV. -/
def gcmTag (k iv aad c : Bytes) : Bytes :=
  let h := beValue (aesEnc k (zeros 16))
  let s := ghash h (pad16 aad ++ pad16 c ++ beBytes 8 (8 * aad.length) ++ beBytes 8 (8 * c.length))
  xorBytes (beBytes 16 s) (aesEnc k (iv ++ beBytes 4 1))

/-- Encrypt: ciphertext and tag. -/
def gcmSeal (k iv aad p : Bytes) : Bytes × Bytes :=
  let c := gctr k iv p
  (c, gcmTag k iv aad c)

/-- Decrypt: none where the tag fails. -/
def gcmOpen (k iv aad c tag : Bytes) : Option Bytes :=
  if (gcmTag k iv aad c).take tag.length = tag then some (gctr k iv c) else none

/-! ### The frame check sequence of Ethernet -/

/-- CRC-32 of a frame, as its four FCS bytes. -/
def fcsOf (l : Bytes) : Bytes :=
  leBytes 4 (reverseBits 32 (crcBytes 32 0x04C11DB7 true 0xFFFFFFFF l ^^^ 0xFFFFFFFF))

end Sys2Proof.Machine
end

