-- ==== Sys2Proof/Machine/KeyStore.lean ====
section
/-! DEFINITION. The key store: root, slots, blobs, commands, life cycle, Hallmark (R358 to R382). -/

namespace Sys2Proof.Machine

/-! ### Slots, generations, orphans (R361, R367, R372) -/

/-- Attribute codes. -/
abbrev attrEncrypt : Nat := 0
abbrev attrDecrypt : Nat := 1
abbrev attrWrap : Nat := 2
abbrev attrDerive : Nat := 3

/-- Slot states. -/
abbrev slotEmpty : Nat := 0
abbrev slotValid : Nat := 1
abbrev slotOrphaned : Nat := 2

/-- The parent number of the DWK. -/
abbrev parentDwk : Nat := 0xFF

/-- A slot that has held nothing. -/
def KeySlot.cold : KeySlot :=
  { state := 0, attr := 0, origin := 0, parent := 0, parentGen := 0, gen := 0, share := [], masked := [] }

/-- A key slot. -/
def State.keySlot (s : State) (n : Nat) : KeySlot := Tab.at KeySlot.cold s.keySlots n

/-- Write a key slot. -/
def State.putSlot (s : State) (n : Nat) (x : KeySlot) : State := { s with keySlots := Tab.put n x s.keySlots }

/-- The key of a VALID slot. -/
def State.slotKey (s : State) (n : Nat) : Option Bytes :=
  let x := s.keySlot n
  if x.state = slotValid then some (xorBytes x.share x.masked) else none

/-- The key of a VALID slot of an attribute whose generation is one that its user recorded (R373). -/
def State.usableKey (s : State) (n attr gen : Nat) : Option Bytes :=
  let x := s.keySlot n
  if x.attr = attr ∧ x.gen = gen then s.slotKey n else none

/-- Empty a slot in a state: zeros for the key, the generation incremented. -/
def KeySlot.drop (x : KeySlot) (st : Nat) : KeySlot :=
  { KeySlot.cold with state := st, gen := (x.gen + 1) % 2 ^ 16
                      attr := if st = slotOrphaned then x.attr else 0
                      origin := if st = slotOrphaned then x.origin else 0
                      parent := if st = slotOrphaned then x.parent else 0
                      parentGen := if st = slotOrphaned then x.parentGen else 0 }

/-- Is a VALID slot's recorded parent generation no longer its parent's? -/
def State.isOrphan (s : State) (n : Nat) : Bool :=
  let x := s.keySlot n
  decide (x.state = slotValid ∧ x.parent < 128) && decide (x.parentGen ≠ (s.keySlot x.parent).gen)

/-- One round of the cascade of R372. -/
def State.orphanRound (s : State) : State :=
  (List.range 128).foldl (fun s n => if s.isOrphan n then s.putSlot n ((s.keySlot n).drop slotOrphaned) else s) s

/-- The whole cascade: as many rounds as the hierarchy can be deep. ORPHANED is set where a slot was orphaned. -/
def State.orphan (s : State) : State :=
  let s1 := (List.range 128).foldl (fun s _ => s.orphanRound) s
  if (List.range 128).any s.isOrphan then s1.raise pgKey 17 else s1

/-- A slot becomes EMPTY and its descendants ORPHANED. -/
def State.invalidate (s : State) (n : Nat) : State := (s.putSlot n ((s.keySlot n).drop slotEmpty)).orphan

/-- Every slot is invalidated. -/
def State.invalidateAll (s : State) : State :=
  ((List.range 128).foldl (fun s n => s.putSlot n ((s.keySlot n).drop slotEmpty)) s)

/-- Thirty-two bytes from the DRBG. -/
def State.random (s : State) : Bytes × State := (fit 32 (Config.drbg s.free), { s with free := s.free + 1 })

/-- The generation recorded for a parent; the DWK has none. -/
def State.parentGen (s : State) (p : Nat) : Nat := if p = parentDwk then 0 else (s.keySlot p).gen

/-- Fill a slot in one step: a VALID one is replaced, which increments its generation and orphans its descendants (R371). -/
def State.fillSlot (s : State) (n attr origin parent : Nat) (key : Bytes) : State :=
  let old := s.keySlot n
  let (r, s1) := s.random
  let gen := if old.state = slotValid then (old.gen + 1) % 2 ^ 16 else old.gen
  (s1.putSlot n
    { state := slotValid, attr := attr, origin := origin, parent := parent, parentGen := s.parentGen parent, gen := gen
      share := r, masked := xorBytes key r }).orphan

/-- Does slot b lie beneath slot a, within so many steps? -/
def State.beneath (s : State) (a b : Nat) : Nat → Bool
  | 0 => false
  | k + 1 =>
    decide (b = a) ||
    (let x := s.keySlot b
     decide (x.state = slotValid ∧ x.parent < 128) && s.beneath a x.parent k)

/-! ### Root (R358 to R360, R376) -/

/-- LC code of a life-cycle state; TRANSITION_PENDING has none. -/
def lcCode (state : Nat) : Option Nat := if state < 3 then some (state + 1) else none

/-- The current LC code. -/
def State.lc (s : State) : Option Nat := lcCode (s.get pgKey 0 F.keyLcStatusState)

/-- The root of a PUF secret under an LC code. -/
def rootOf (secret : Bytes) (lc : Nat) : Bytes :=
  hmac secret (ascii [67, 72, 82, 79, 84, 79, 73, 82, 45, 82, 79, 79, 84] ++ leBytes 2 lc)

/-- The device wrapping key of a root. -/
def dwkOf (root : Bytes) : Bytes := kdf root (ascii [1, 68, 87, 75])

/-- ROOT codes of STATUS. -/
abbrev rootNone : Nat := 0
abbrev rootRegenerating : Nat := 1
abbrev rootValid : Nat := 2
abbrev rootFailed : Nat := 3

/-- ROOT. -/
def State.rootState (s : State) : Nat := s.statBits pgKey 16 2

/-- The DWK while ROOT is VALID. -/
def State.dwk (s : State) : Option Bytes :=
  if s.rootState = rootValid then
    match s.pufSecret, s.lc with
    | some x, some c => some (dwkOf (rootOf x c))
    | _, _ => none
  else none

/-- READY of KEY follows ROOT once it has left INERT (R380). -/
def State.keyReady (s : State) : State :=
  if s.inert pgKey then s
  else if s.rootState = rootValid then s.putReady pgKey true causeNone
  else s.putReady pgKey false causeWaitDependency

/-- ROOT takes a state; DWK_KCV follows. Under TRANSITION_PENDING a held secret gives no root yet (R378). -/
def State.putRoot (s : State) (k : Nat) : State :=
  let s1 := s.putStatBits pgKey 16 2 k
  (s1.put pgKey 0 F.keyDwkKcvKcv ((s1.dwk.map kcv).getD 0)).keyReady

/-- The secret is there: the root is derived for the current LC code, where there is one. -/
def State.deriveRoot (s : State) (secret : Bytes) : State :=
  let s1 := { s with pufSecret := some secret, pufHeld := false }
  match s1.lc with
  | some _ => s1.putRoot rootValid
  | none => s1.putRoot rootNone

/-- HELPER or ENROLL succeeds: the root is derived, and ROOT_READY tells where ROOT reads VALID then (R360; log entry 232). -/
def State.rootMade (s : State) (secret : Bytes) : State :=
  let s1 := s.deriveRoot secret
  if s1.rootState = rootValid then s1.raise pgKey 19 else s1

/-- Does helper data have the form of R359? -/
def helperOk (b : Bytes) : Bool :=
  decide (b.length = 2048) && decide (leValue (b.take 4) = 0x504C4548) && decide (leValue ((b.drop 4).take 2) = 1) &&
    decide (leValue ((b.drop 8).take 4) = crc32c (b.drop 16))

/-- ROOT_TAG of a secret. -/
def rootTag (x : Bytes) : Bytes := (sha256 (x ++ ascii [84, 65, 71])).take 4

/-- The secret that helper data gives, 256 bits. -/
def helperSecret (b : Bytes) : Option Bytes :=
  match Config.pufDecode (b.drop 16) with
  | some x => if rootTag (fit 32 x) = (b.drop 12).take 4 then some (fit 32 x) else none
  | none => none

/-- Helper data of an enrolment. -/
def helperOf (secret syndrome : Bytes) : Bytes :=
  let body := fit 2032 syndrome
  leBytes 4 0x504C4548 ++ leBytes 2 1 ++ zeros 2 ++ leBytes 4 (crc32c body) ++ rootTag secret ++ body

/-! ### Blobs (R365, R366) -/

/-- The first sixteen bytes of a blob. -/
def blobHead (attr lc parentKcv : Nat) : Bytes :=
  leBytes 4 0x424F4C42 ++ leBytes 2 1 ++ leBytes 1 attr ++ leBytes 1 0x20 ++ leBytes 2 lc ++ zeros 2 ++ leBytes 4 parentKcv

/-- A blob of a key under a parent key. -/
def blobOf (attr lc : Nat) (parent key : Bytes) : Bytes :=
  let h := blobHead attr lc (kcv parent)
  h ++ leBytes 4 (kcv key) ++ zeros 12 ++ kwpWrap parent (h ++ key)

/-- CMD_RESULT codes. -/
abbrev keyOk : Nat := 0
abbrev keyBusy : Nat := 1
abbrev keyBadArg : Nat := 2
abbrev keyRefused : Nat := 3
abbrev keyNoRoot : Nat := 4
abbrev keySlotBusy : Nat := 5
abbrev keyBadParent : Nat := 6
abbrev keyWrongParent : Nat := 7
abbrev keyBadBlob : Nat := 8
abbrev keyAuthFail : Nat := 9
abbrev keyMemFail : Nat := 10
abbrev keyHelperBad : Nat := 11
abbrev keyPufFail : Nat := 12
abbrev keyRngFail : Nat := 13
abbrev keyDeferred : Nat := 14

/-- Unwrap a blob under a parent key: its attribute and key, or the first check that fails. -/
def unwrapBlob (lc : Nat) (parent b : Bytes) : Nat ⊕ (Nat × Bytes) :=
  let attr := leValue ((b.drop 6).take 1)
  if leValue (b.take 4) ≠ 0x424F4C42 ∨ leValue ((b.drop 4).take 2) ≠ 1 ∨ leValue ((b.drop 7).take 1) ≠ 0x20 ∨
      (b.drop 10).take 2 ≠ zeros 2 ∨ (b.drop 20).take 12 ≠ zeros 12 ∨ 3 < attr then .inl keyBadBlob
  else if leValue ((b.drop 8).take 2) ≠ lc then .inl keyBadBlob
  else if leValue ((b.drop 12).take 4) ≠ kcv parent then .inl keyWrongParent
  else match kwpUnwrap parent ((b.drop 32).take 56) with
    | none => .inl keyAuthFail
    | some p =>
      if p.take 16 = b.take 16 ∧ kcv (p.drop 16) = leValue ((b.drop 16).take 4) then .inr (attr, p.drop 16)
      else .inl keyAuthFail

/-! ### Commands (R368 to R371) -/

/-- OP codes. -/
abbrev opLoad : Nat := 1
abbrev opInvalidate : Nat := 2
abbrev opDerive : Nat := 3
abbrev opGenerate : Nat := 4
abbrev opImport : Nat := 5
abbrev opRewrap : Nat := 6
abbrev opHallmark : Nat := 7
abbrev opHelper : Nat := 8
abbrev opEnroll : Nat := 9

/-- Input bytes that a command reads at CMD_SRC. -/
def keyInputLen (op len : Nat) : Nat :=
  if op = opLoad ∨ op = opRewrap then 88 else if op = opDerive then len else if op = opImport ∨ op = opHallmark then 32
  else if op = opHelper then 2048 else 0

/-- The command that a master has staged. -/
def State.stagedKeyOp (s : State) (m : Nat) : KeyOp :=
  let g := fun f => s.get pgKey m f
  let op := g F.keyCmdOp
  let len := keyInputLen op (g F.keyCmdLenBytes)
  { master := m, op := op, replace := s.flag pgKey m F.keyCmdReplace, attr := g F.keyCmdAttr, slot := g F.keyCmdSlot
    parent := g F.keyCmdParent, newParent := g F.keyCmdNewParent
    input := s.readBytes (s.addr40 pgKey m F.keyCmdSrcLoAddr F.keyCmdSrcHiAddr) len
    dst := s.addr40 pgKey m F.keyCmdDstLoAddr F.keyCmdDstHiAddr }

/-- A parent is a slot or the DWK. -/
def parentOk (p : Nat) : Bool := decide (p < 128 ∨ p = parentDwk)

/-- BAD_ARG of R370. -/
def State.keyArgBad (s : State) (o : KeyOp) (len : Nat) : Bool :=
  decide (o.op = 0 ∨ opEnroll < o.op) ||
    (decide (o.op = opLoad ∨ o.op = opDerive ∨ o.op = opGenerate ∨ o.op = opImport ∨ o.op = opRewrap) && !parentOk o.parent) ||
    (decide (o.op = opRewrap) && !parentOk o.newParent) ||
    (decide (o.op = opLoad ∨ o.op = opDerive ∨ o.op = opGenerate) && decide (o.parent = o.slot)) ||
    (decide (o.op = opDerive) && decide (len < 1 ∨ 256 < len)) ||
    (decide (o.op = opHallmark) && decide ((s.keySlot o.slot).attr ≠ attrDerive ∨ (s.keySlot o.slot).state ≠ slotValid))

/-- REFUSED of R370: the life cycle (R375, which names no state for INVALIDATE), R360, R368, IMPORT_LOCK. -/
def State.keyRefusedNow (s : State) (o : KeyOp) : Bool :=
  let st := s.get pgKey 0 F.keyLcStatusState
  if s.inert pgKey then true
  else if o.op = opInvalidate then false
  else if o.op = opHelper then decide (s.rootState = rootValid) || !s.pufHeld
  else if o.op = opEnroll then decide (st ≠ 0) || !s.pufHeld
  else if o.op = opImport then decide (2 ≤ st) || s.flag pgKey 0 F.keyCtrlImportLock
  else decide (st = 3)

/-- The key of a parent of a required attribute. -/
def State.parentKey (s : State) (p attr : Nat) : Option Bytes :=
  if p = parentDwk then (if attr = attrWrap then s.dwk else none)
  else if (s.keySlot p).attr = attr then s.slotKey p else none

/-- BAD_PARENT of R370. -/
def State.keyParentBad (s : State) (o : KeyOp) : Bool :=
  let fills := decide (o.op = opLoad ∨ o.op = opDerive ∨ o.op = opGenerate)
  (decide (o.op = opLoad ∨ o.op = opGenerate ∨ o.op = opImport ∨ o.op = opRewrap) && (s.parentKey o.parent attrWrap).isNone) ||
    (decide (o.op = opDerive) && (s.parentKey o.parent attrDerive).isNone) ||
    (decide (o.op = opRewrap) && (s.parentKey o.newParent attrWrap).isNone) ||
    (fills && o.replace && decide ((s.keySlot o.slot).state = slotValid ∧ o.parent < 128) && s.beneath o.slot o.parent 129)

/-- The checks of R370 before the memory is reached. -/
def State.keyCheck (s : State) (o : KeyOp) (len : Nat) : Nat :=
  if s.keyArgBad o len then keyBadArg
  else if s.keyRefusedNow o then keyRefused
  else if o.op ≠ opHelper ∧ o.op ≠ opEnroll ∧ s.rootState ≠ rootValid then keyNoRoot
  else if (o.op = opLoad ∨ o.op = opDerive ∨ o.op = opGenerate) ∧ (s.keySlot o.slot).state = slotValid ∧ o.replace = false then
    keySlotBusy
  else if s.keyParentBad o then keyBadParent
  else if o.op = opGenerate ∧ s.rngFailed = true then keyRngFail
  else keyOk

/-- A command ends: CMD_RESULT of its master, the mailbox zeroed, CMD_DONE. -/
def State.keyEnd (s : State) (m c : Nat) : State :=
  let s1 := { s with keyOp := none, mem := Memory.clear s.mem mailBase 4096 }
  (((s1.put pgKey m F.keyCmdResultCode c).put pgKey m F.keyCmdResultAbandoned 0).putStat pgKey 18 false).raise pgKey 16

/-- CMD_GO of a master (R368): BUSY, a check that fails, or the command begins with its input in the mailbox. HELPER and
ENROLL post the PUF's power request. -/
def State.keyGo (s : State) (m : Nat) : State :=
  if s.keyOp.isSome || s.lcTarget.isSome then (s.put pgKey m F.keyCmdResultCode keyBusy).put pgKey m F.keyCmdResultAbandoned 0
  else
    let o := s.stagedKeyOp m
    let c := s.keyCheck o (s.get pgKey m F.keyCmdLenBytes)
    if c ≠ keyOk then s.keyEnd m c
    else
      let s1 := ({ s with keyOp := some o, mem := Memory.writeBytes s.mem mailBase (o.input.getD []) }).putStat pgKey 18 true
      if o.op = opHelper ∨ o.op = opEnroll then
        let (s2, ok) := (s1.putRoot rootRegenerating).postPower pgKey .puf
        if ok then s2 else (s2.putRoot rootNone).keyEnd m keyDeferred
      else s1

/-- A command named by its OP: the OP is staged and GO written. -/
def State.keyCommand (s : State) (m op : Nat) : State :=
  s.write m pgKey 0x098 1 fun s => (s.put pgKey m F.keyCmdOp op).keyGo m

/-- KEY_LOAD (R366). -/
def execKeyLoad (m : Fin 8) (s : State) : Host.Outcome State Fault Refusal := .next (s.keyCommand m opLoad)
/-- KEY_INVALIDATE (R372). -/
def execKeyInvalidate (m : Fin 8) (s : State) : Host.Outcome State Fault Refusal := .next (s.keyCommand m opInvalidate)
/-- KEY_DERIVE (R363). -/
def execKeyDerive (m : Fin 8) (s : State) : Host.Outcome State Fault Refusal := .next (s.keyCommand m opDerive)
/-- KEY_GENERATE (R369). -/
def execKeyGenerate (m : Fin 8) (s : State) : Host.Outcome State Fault Refusal := .next (s.keyCommand m opGenerate)
/-- KEY_IMPORT (R369). -/
def execKeyImport (m : Fin 8) (s : State) : Host.Outcome State Fault Refusal := .next (s.keyCommand m opImport)
/-- KEY_REWRAP (R369). -/
def execKeyRewrap (m : Fin 8) (s : State) : Host.Outcome State Fault Refusal := .next (s.keyCommand m opRewrap)
/-- KEY_HALLMARK (R381). -/
def execKeyHallmark (m : Fin 8) (s : State) : Host.Outcome State Fault Refusal := .next (s.keyCommand m opHallmark)
/-- KEY_HELPER (R360). -/
def execKeyHelper (m : Fin 8) (s : State) : Host.Outcome State Fault Refusal := .next (s.keyCommand m opHelper)
/-- KEY_ENROLL (R360). -/
def execKeyEnroll (m : Fin 8) (s : State) : Host.Outcome State Fault Refusal := .next (s.keyCommand m opEnroll)

/-! ### Hallmark (R381) -/

/-- OUT0 to OUT7. -/
def keyOuts : List Field :=
  [F.keyOut0Resp, F.keyOut1Resp, F.keyOut2Resp, F.keyOut3Resp, F.keyOut4Resp, F.keyOut5Resp, F.keyOut6Resp, F.keyOut7Resp]

/-- DIGEST0 to DIGEST7. -/
def keyDigests : List Field :=
  [F.keyDigest0Digest, F.keyDigest1Digest, F.keyDigest2Digest, F.keyDigest3Digest, F.keyDigest4Digest, F.keyDigest5Digest,
   F.keyDigest6Digest, F.keyDigest7Digest]

/-- Write 32 bytes to eight registers, byte 0 lowest. -/
def State.putWords (s : State) (p : Nat) (fs : List Field) (b : Bytes) : State :=
  (fs.zip (groupsOf 4 8 b)).foldl (fun s x => s.put p 0 x.1 (leValue x.2)) s

/-- The value of a register word from its fields. -/
def State.wordOf (s : State) (p c off : Nat) : Nat :=
  (fieldsAt p off).foldl (fun n f => n + s.get p c f * 2 ^ f.lo) 0

/-- The CRC field of a profile's image in the profile store: 0 where the cell is not VALID. -/
def State.profileCrc (s : State) (n : Nat) : Bytes :=
  if s.profileValid n then Memory.readBytes s.mem (profBase + n * 0x80000 + 12) 4 else zeros 4

/-- The configuration digest. -/
def State.configDigest (s : State) : Bytes :=
  sha256 (fit 32 s.fwHash ++ leBytes 4 (s.wordOf pgDev 0 0x080) ++ leBytes 4 (s.wordOf pgFlt 0 0x080) ++
    [0, 1, 2, 3].flatMap s.profileCrc)

/-- The response to a challenge. -/
def State.hallmark (s : State) (key challenge : Bytes) : Bytes :=
  kdf key (ascii [72, 65, 76, 76, 77, 65, 82, 75, 0] ++ challenge ++ leBytes 8 Config.fusedSerial ++ leBytes 2 (s.lc.getD 0) ++
    s.configDigest)

/-! ### Completion -/

/-- What a command does once its checks have passed and its input is there. -/
def State.keyRun (s : State) (o : KeyOp) (input : Bytes) : State :=
  let m := o.master
  let lc := s.lc.getD 0
  if o.op = opLoad then
    match s.parentKey o.parent attrWrap with
    | some k => match unwrapBlob lc k input with
      | .inl c => s.keyEnd m c
      | .inr (attr, key) => (s.fillSlot o.slot attr 0 o.parent key).keyEnd m keyOk
    | none => s.keyEnd m keyBadParent
  else if o.op = opInvalidate then (s.invalidate o.slot).keyEnd m keyOk
  else if o.op = opDerive then
    match s.parentKey o.parent attrDerive with
    | some k =>
      let cls := if o.attr ≤ 1 then 0 else o.attr - 1
      (s.fillSlot o.slot o.attr 1 o.parent (kdf k (leBytes 1 cls ++ input))).keyEnd m keyOk
    | none => s.keyEnd m keyBadParent
  else if o.op = opGenerate then
    match s.parentKey o.parent attrWrap with
    | some k =>
      let (key, s1) := s.random
      if s1.writable o.dst 88 then
        ((s1.pokeBytes 4 o.dst (blobOf o.attr lc k key)).fillSlot o.slot o.attr 2 o.parent key).keyEnd m keyOk
      else s1.keyEnd m keyMemFail
    | none => s.keyEnd m keyBadParent
  else if o.op = opImport then
    match s.parentKey o.parent attrWrap with
    | some k =>
      if s.writable o.dst 88 then (s.pokeBytes 4 o.dst (blobOf o.attr lc k input)).keyEnd m keyOk else s.keyEnd m keyMemFail
    | none => s.keyEnd m keyBadParent
  else if o.op = opRewrap then
    match s.parentKey o.parent attrWrap, s.parentKey o.newParent attrWrap with
    | some k, some k' => match unwrapBlob lc k input with
      | .inl c => s.keyEnd m c
      | .inr (attr, key) =>
        if s.writable o.dst 88 then (s.pokeBytes 4 o.dst (blobOf attr lc k' key)).keyEnd m keyOk else s.keyEnd m keyMemFail
    | _, _ => s.keyEnd m keyBadParent
  else if o.op = opHallmark then
    match s.slotKey o.slot with
    | some k => ((s.putWords pgKey keyOuts (s.hallmark k input)).putWords pgKey keyDigests s.configDigest).keyEnd m keyOk
    | none => s.keyEnd m keyBadArg
  else if o.op = opHelper then
    let s1 := s.releasePower pgKey .puf
    if !helperOk input then (s1.putRoot rootFailed).keyEnd m keyHelperBad
    else match helperSecret input with
      | some x => (s1.rootMade x).keyEnd m keyOk
      | none => (s1.putRoot rootFailed).keyEnd m keyPufFail
  else
    let s1 := s.releasePower pgKey .puf
    let (x, y) := Config.pufEnroll s1.free
    let s2 := { s1 with free := s1.free + 1 }
    if s2.writable o.dst 2048 then
      ((s2.pokeBytes 4 o.dst (helperOf (fit 32 x) y)).rootMade (fit 32 x)).keyEnd m keyOk
    else (s2.putRoot rootNone).keyEnd m keyMemFail

/-- The running command completes; one that needs the PUF's grant waits for it. -/
def State.keyDone (s : State) : State :=
  match s.keyOp with
  | none => s
  | some o =>
    if (o.op = opHelper ∨ o.op = opEnroll) ∧ s.holds pgKey .puf = false then s
    else match o.input with
      | some b => s.keyRun o b
      | none => (s.releasePower pgKey .puf).keyEnd o.master keyMemFail


/-- The PUF's request ended as DEFERRED: the command ends so. -/
def State.keyPowerDeferred (s : State) : State :=
  match s.keyOp with
  | some o => if o.op = opHelper ∨ o.op = opEnroll then (s.putRoot rootNone).keyEnd o.master keyDeferred else s
  | none => s

/-- HEALTH_TEST_FAIL (R369). -/
def execHealthTestFail (s : State) : Host.Outcome State Fault Refusal := .next { s with rngFailed := true }

/-! ### Life cycle (R375 to R378) -/

/-- Copies set of a fuse word. -/
def State.fuse (s : State) (n : Nat) : Nat := Tab.at 0 s.fuses n

/-- A fuse word reads as set where two of its copies are. -/
def State.fuseSet (s : State) (n : Nat) : Bool := decide (2 ≤ s.fuse n)

/-- The life-cycle state and pending target that the fuses give (R376). -/
def State.lcFromFuses (s : State) : Nat × Nat :=
  if s.fuseSet 3 then (2, 0) else if s.fuseSet 2 then (1, 0) else if s.fuseSet 1 then (3, 2)
  else if s.fuseSet 0 then (3, 1) else (0, 0)

/-- The state at a cold start. -/
def State.lcCold (s : State) : State :=
  (s.put pgKey 0 F.keyLcStatusState s.lcFromFuses.1).put pgKey 0 F.keyLcStatusPending s.lcFromFuses.2

/-- A write of LC_CTRL. -/
def State.writeLc (s : State) (w : Nat) : State :=
  let t := bits w 0 2
  let st := s.get pgKey 0 F.keyLcStatusState
  let pend := s.get pgKey 0 F.keyLcStatusPending
  if bits w 16 16 ≠ 0x4C43 then s.setErr pgKey errBadValue
  else if s.lcTarget.isSome then s.put pgKey 0 F.keyLcStatusResult 2
  else if t = 0 ∨ t = 3 ∨ (if st = 3 then decide (t ≠ pend) else decide (t ≤ st)) = true then
    s.put pgKey 0 F.keyLcStatusResult 1
  else { (s.put pgKey 0 F.keyLcStatusBusy 1) with lcTarget := some t }

/-- LC_TRANSITION (R377): a write of LC_CTRL. -/
def execLcTransition (m : Fin 8) (w : Word) (s : State) : Host.Outcome State Fault Refusal :=
  .next (s.write m pgKey 0x0A4 w.toNat fun s => s.writeLc w.toNat)

/-- A transition whose read-back failed: INTENT or DONE of the target has fewer than two good copies, and what was set stays; which
word it was, and whether one copy of it is set, is open. A word that reads as set does not fail again (R377, R378). -/
def State.burnFailed (s : State) (t : Nat) : State :=
  let (v, s1) := s.draw
  let part := v / 2 % 2
  if v % 2 = 0 ∧ s1.fuseSet (t - 1) = false then
    { s1 with fuses := Tab.put (t - 1) (max (s1.fuse (t - 1)) part) s1.fuses }
  else
    let f := Tab.put (t - 1) 3 s1.fuses
    { s1 with fuses := Tab.put (t + 1) (max (s1.fuse (t + 1)) part) f }

/-- A transition ends: the fuses are programmed, every slot invalidated, the root derived again; or the read-back failed. -/
def State.lcDone (s : State) (ok : Bool) : State :=
  match s.lcTarget with
  | none => s
  | some t =>
    let s1 := ({ s.invalidateAll with lcTarget := none }).put pgKey 0 F.keyLcStatusBusy 0
    if ok then
      let f := Tab.put (t - 1) 3 s1.fuses
      let s3 := { s1 with fuses := Tab.put (t + 1) 3 f }
      let s4 := ((s3.put pgKey 0 F.keyLcStatusState t).put pgKey 0 F.keyLcStatusPending 0).put pgKey 0 F.keyLcStatusResult 0
      (match s4.pufSecret with
        | some x => s4.deriveRoot x
        | none => s4.putRoot rootNone).raise pgKey 18
    else
      ((((s1.burnFailed t).put pgKey 0 F.keyLcStatusState 3).put pgKey 0 F.keyLcStatusPending t).put pgKey 0 F.keyLcStatusResult 3).putRoot
        rootNone


/-! ### Resets (R379, R380) -/

/-- A warm reset or an engine reset of KEY: the command in progress is abandoned, the rest is kept, a life-cycle transition
that runs too (log entry 236). -/
def State.keyReset (s : State) : State :=
  let s1 := match s.keyOp with
    | some o =>
      let s' := { s with keyOp := none, mem := Memory.clear s.mem mailBase 4096 }
      (s'.put pgKey o.master F.keyCmdResultCode 15).put pgKey o.master F.keyCmdResultAbandoned 1
    | none => s
  if s1.rootState = rootRegenerating then s1.putStatBits pgKey 16 2 rootNone else s1

end Sys2Proof.Machine
end

