-- ==== Sys2Proof/Machine/Lanes.lean ====
section
/-! DEFINITION. Serial lanes: states, adaptation, eye scans, the Gylos line code with its replay (R260 to R273). -/

namespace Sys2Proof.Machine

/-! ### Lane states (R270, R273) -/

/-- SIGNAL of a lane that takes a state: a lane that aligns or is UP sees transitions, one that is DOWN or OFF does not, one that waits
or adapts shows what it saw before; a transmit lane has no receiver (R273, log entry 206). -/
def State.signalIn (s : State) (p l st : Nat) : Nat :=
  if pageType p = 0x041 then 0
  else if st = laneAligning ∨ st = laneUp then 1
  else if st = laneDown ∨ st = laneOff then 0
  else s.get p l F.laneStatusSignal

/-- Transitions are seen at a lane's ball. -/
def State.laneSignal (s : State) (p l : Nat) : State := s.put p l F.laneStatusSignal 1

/-- Write STATE of a lane, with SIGNAL and CDR_LOCK; a change sets INT_STAT.ENG.LANE. -/
def State.putLane (s : State) (p l st : Nat) : State :=
  let locked := decide (pageType p ≠ 0x041 ∧ (st = laneAligning ∨ st = laneUp))
  let s1 := ((s.put p l F.laneStatusState st).put p l F.laneStatusSignal (s.signalIn p l st)).put p l F.laneStatusCdrLock
    (ofBool locked)
  if s.laneState p l = st then s1 else s1.raise p 25

/-- Is the page's lane a Gylos lane? -/
def isGylos (p : Nat) : Bool := pageType p = 0x043 || pageType p = 0x005

/-- Does a lane resume with its recorded settings (R327)? -/
def State.laneResumes (s : State) (p l : Nat) : Bool := decide ((p, l) ∈ s.laneResume)

/-- A lane's recorded settings are used, or of no use any more. -/
def State.laneForget (s : State) (p l : Nat) : State :=
  { s with laneResume := s.laneResume.filter fun x => decide (x ≠ (p, l)) }

/-- A lane posts its adaptation request and waits for power (R270); one that resumes aligns at once (R327). -/
def State.laneRequest (s : State) (p l : Nat) : State :=
  if s.laneResumes p l then (s.laneForget p l).putLane p l laneAligning
  else ((s.putLane p l laneWaitPower).postPower p (.lane l)).1

/-- The request of a lane is granted. -/
def State.laneGranted (s : State) (p l : Nat) : State :=
  if s.laneState p l = laneWaitPower then s.putLane p l laneAdapting else s

/-! ### Gylos lanes -/

/-- The header of a block before masking. -/
def blkHeader (kind seq : Nat) (first enc replay : Bool) : Nat :=
  kind * 2 ^ 28 + seq * 2 ^ 20 + ofBool first * 2 ^ 19 + ofBool enc * 2 ^ 18 + ofBool replay * 2 ^ 17 + blkMark

/-- The precedence of R283 among waiting blocks. -/
def blkRank (k : Nat) : Nat := if k = blkBeacon then 0 else if k = blkControl then 1 else if k = blkData then 2 else 3

/-- The waiting block that goes next, and the rest. -/
def pickBlock (l : List TxBlock) : Option (TxBlock × List TxBlock) :=
  let best := l.foldl (fun (m : Option TxBlock) b =>
    match m with
    | none => some b
    | some x => if blkRank b.kind < blkRank x.kind then some b else some x) none
  best.map fun b => (b, l.erase b)

/-- Largest slack, in bits (R265). -/
abbrev slackLimit : Nat := 2112

/-- A block as it goes out next: masked with the CRC of the block before, scrambled (R262, R263). -/
def GylTx.wire (tx : GylTx) (b : TxBlock) (replay : Bool) : Bytes :=
  let seq := tx.count % 256
  beBytes 4 (blkHeader b.kind seq b.first b.enc replay ^^^ tx.crc) ++ scramble seq b.payload

/-- The line bits of a block, and the run they end in (R264). -/
def GylTx.line (tx : GylTx) (wire : Bytes) : List Bool × Bool × Nat := stuffed tx.runBit tx.runLen (serialBits wire)

/-- Would a block bring the slack beyond its limit (R265)? -/
def GylTx.over (tx : GylTx) (b : TxBlock) (replay : Bool) : Bool :=
  decide (slackLimit < tx.slack + ((tx.line (tx.wire b replay)).1.length - 8 * (tx.wire b replay).length))

/-- How a block is kept for replay: not at all, as a new one, or as the resent one of a number (R268). -/
inductive Keeping where
  | no | new | resent (origin : Nat)
  deriving DecidableEq, Repr

/-- The held blocks once a block has gone out: a new one in front, a resent one under its new number. -/
def GylTx.keep (tx : GylTx) (b : TxBlock) : Keeping → List HeldBlock
  | .no => tx.held
  | .new => ⟨tx.count, tx.count, b⟩ :: tx.held
  | .resent o => tx.held.map fun e => if e.origin = o then { e with sent := tx.count } else e

/-- Send a built block; the last 96 DATA and CONTROL blocks are held for replay (R262 to R265, R268). -/
def State.sendBlock (s : State) (p l : Nat) (tx : GylTx) (b : TxBlock) (k : Keeping) : State :=
  let wire := tx.wire b (decide (k ≠ .no ∧ k ≠ .new))
  let (line, rb, rl) := tx.line wire
  let held := tx.keep b k
  let tx1 := { tx with
    count := tx.count + 1, crc := crc32c wire, runBit := rb, runLen := rl
    slack := tx.slack + (line.length - 8 * wire.length), held := held.take 96
    dropped := match held.drop 96 with | e :: _ => some e.sent | [] => tx.dropped }
  (s.putGyl p l { s.gyl p l with tx := tx1 }).emit (.block p l b.kind wire line)

/-- An IDLE block. -/
def idleBlock : TxBlock := ⟨blkIdle, false, false, List.replicate 128 0⟩

/-- An IDLE block is due: it is sent, or omitted to retire a block's worth of slack (R265). -/
def State.sendIdle (s : State) (p l : Nat) (tx : GylTx) : State :=
  if 1056 ≤ tx.slack then s.putGyl p l { s.gyl p l with tx := { tx with slack := tx.slack - 1056 } }
  else s.sendBlock p l tx idleBlock .no

/-- An IDLE block in place of another one: omitted only where it would itself bring the slack beyond its limit. -/
def State.sendInstead (s : State) (p l : Nat) (tx : GylTx) : State :=
  if tx.over idleBlock false then s.sendIdle p l tx else s.sendBlock p l tx idleBlock .no

/-! ### Loss and replay (R267 to R269) -/

/-- A lane is to find block boundaries again: nothing aligned or waiting, while destuffing goes on with the run of bits behind it, and
the next header is unmasked with the bits before it (R264, R266). -/
def GylLane.realign (g : GylLane) : GylLane :=
  { g with rx := { GylLane.cold.rx with
      crc := g.rx.crc, runBit := g.rx.runBit, runLen := g.rx.runLen, violations := g.rx.violations } }

/-- What has come of an unfinished record goes: its stream is taken up again at the next record header (R277). -/
def State.dropPart (s : State) (p l k : Nat) : State := { s with fabParts := Assoc.erase Key.code ⟨p, l, k⟩ s.fabParts }

/-- A Gylos lane is lost (R269). -/
def State.gylLoss (s : State) (p l : Nat) (signal : Bool) : State :=
  let g := (s.gyl p l).realign
  let s0 := (s.dropPart p l blkVideo).dropPart p l blkData
  let s1 := (s0.putGyl p l { g with rx := { g.rx with lostNs := s.now } }).putLane p l (if signal then laneAligning else laneDown)
  (s1.bumpSat p l F.laneCntLoss).fault fltLaneLoss respNone 0 p l 0

/-- Count an errored block. -/
def State.blkErr (s : State) (p l : Nat) : State := s.bumpSat p l F.laneCntBlkErr

/-- Ask for a replay from a SEQ; the fourth NAK of one SEQ loses the lane (R268). -/
def State.sendNak (s : State) (p l seq : Nat) : State :=
  let g := s.gyl p l
  let n := if g.rx.nak = some seq then g.rx.naks + 1 else 1
  let s1 := (s.putGyl p l { g with
      tx := { g.tx with link := g.tx.link ++ [[0x01, BitVec.ofNat 8 l, BitVec.ofNat 8 seq]] }
      rx := { g.rx with nak := some seq, naks := n, nakNs := s.now } }).bumpSat p l F.laneGylCntReplay
  if 4 ≤ n then s1.gylLoss p l true else s1

/-- Count an errored block by its type, 0 for unknown: the VIDEO record that it held a part of is lost (R267). -/
def State.countErrored (s : State) (p l kind : Nat) : State :=
  let s1 := s.blkErr p l
  if kind = blkVideo then (s1.bumpSat p l F.laneGylCntConceal).dropPart p l blkVideo
  else if kind = 0 then s1.dropPart p l blkVideo
  else s1

/-- Ask for a replay from a SEQ, where none is awaited. -/
def State.askReplay (s : State) (p l seq : Nat) : State :=
  if (s.gyl p l).rx.nak.isSome then s else s.sendNak p l seq

/-- Handle an errored block by its type (R267). -/
def State.erroredBlock (s : State) (p l kind seq : Nat) : State :=
  let s1 := (s.countErrored p l kind).touch (touchPage p)
  if kind = blkData ∨ kind = blkControl ∨ kind = 0 then s1.askReplay p l seq else s1

/-- A header fails: its own block, of an unknown type, and the one that waited for it are errored. The replay is asked for from the
earlier one (R267, R268). -/
def State.headerFails (s : State) (p l : Nat) (prev : Option RxBlock) (seq : Nat) : State :=
  match prev with
  | some x => (((s.countErrored p l x.kind).countErrored p l 0).touch (touchPage p)).askReplay p l seq
  | none => s.erroredBlock p l 0 ((seq + 1) % 256)

/-- REPLAY_LOST at either end (R268). -/
def State.replayLost (s : State) (p l : Nat) : State :=
  ((s.bumpSat p l F.laneGylCntReplayLost).raise p 25).fault fltInterconnect respNone 0 p l 0

/-- The number of the block that a SEQ names: the latest sent under it. -/
def GylTx.named (tx : GylTx) (seq : Nat) : Nat := tx.count - 1 - (tx.count - 1 + 256 - seq) % 256

/-- The held blocks that were sent at or after a number, each once and in their original order, with those that an earlier replay has
still to send (R268). -/
def GylTx.again (tx : GylTx) (from_ : Nat) : List HeldBlock :=
  (tx.held.filter fun e => decide (from_ ≤ e.sent ∨ e ∈ tx.replay)).reverse

/-- A received LINK_NAK: LINK_REPLAY, then every DATA and CONTROL block sent at or after the SEQ, in their order. -/
def State.linkNak (s : State) (p l seq : Nat) : State :=
  let g := s.gyl p l
  let n := g.tx.named seq
  let lost := match g.tx.dropped with | some d => decide (n ≤ d) | none => false
  let s1 := s.putGyl p l { g with tx := { g.tx with
    link := g.tx.link ++ [[0x02, 0, BitVec.ofNat 8 seq, if lost then 1 else 0]]
    replay := if lost then g.tx.replay else g.tx.again n } }
  if lost then s1.replayLost p l else s1

/-- A received LINK_REPLAY: blocks are accepted again. -/
def State.linkReplay (s : State) (p l : Nat) (lost : Bool) : State :=
  let g := s.gyl p l
  let s1 := s.putGyl p l { g with rx := { g.rx with nak := none } }
  if lost then (s1.dropPart p l blkData).replayLost p l else s1

/-! ### Eye scans (R271, R272) -/

/-- The points from a low limit to a high one in steps. -/
def gridPoints (lo hi : Int) (step : Nat) : Nat → List Int
  | 0 => []
  | n + 1 => if hi < lo then [] else lo :: gridPoints (lo + step) hi step n

/-- Nanoseconds that one point lasts: 1 µs and 2^DWELL bits at the lane's rate, a fraction of bits in a second. -/
def pointNs (rate : Nat × Nat) (dwell : Nat) : Nat := 1000 + 2 ^ dwell * rate.2 * 1000000000 / rate.1

/-- The nominal bits that an SDI link of a standard carries in a second (R104). -/
def sdiLinkRate : Nat → Nat
  | 1 => 270000000 | 2 => 1485000000 | 3 => 2970000000 | 4 => 2970000000 | 5 => 5940000000
  | _ => 11880000000

/-- The bits that a lane carries in a second, as a fraction (R260): at SD and at a whole RATE the nominal link rate, at a 1.001 RATE that
over 1.001. -/
def State.laneRate (s : State) (p : Nat) : Nat × Nat :=
  match pageType p with
  | 0x040 =>
    let link := s.get p 0 F.sdirxFmtLink
    if link = 1 ∨ rateDen (s.get p 0 F.sdirxFmtRate) = 1 then (sdiLinkRate link, 1) else (sdiLinkRate link * 1000, 1001)
  | 0x042 => (25781250000, 1)
  | _ => (32000000000, 1)

/-- The duration class of a time. -/
def durClass (ns : Nat) : Nat :=
  if ns ≤ 1000000 then 1 else if ns ≤ 10000000 then 2 else if ns ≤ 100000000 then 3 else if ns ≤ 1000000000 then 4
  else if ns ≤ 10000000000 then 5 else if ns ≤ 100000000000 then 6 else 7

/-- A page that has scanned nothing. -/
def EyeScan.cold (l : Nat) : EyeScan := ⟨l, none, 0, [], [], []⟩

/-- The latest scan of a page. -/
def State.eye (s : State) (p l : Nat) : EyeScan := Tab.at (EyeScan.cold l) s.eyes p

/-- Points of a scan that are completed now (EYE_STATUS.POINTS). -/
def State.eyePoints (s : State) (p l : Nat) : Nat :=
  let e := s.eye p l
  match e.grantNs with
  | some t => min (e.phases.length * e.volts.length) ((s.now - t) / e.pointNs)
  | none => 0

/-- A scan ends with a CODE. -/
def State.eyeEnd (s : State) (p l code : Nat) (counts : List Nat) : State :=
  let e := s.eye p l
  let n := if code = 0 then counts.length else s.eyePoints p l
  let s1 := { s with eyes := Tab.put p { e with grantNs := none, counts := if code = 0 then counts else [] } s.eyes }
  let s2 := ((s1.put p l F.laneEyeStatusBusy 0).put p l F.laneEyeStatusCode code).put p l F.laneEyeStatusPoints n
  (((s2.releasePower p (.eye l)).withdrawPower p (.eye l)).raise p 25)

/-- EYE_CTRL.START on the selected lane: refused, or the request is posted and BUSY reads 1; a request that
the PAU does not take ends the scan as DEFERRED, a lane that is not UP as LANE_DOWN. -/
def State.eyeStart (s : State) (p l : Nat) : State :=
  let ph0 := signedOf 8 (s.get p l F.laneEyeRangePhLo)
  let ph1 := signedOf 8 (s.get p l F.laneEyeRangePhHi)
  let v0 := signedOf 8 (s.get p l F.laneEyeRangeVLo)
  let v1 := signedOf 8 (s.get p l F.laneEyeRangeVHi)
  let dw := s.get p l F.laneEyeStepDwell
  let busy := (List.range 4).any fun n => s.flag p n F.laneEyeStatusBusy
  let bad := decide (pageType p = 0x041) || decide (ph1 < ph0) || decide (v1 < v0) ||
    decide (s.get p l F.laneEyeStepPhStep = 0) || decide (s.get p l F.laneEyeStepVStep = 0) ||
    decide (dw < 16 ∨ 40 < dw) || busy
  if bad then s.setErr p errBadValue
  else
    let phs := gridPoints ph0 ph1 (s.get p l F.laneEyeStepPhStep) 256
    let vs := gridPoints v0 v1 (s.get p l F.laneEyeStepVStep) 256
    let s1 := ((s.put p l F.laneEyeStatusBusy 1).put p l F.laneEyeStatusPoints 0)
    let point := pointNs (s.laneRate p) dw
    let s2 := { s1 with eyes := Tab.put p ⟨l, none, point, phs, vs, []⟩ s1.eyes }
    if s.laneState p l ≠ laneUp then s2.eyeEnd p l 2 []
    else
      let (s3, ok) := s2.postPowerOf p (.eye l) 150 (durClass (phs.length * vs.length * point)) false
      if ok then s3 else s3.eyeEnd p l 1 []

/-- The index of a point in a grid. -/
def gridIndex (l : List Int) (v : Int) : Option Nat := l.findIdx? fun x => decide (x = v)

/-- EYE_RES of the point that EYE_RES_INDEX names. -/
def State.eyeRes (s : State) (p l : Nat) : Nat :=
  let e := s.eye p l
  let ph := signedOf 8 (s.get p l F.laneEyeResIndexPh)
  let v := signedOf 8 (s.get p l F.laneEyeResIndexV)
  if e.lane = l ∧ s.get p l F.laneEyeStatusCode = 0 then
    match gridIndex e.phases ph, gridIndex e.volts v with
    | some i, some j =>
      match e.counts[i * e.volts.length + j]? with
      | some n => 2 ^ 31 + (if 2 ^ 30 ≤ n then 2 ^ 30 + (2 ^ 30 - 1) else n)
      | none => 0
    | _, _ => 0
  else 0

/-- A lane leaves UP, or ADAPT is written: a scan of it ends with LANE_DOWN (R272). -/
def State.eyeDown (s : State) (p l : Nat) : State := if s.flag p l F.laneEyeStatusBusy then s.eyeEnd p l 2 [] else s

/-- An engine reset of the owner aborts a scan and clears its results. -/
def State.eyeReset (s : State) (p : Nat) : State :=
  let s1 := (List.range 4).foldl (fun s l => if s.flag p l F.laneEyeStatusBusy then s.eyeEnd p l 3 [] else s) s
  { s1 with eyes := Tab.del p s1.eyes }

/-! ### The commands of the lane window that need no owner -/

/-- EYE_SCAN_START (R271): EYE_CTRL.START on the page's selected lane. -/
def execEyeScanStart (m : Fin 8) (page : Fin 4096) (s : State) : Host.Outcome State Fault Refusal :=
  .next (if laneCount page = 0 then s
    else s.write m page 0x228 1 fun s => s.eyeStart page (s.cellOf m page 0x228))

/-- EYE_SCAN_ABORT (R272): EYE_CTRL.ABORT. -/
def State.eyeAbort (s : State) (p l : Nat) : State := if s.flag p l F.laneEyeStatusBusy then s.eyeEnd p l 3 [] else s

/-- EYE_SCAN_ABORT (R272). -/
def execEyeScanAbort (m : Fin 8) (page : Fin 4096) (s : State) : Host.Outcome State Fault Refusal :=
  .next (if laneCount page = 0 then s
    else s.write m page 0x228 2 fun s => s.eyeAbort page (s.cellOf m page 0x228))

/-- EYE_SCAN_DONE (R272): the running scan of a lane ends. OK needs a count for every point of the grid, the grant and its time. -/
def execEyeScanDone (page : Fin 4096) (lane : Fin 4) (r : EyeResult) (s : State) : Host.Outcome State Fault Refusal :=
  let e := s.eye page lane
  .next (if s.flag page lane F.laneEyeStatusBusy then
    match r with
    | .ok counts =>
      if s.holds page (.eye lane) &&
          decide (counts.length = e.phases.length * e.volts.length ∧ s.eyePoints page lane = counts.length) then
        s.eyeEnd page lane 0 counts
      else s
    | .deferred => if s.holds page (.eye lane) || s.asks page (.eye lane) then s else s.eyeEnd page lane 1 []
    | .laneDown => if s.laneState page lane = laneUp then s else s.eyeEnd page lane 2 []
  else s)

/-- LINK_NAK (R268): a received LINK_NAK. -/
def execLinkNak (page : Fin 4096) (lane : Fin 4) (seq : Nat) (s : State) : Host.Outcome State Fault Refusal :=
  .next (if isGylos page then s.linkNak page lane (seq % 256) else s)

/-- LINK_REPLAY (R268): a received LINK_REPLAY. -/
def execLinkReplay (page : Fin 4096) (lane : Fin 4) (lost : Bool) (s : State) : Host.Outcome State Fault Refusal :=
  .next (if isGylos page then s.linkReplay page lane lost else s)

end Sys2Proof.Machine
end

