-- ==== Sys2Proof/Machine/Rasters.lean ====
section
/-! DEFINITION. Output rasters: modes, commits, frame lengths, frame numbers, underrun, freeze detection, flip records
(R210 to R230). -/

namespace Sys2Proof.Machine

/-! ### Events and status -/

/-- Set a bit of RST_EVENT; one that RST_EVENT_EN enables sets INT_STAT.ENG.RASTER. -/
def State.rasterEvent (s : State) (p c : Nat) (f : Field) : State :=
  let s1 := s.put p c f 1
  if bit (s.get p c F.rstEventEnEn) f.lo then s1.raise p 24 else s1

/-- Write OUT_LOCKED; a change is an event (R223). -/
def State.putOutLocked (s : State) (p c : Nat) (v : Bool) : State :=
  if s.flag p c F.rstStatusOutLocked = v then s
  else (s.put p c F.rstStatusOutLocked (ofBool v)).rasterEvent p c F.rstEventOutLockedChange

/-- Write TRACK_OK; a change is an event (R219). -/
def State.putTrackOk (s : State) (p c : Nat) (v : Bool) : State :=
  if s.flag p c F.rstStatusTrackOk = v then s
  else (s.put p c F.rstStatusTrackOk (ofBool v)).rasterEvent p c F.rstEventTrackChange

/-- The commit unit that governs a raster (R210). -/
def rasterUnit (p c : Nat) : Nat := if pageType p = 0x042 then c + 1 else 0

/-- MODE codes (R212). -/
abbrev modeLocked : Nat := 0
abbrev modeElastic : Nat := 1
abbrev modeContent : Nat := 2
abbrev modeFree : Nat := 3

/-! ### The source a raster tracks (R219) -/

/-- The lowest-numbered enabled video send slot of an IP raster. -/
def State.ipTrackSlot (s : State) (p c : Nat) : Option Nat :=
  (List.range 64).find? fun n =>
    let k := strmCell 1 n
    s.flag p k F.ippStrmCfgEn && decide (s.get p k F.ippStrmCfgRaster = c ∧ s.get p k F.ippStrmCfgEssence = 0)

/-- The egress video flow that a raster tracks for: the transmitter's, or the lowest send slot's. -/
def State.trackFlow (s : State) (p c : Nat) : Option Nat :=
  match pageType p with
  | 0x041 => s.flowOn kindSdi (p - pgSditx 0) 0 true
  | 0x042 => match s.ipTrackSlot p c with
    | some n => s.flowOn kindIp (p - pgIpp 0) n true
    | none => none
  | _ => none

/-- The ingress flow of a V layer of a compositor. -/
def State.layerSource (s : State) (p cell : Nat) : Option Nat :=
  let f := s.get p cell F.cpoLSrcFlow
  if s.flag p cell F.cpoLCtrlEn && s.isIngress f then some f else none

/-- The source a raster tracks, or the freeze detector's reference (R219, R228). -/
def State.trackSource (s : State) (p c layer : Nat) : Option Nat :=
  if pageType p = 0x061 then s.layerSource p layer
  else (s.trackFlow p c).bind s.sourceOf

/-- The target frame start that an elastic raster follows: none with no source of the raster's STRUCT and RATE (R219). -/
def State.elasticTarget (s : State) (p c : Nat) : Option Nat :=
  let r := s.raster p c
  match s.trackSource p c (s.get p c F.rstSlewTrackLayer) with
  | some f =>
    if s.get pgFlow f F.flowwinCtx1Struct = r.struct ∧ s.get pgFlow f F.flowwinCtx1Rate = r.rate then
      some (if pageType p = 0x061 then s.lineOneNs f + nsOf r.struct r.rate (9 * fmtSamples r.struct r.rate)
        else s.lineOneNs f)
    else none
  | none => none

/-- The target frame start of a LOCKED raster: RST_OFFSET after a frame boundary of its timebase (R217). -/
def State.lockedTarget (s : State) (p c : Nat) : Nat :=
  let r := s.raster p c
  (s.tb r.tb).startNs + nsOf r.struct r.rate r.offset

/-- The target that is known at the decision point: a pending jump sets the boundary (R218). -/
def State.comingTarget (s : State) (p c : Nat) : Nat :=
  let r := s.raster p c
  match (s.tb r.tb).jumpEnd with
  | some n => n + nsOf r.struct r.rate r.offset
  | none => s.lockedTarget p c

/-- Samples that a nanosecond, the grain of the model's time, cannot tell apart: none of formats up to 297 MHz (log entry 4). -/
def Raster.grain (r : Raster) : Nat := samplesNear r.struct r.rate 1

/-- How far a target lies after an instant, in samples, reduced to one frame: 0 ≤ e < S (R218, R220). -/
def Raster.distance (r : Raster) (target from_ : Nat) : Nat :=
  let f := fmtFrameSamples r.struct r.rate
  let d := (samplesBetween r.struct r.rate target from_ % (f : Int)).toNat
  if d ≤ r.grain ∨ f < d + r.grain + 1 ∧ r.grain ≠ 0 then 0 else d

/-- Is a difference of phase none? -/
def Raster.same (r : Raster) (d : Int) : Bool := decide (d.natAbs ≤ r.grain)

/-! ### Frame lengths (R213, R218, R220) -/

/-- Lines of bottom blanking of a format. -/
def bottomLines (struct : Nat) : Nat := fmtLines struct - fmtLastActive struct

/-- Nominal vertical blanking lines. -/
def vbNominal (struct : Nat) : Nat := fmtLines struct - fmtHeight struct

/-- Set the length of the frame in progress to d samples more than nominal: whole lines, and a remainder in the last. -/
def Raster.setLength (r : Raster) (d : Int) : Raster :=
  let l := fmtSamples r.struct r.rate
  { r with lines := ((fmtLines r.struct : Int) + d / (l : Int)).toNat, lastLine := ((l : Int) + d % (l : Int)).toNat }

/-- The adjustment of R218 for a target e samples after the nominal end. -/
def adjustBy (struct rate e : Nat) : Int :=
  let f := fmtFrameSamples struct rate
  if e = 0 then 0
  else if !fmtInterlaced struct && decide (f - e ≤ bottomLines struct * fmtSamples struct rate) then -((f - e : Nat) : Int)
  else (e : Int)

/-- Division rounded up. -/
def ceilDiv (a b : Nat) : Nat := (a + b - 1) / b

/-- The length change of R220 for a target e samples after the nominal end. -/
def slewBy (struct rate slewMax vbMin vbMax e : Nat) : Int :=
  let f := fmtFrameSamples struct rate
  let l := fmtSamples struct rate
  let up := min slewMax (vbMax - vbNominal struct)
  let down := min slewMax (vbNominal struct - vbMin)
  if e = 0 ∨ (up = 0 ∧ down = 0) then 0
  else
    let shorter := decide (down ≠ 0) && (decide (up = 0) || decide (ceilDiv (f - e) (down * l) < ceilDiv e (up * l)))
    if shorter then -((min (f - e) (down * l) : Nat) : Int) else ((min e (up * l) : Nat) : Int)

/-- The slew of a raster under its own limits. -/
def State.rasterSlew (s : State) (p c e : Nat) : Int :=
  let r := s.raster p c
  slewBy r.struct r.rate (s.get p c F.rstSlewSlewMax) (s.get p c F.rstVbVbMin) (s.get p c F.rstVbVbMax) e

/-- The nominal end of the frame in progress. -/
def Raster.nominalEnd (r : Raster) : Nat := r.startNs + nsOf r.struct r.rate (fmtFrameSamples r.struct r.rate)

/-- A slewed frame: its length, SLEWING while it is not nominal. -/
def State.slewFrame (s : State) (p c : Nat) (target : Nat) : State :=
  let r := s.raster p c
  let d := s.rasterSlew p c (r.distance target r.nominalEnd)
  (s.putRaster p c (r.setLength d)).put p c F.rstStatusSlewing (ofBool (decide (d ≠ 0)))

/-- Does a LOCKED raster go on sample for sample behind its timebase: the frame in progress began on target, and neither a jump of the
timebase nor a commit has moved the target since (R217, R218)? -/
def State.rasterFollows (s : State) (p c : Nat) : Bool :=
  let r := s.raster p c
  let t := s.tb r.tb
  s.flag p c F.rstStatusOutLocked && decide (r.align = .steady) && t.jumpEnd.isNone && !t.jumped

/-- Samples that a raster of the domain of its timebase counts since an instant: a LOCKED one on its target goes with the timebase,
RST_OFFSET behind, through slews and held rates, another of its domain at its rate (R212, R217). -/
def State.rasterCount (s : State) (p c : Nat) : Nat :=
  let r := s.raster p c
  let t := s.tb r.tb
  let n := samplesIn r.struct r.rate (s.now - r.startNs)
  if r.mode = modeFree then n
  else if s.rasterFollows p c then
    let own := t.count s.now * (fmtClock r.struct r.rate * rateDen t.rate : Nat) /
      ((fmtClock t.struct t.rate * rateDen r.rate : Nat) : Int)
    ((n : Int) + wrapPhase (fmtFrameSamples r.struct r.rate) (own - r.offset - n)).toNat
  else ((n : Int) + n * t.ppt / pptScale).toNat

/-- How far the target lies behind the nominal end of a LOCKED raster's frame (R218): none of one that follows, exactly the committed
change of RST_OFFSET of one that followed before it, else as measured. -/
def State.lockedAway (s : State) (p c : Nat) : Nat :=
  let r := s.raster p c
  let t := s.tb r.tb
  let measured := r.distance (s.comingTarget p c) r.nominalEnd
  match r.align with
  | .shift d => if t.jumpEnd.isNone && !t.jumped then d else measured
  | _ => if s.rasterFollows p c then 0 else measured

/-- The decision at the start of the last active line (R218, R220, R221, R223). -/
def State.ownLength (s : State) (p c : Nat) : State :=
  let r := s.raster p c
  if r.mode = modeLocked then
    match r.align with
    | .slew => s.slewFrame p c (s.comingTarget p c)
    | _ =>
      let d := adjustBy r.struct r.rate (s.lockedAway p c)
      if d = 0 then (s.putRaster p c { r.setLength 0 with align := .steady }).put p c F.rstStatusSlewing 0
      else
        let s1 := ((s.putRaster p c { r.setLength d with align := .steady }).put p c F.rstStatusAdjusting 1).bump p c F.rstCntAdjust
        (s1.rasterEvent p c F.rstEventAdjust).putOutLocked p c false
  else if r.mode = modeElastic then
    match s.elasticTarget p c with
    | some t => s.slewFrame p c t
    | none => (s.putRaster p c (r.setLength 0)).put p c F.rstStatusSlewing 0
  else
    (s.putRaster p c (if r.mode = modeContent then
        { r with lines := fmtHeight r.struct + s.get p c F.rstVbVbMax, lastLine := fmtSamples r.struct r.rate }
      else r.setLength 0)).put p c F.rstStatusSlewing 0

/-- The frame's length is decided: in a pair the shadow's elastic frames have the lead's length (R305). -/
def State.decideLength (s : State) (p c : Nat) : State :=
  let s1 := s.ownLength p c
  let r := s1.raster p c
  if r.mode = modeElastic then
    match s1.decided p (0x100 + c) with
    | some [n, k] => s1.putRaster p c { r with lines := n, lastLine := k }
    | _ => s1.share p (0x100 + c) [r.lines, r.lastLine]
  else s1

/-! ### Commits (R214, R216, R223, R224) -/

/-- Greatest VB_MAX and least VB_MIN of a structure (R213). -/
def vbGreatest (struct : Nat) : Nat := vbNominal struct + fmtLines struct
def vbLeast (struct : Nat) : Nat := vbNominal struct - bottomLines struct

/-- Is a raster commit refused (R216)? -/
def State.rasterRefused (s : State) (p c : Nat) : Bool :=
  let mode := s.getShadow p c F.rstCtrlMode
  let st := s.getShadow p c F.rstFormatStruct
  let lo := s.getShadow p c F.rstVbVbMin
  let hi := s.getShadow p c F.rstVbVbMax
  let bends := decide (mode = modeElastic ∨ mode = modeContent)
  (bends && fmtInterlaced st) || (decide (mode = modeContent) && decide (pageType p ≠ 0x061)) ||
    (bends && decide (lo < vbLeast st ∨ vbGreatest st < lo ∨ hi < vbLeast st ∨ vbGreatest st < hi ∨
      vbNominal st < lo ∨ hi < vbNominal st)) ||
    (decide (mode = modeFree) && decide (pageType p = 0x041) && !s.flag p 0 F.sditxClkSrcKind)

/-- The clock of a FREE raster: its page's synthesizer output, within 200 ppm of the rate's domain (R222). -/
def State.freeClockOk (s : State) (p c : Nat) : Bool :=
  let want := domainHz (s.raster p c).rate
  if pageType p = 0x041 then s.synOutNear (s.get p 0 F.sditxClkSrcSyn) (s.get p 0 F.sditxClkSrcOut) want
  else s.synOutNear (s.get p c F.rstCtrlFreeSyn) (s.get p c F.rstCtrlFreeOut) want

/-- A new format starts now: its first frame is black (R224). -/
def State.formatStart (s : State) (p c : Nat) : State :=
  let r := s.raster p c
  (s.putRaster p c { r with
    waiting := false, gap := true, black := true, startNs := s.now, line := 0, lines := fmtLines r.struct
    lastLine := fmtSamples r.struct r.rate }).rasterEvent p c F.rstEventFormatStart

/-- How a LOCKED raster comes to a new RST_OFFSET: by one adjusted frame, from a raster on target by exactly the change (R218, R223). -/
def State.shiftAlign (s : State) (p c off : Nat) : AlignMode :=
  let r := s.raster p c
  let f := fmtFrameSamples r.struct r.rate
  let d := (off + f - r.offset % max 1 f) % max 1 f
  match r.align with
  | .shift n => .shift ((n + d) % max 1 f)
  | .steady => if s.flag p c F.rstStatusOutLocked then .shift d else .adjust
  | a => a

/-! ### Frames (R215, R217, R219, R230) -/

/-- How far behind its LOCKED target an instant lies, in samples (R217). -/
def State.lockedPhase (s : State) (p c at_ : Nat) : Int :=
  let r := s.raster p c
  wrapPhase (fmtFrameSamples r.struct r.rate) (samplesBetween r.struct r.rate at_ (s.lockedTarget p c))

/-- The number of the timebase frame whose boundary a raster frame that begins at an instant follows by RST_OFFSET (R215): the frame in
progress, or the next where its boundary is nearer. -/
def State.lockedNumber (s : State) (p c at_ : Nat) : Nat :=
  let r := s.raster p c
  let t := s.tb r.tb
  let next := t.jumpEnd.getD (t.startNs + nsOf t.struct t.rate (fmtFrameSamples t.struct t.rate))
  let point : Int := (at_ : Int) - nsOf r.struct r.rate r.offset
  if (point - next).natAbs < (point - t.startNs).natAbs then (s.nextFrame r.tb).1 else t.frame

/-- The number of a raster frame that begins at an instant (R215); a raster that slews to LOCKED counts on until it is there (R223). -/
def State.rasterNumber (s : State) (p c at_ : Nat) (first : Bool) : Nat :=
  let r := s.raster p c
  if r.mode = modeLocked then
    if first || decide (r.align ≠ .slew) || r.same (s.lockedPhase p c at_) then s.lockedNumber p c at_
    else (r.frame + 1) % frameModulus
  else if first && !r.gap then (s.tb r.tb).frame else (r.frame + 1) % frameModulus

/-- The instant at which the frame in progress ends, by its length. -/
def Raster.endNs (r : Raster) : Nat := r.startNs + nsOf r.struct r.rate ((r.lines - 1) * fmtSamples r.struct r.rate + r.lastLine)

/-- The number of the next raster frame, as its capture instant sees it. -/
def State.rasterNext (s : State) (p c : Nat) : Nat := s.rasterNumber p c (s.raster p c).endNs false

/-- RST_PHASE and OUT_LOCKED of the frame that begins now (R217). -/
def State.rasterPhase (s : State) (p c : Nat) : State :=
  let r := s.raster p c
  if r.mode = modeLocked then
    let d := s.lockedPhase p c r.startNs
    let on := r.same d
    let s1 := (s.put p c F.rstPhaseSamples (saturate 32 (if on then 0 else d))).putOutLocked p c on
    let s2 := if on then s1.put p c F.rstStatusSlewing 0 else s1
    if on && decide (r.align = .slew) then s2.putRaster p c { r with align := .steady } else s2
  else s

/-- TRACK_OK and, elastic, RST_PHASE of the frame in progress against the source that the raster tracks now: within BYPASS_WIN of the
egress flow, 8 samples on a compositor (R219). -/
def State.rasterTrack (s : State) (p c : Nat) : State :=
  let r := s.raster p c
  let win : Int := match s.trackFlow p c with
    | some f => s.get pgFlow f F.flowwinCtx3BypassWin
    | none => 8
  match (if r.mode = modeElastic then s.elasticTarget p c else none) with
  | some t =>
    let d := wrapPhase (fmtFrameSamples r.struct r.rate) (samplesBetween r.struct r.rate r.startNs t)
    let on := r.same d
    (s.put p c F.rstPhaseSamples (saturate 32 (if on then 0 else d))).putTrackOk p c (decide (-win ≤ d ∧ d ≤ win))
  | none => s.putTrackOk p c false

/-- A raster frame begins: the length of the last one, its number, its phase. -/
def State.beginFrame (s : State) (p c : Nat) : State :=
  let r := s.raster p c
  let first := r.waiting
  let n := s.rasterNumber p c s.now first
  let s1 := if first then s
    else (s.put p c F.rstFlenLines r.lines).put p c F.rstFlenLastLine r.lastLine
  let s2 := if (!first && decide (r.frame + 1 < n)) || (first && r.gap && decide (r.frame < n)) then s1.rasterEvent p c F.rstEventFrameSkip else s1
  let r1 := { r with
    startNs := s.now, frame := n, line := 0, waiting := false, lines := fmtLines r.struct
    lastLine := fmtSamples r.struct r.rate, underran := [], sig := 0 }
  let s3 := (((s2.putRaster p c r1).put p c F.rstStatusAdjusting 0).putFrame48 p c F.rstFrameLo F.rstFrameHi n)
  let s4 := s3.rasterPhase p c
  (if r.mode = modeElastic then s4.put p c F.rstStatusSlewing 0 else s4).rasterTrack p c

/-- What a committed change of the raster's settings does at its commit point (R223, R224). -/
def State.rasterSettings (s : State) (p c : Nat) : State :=
  let r := s.raster p c
  let mode := s.get p c F.rstCtrlMode
  let st := s.get p c F.rstFormatStruct
  let rt := s.get p c F.rstFormatRate
  let tb := s.get p c F.rstCtrlTb
  let off := s.get p c F.rstOffsetSamples
  let changed := decide (st ≠ r.struct ∨ rt ≠ r.rate ∨ tb ≠ r.tb)
  let toLocked := decide (mode = modeLocked ∧ r.mode ≠ modeLocked)
  let align : AlignMode :=
    if changed then .steady
    else if toLocked then (if !fmtInterlaced st && !s.flag p c F.rstCtrlJumpEn then .slew else .adjust)
    else if mode = modeLocked ∧ off ≠ r.offset then s.shiftAlign p c off
    else r.align
  let r1 := { r with mode := mode, struct := st, rate := rt, tb := tb, offset := off, align := align }
  let s1 := (s.putRaster p c r1).put p c F.rstStatusMode mode
  let s2 := if mode = modeLocked && !toLocked && !changed && decide (off = r.offset) then s1 else s1.putOutLocked p c false
  if changed then
    let s3 := s2.put p c F.rstStatusFormatGap 1
    if mode = modeLocked then s3.putRaster p c { r1 with waiting := true, gap := true } else s3.formatStart p c
  else s2.rasterTrack p c

/-- A raster starts with its engine (R225): a LOCKED one waits for a frame boundary of its timebase and its offset, another
begins at once, with a black frame. -/
def State.rasterStart (s : State) (p c : Nat) : State :=
  let mode := s.get p c F.rstCtrlMode
  let tb := s.get p c F.rstCtrlTb
  let r : Raster := { Raster.idle with
    running := true, startNs := s.now, struct := s.get p c F.rstFormatStruct, rate := s.get p c F.rstFormatRate
    mode := mode, tb := tb, offset := s.get p c F.rstOffsetSamples, waiting := true, black := decide (mode ≠ modeLocked) }
  let s1 := (s.putRaster p c r).put p c F.rstStatusMode mode
  if mode = modeLocked then s1 else s1.beginFrame p c

/-- A raster stops with its engine. -/
def State.rasterStop (s : State) (p c : Nat) : State :=
  ((((s.putRaster p c Raster.idle).putOutLocked p c false).putTrackOk p c false).put p c F.rstStatusFormatGap 0).put p c
    F.rstStatusSlewing 0

/-- The capture instant of a raster: the start of the last line of a frame (R214). -/
def State.rasterCapture (s : State) (p c : Nat) : State := s.capture p (rasterUnit p c) (s.rasterNext p c)

/-! ### Flip records (R193, R230) -/

/-- The media clock of a timebase at an instant, in counts of 1 / hz from frame 0: PTP time, or N × Rd / Rn plus the position in the
frame; both run on the frame number (R61, R140). -/
def Timebase.mediaCount (t : Timebase) (ns hz : Nat) : Nat :=
  (t.frame * rateDen t.rate * 1000000000 + (ns - t.startNs) * rateNum t.rate) * hz / (rateNum t.rate * 1000000000)

/-- The instant of a count of the media clock. -/
def Timebase.mediaNs (t : Timebase) (n : Int) (hz : Nat) : Int :=
  (t.startNs : Int) + (n * rateNum t.rate - (t.frame * rateDen t.rate * hz : Nat)) * 1000000000 / ((hz * rateNum t.rate : Nat) : Int)

/-- The TAI time of an instant under a timebase, in nanoseconds: none unless it follows PTP and has reached LOCKED since its
last ACQUIRE (R193). -/
def State.taiNs (s : State) (k ns : Nat) : Option Nat :=
  let t := s.tb k
  if s.tbSource k = srcPtp ∧ t.lockedSinceAcquire = true then
    some (t.frame * rateDen t.rate * 1000000000 / rateNum t.rate + (ns - t.startNs))
  else none

/-- The instant at which the first active line of the frame in progress begins. -/
def Raster.activeNs (r : Raster) : Nat :=
  r.startNs + nsOf r.struct r.rate (((fmtFirstActive r.struct).headD 1 - 1) * fmtSamples r.struct r.rate)

/-- Write a time stamp to its fields: seconds, nanoseconds, TS_VALID. -/
def State.putStamp (s : State) (p c : Nat) (t : Option Nat) (lo hi valid ns : Field) : State :=
  let v := t.getD 0
  let sec := v / 1000000000
  (((s.put p c lo (sec % 2 ^ 32)).put p c hi (sec / 2 ^ 32)).put p c valid (ofBool t.isSome)).put p c ns (v % 1000000000)

/-- The flip record of a raster names the frame that begins now (R230). -/
def State.rasterFlip (s : State) (p c : Nat) : State :=
  let r := s.raster p c
  (s.putFrame48 p c F.rstFlipFrameLoFrame F.rstFlipFrameHiFrame r.frame).putStamp p c (s.taiNs r.tb r.activeNs)
    F.rstFlipSLoSec F.rstFlipSHiSec F.rstFlipSHiTsValid F.rstFlipNsNs

/-! ### Underrun (R226) -/

/-- A layer or an egress had no data for a line: counted once for each in a frame. -/
def State.underrun (s : State) (p c who : Nat) : State :=
  let r := s.raster p c
  if who ∈ r.underran then s
  else
    ((s.putRaster p c { r with underran := who :: r.underran }).bump p c F.rstCntUnderrun).rasterEvent p c
      F.rstEventUnderrun

/-! ### Freeze detection (R227 to R229) -/

/-- The raster index of a fault record: the raster on IPP, else the engine. -/
def rasterIndex (p c : Nat) : Nat := if pageType p = 0x042 then c else fltWhole

/-- Is the output of a raster held on purpose (R228)? For a compositor the reference layer decides. -/
def State.outputHeld (s : State) (p c : Nat) : Bool :=
  let r := s.raster p c
  r.black ||
  (if pageType p = 0x061 then s.flag p (s.get p c F.rstFreezeFrzLayer) F.cpoLStatusNotReady
   else match s.trackFlow p c with
    | some f =>
      (s.sourceOf f).isNone || s.flag pgFlow f F.flowwinCtx7TimingErr || s.flag pgFlow f F.flowwinCtx7FsMissing ||
        s.flag pgFlow f F.flowwinCtx7SrcLost ||
        decide (s.get pgFlow f F.flowwinCtx1Struct ≠ r.struct ∨ s.get pgFlow f F.flowwinCtx1Rate ≠ r.rate) ||
        (decide (pageType p = 0x041) && bit (s.get p 0 F.hdrStatusEng) 4) ||
        (match s.sourceOf f with
          | some src => !s.sameSamples f src || !s.sameRaster f src
          | none => true)
    | none => true)

/-- The end of a raster frame: its signature, the freeze counter, the end of a format gap (R224, R227 to R229). -/
def State.rasterFrameEnd (s : State) (p c : Nat) : State :=
  let r := s.raster p c
  let alive := match s.trackSource p c (s.get p c F.rstFreezeFrzLayer) with
    | some f => (s.run f).alive
    | none => r.prevAlive
  let changed := decide (alive.1 ≠ r.prevAlive.1 ∧ alive.2 ≠ r.prevAlive.2)
  let on := s.flag p c F.rstStatusFreeze
  let differs := decide (r.sig ≠ r.prevSig)
  let n := if s.outputHeld p c || !s.flag p c F.rstFreezeFrzEn then 0 else if differs then 0 else if changed then r.frozen + 1 else r.frozen
  let s1 := (s.put p c F.rstSigCrc r.sig).putRaster p c
    { r with prevSig := r.sig, prevAlive := alive, frozen := n, black := false, gap := false }
  let s2 := if r.gap then s1.put p c F.rstStatusFormatGap 0 else s1
  if !s.flag p c F.rstFreezeFrzEn then s2
  else if !s.outputHeld p c && differs && on then
    (s2.put p c F.rstStatusFreeze 0).rasterEvent p c F.rstEventUnfreeze
  else if s.get p c F.rstFreezeFreezeN ≤ n ∧ on = false then
    ((s2.put p c F.rstStatusFreeze 1).rasterEvent p c F.rstEventFreeze).fault fltFreeze respNone 0 p (rasterIndex p c) 0
  else s2

/-! ### What an egress flow carries on a line (R92, R93, R112 to R115, R123, R138) -/

/-- The line of a frame-store buffer that a reader shows: an errored line is taken from the buffer before (R115). -/
def storeLine (st : FrameStore) (now seq line : Nat) : Option Bytes :=
  match st.buffers.find? fun b => decide (b.seq = seq) with
  | some b =>
    match b.lines.find? fun l => decide (l.1 = line) with
    | some (_, false, x) => some x
    | some (_, true, _) =>
      match st.buffers.find? fun b' => b'.ready now && decide (b'.seq < seq) with
      | some b' => (b'.lines.find? fun l => decide (l.1 = line)).map fun l => l.2.2
      | none => none
    | none => none
  | none => none

/-- The bytes of a flow's line that are resident in the Vat, fragments in order. -/
def State.vatLine (s : State) (f line : Nat) : Option Bytes :=
  let fs := s.frags.filter fun e => decide (e.1.page = f ∧ e.1.cell = line ∧ e.2.atNs ≤ s.now ∧ s.now ≤ e.2.atNs + s.residenceNs)
  if fs.isEmpty then none else some (fs.flatMap fun e => e.2.bytes)

/-- What a line of an egress video flow carries: its fill where it has no source, the formats differ, timing is in error or
the source is lost on a bypass route. -/
def State.egressLine (s : State) (f line : Nat) : LineContent × Bytes :=
  match s.sourceOf f with
  | none => (.fill, [])
  | some src =>
    if (s.run f).mismatch || !s.sameSamples f src then (.fill, [])
    else match (s.run f).path with
      | .none => (.fill, [])
      | .bypass =>
        if (s.run f).lost then (.fill, [])
        else match s.vatLine src line with
          | some b => (.data, b)
          | none => (.fill, [])
      | .frameStore =>
        if !s.sameRaster f src then (.fill, [])
        else if (s.run f).lost && decide (s.get pgFlow f F.flowwinCtx3LossPolicy = 1) then (.black, [])
        else if (s.run f).lost && decide (s.get pgFlow f F.flowwinCtx3LossPolicy = 2) then (.fill, [])
        else match (s.run src).store, (s.run f).shown with
          | some st, some seq =>
            match storeLine st s.now seq line with
            | some b => (.data, b)
            | none => (.fill, [])
          | _, _ => (.fill, [])

/-! ### Output seals (R306, R308) -/

/-- What an output flow's picture comes through, within so many steps: flows, and pages and clock domains as `touchPage` and
`touchClock` number them. -/
def State.pathOf (s : State) (f : Nat) : Nat → List Nat
  | 0 => [f]
  | n + 1 =>
    let (kind, port, stream) := s.flowPort f
    let page := if kind = kindSdi then (if s.isEgress f then pgSditx port else pgSdirx port)
      else if kind = kindIp then pgIpp port else if kind = kindFabric then pgFab port
      else if kind = kindCnv then pgCnv port else pgCpo port
    let before := if s.isEgress f then (s.sourceOf f).toList
      else if kind = kindCnv then [s.get (pgCnv port) stream F.cnvSrcFlow]
      else if kind = kindCpo then ((List.range 4).filter fun c => s.flag (pgCpo port) c F.cpoLCtrlEn).map fun c => s.get (pgCpo port) c F.cpoLSrcFlow
      else []
    let clock := if kind = kindCnv ∨ kind = kindCpo then [touchClock 352] else []
    f :: touchPage page :: clock ++ before.flatMap fun g => s.pathOf g n

/-- Was an instant of a table in the line of an output that ends now, or in the one before? -/
def State.inLastLines (s : State) (f : Nat) (t : Option Nat) : Bool :=
  match t with
  | some t => decide (s.now ≤ t + s.linesNs f 2)
  | none => false

/-- LOCAL: a local check touched the output in the line that ends now or in the one before (R308): its path, its timebase's clock, or
the core's (log entry 233). -/
def State.sealLocal (s : State) (f : Nat) : Bool :=
  (touchClock 351 :: touchClock (357 + s.get pgFlow f F.flowwinCtx0Tb) :: s.pathOf f 8).any fun c =>
    s.inLastLines f (Assoc.find id c s.touched)

/-- The page of an output's engine. -/
def State.outputPage (s : State) (f : Nat) : Nat :=
  let (kind, port, _) := s.flowPort f
  if kind = kindSdi then pgSditx port else if kind = kindIp then pgIpp port else pgFab port

/-- Is a frame the first that an output gives since its engine was reset (R310)? -/
def State.firstSealed (s : State) (f frame : Nat) : Bool :=
  match Assoc.find id (waiveKey waiveReset (touchPage (s.outputPage f))) s.waives, Assoc.find id f s.sealFirst with
  | none, _ => false
  | some _, none => true
  | some t, some (n, ns) => decide (ns < t ∨ n = frame)

/-- Does this twin excuse a line of an output from the comparison (R310): a LIVE write to its engine or to a flow of its path in the
last lines, the first frame of a format or after a reset, a commit on its path that applied at once in this frame (log entry 234)? -/
def State.sealWaived (s : State) (f frame : Nat) : Bool :=
  let path := s.pathOf f 8
  let black := match s.rasterOfFlow f with
    | some (p, c) => (s.raster p c).black
    | none => false
  (touchPage (s.outputPage f) :: path.filter fun c => decide (c < 4096)).any (fun c =>
      s.inLastLines f (Assoc.find id (waiveKey waiveLive c) s.waives)) ||
    black || s.firstSealed f frame ||
    path.any fun c => match Assoc.find id (waiveKey waiveCommit c) s.waives with
      | some t => decide (s.egressFrameStart f ≤ t)
      | none => false

/-- Bytes join the seal of an output line; one that is done goes to the partner. A device that has no partner to compare with seals
nothing. -/
def State.sealMore (s : State) (f line frame part : Nat) (b : Bytes) (done : Bool) : State :=
  if s.pairing < pairCompare then s
  else
    let mine := fun (x : OutSeal) => decide (x.flow = f ∧ x.line = line ∧ x.frame = frame ∧ x.part = part)
    let old := s.seals.find? mine
    let x : OutSeal :=
      { flow := f, line := line, frame := frame, part := part, value := crcMore ((old.map OutSeal.value).getD 0) b
        isLocal := s.sealLocal f, waived := (old.map OutSeal.waived).getD false || s.sealWaived f frame }
    let s1 := { s with
      seals := x :: s.seals.filter fun y => !mine y && decide (y.flow ≠ f ∨ frame ≤ y.frame + 1)
      sealFirst := if s.firstSealed f frame then Tab.put f (frame, s.now) s.sealFirst else s.sealFirst }
    if done then s1.express (.lineSeal f line frame part x.value x.isLocal x.waived) else s1

/-- The seal of an output line, over all its bytes (R306). -/
def State.sealOutput (s : State) (f line frame part : Nat) (b : Bytes) : State := s.sealMore f line frame part b true

end Sys2Proof.Machine
end

