-- ==== Sys2Proof/Machine/Sdi.lean ====
section
/-! DEFINITION. SDI receivers and transmitters: formats, locking, lines, ancillary packets, quad-link groups, the
transmitter's line, re-rate gaps (R104 to R125, R245 to R248). -/

namespace Sys2Proof.Machine

/-! ### Formats on a link (R104) -/

/-- The formats of HD in the table of R104. -/
def hdFormat (st rt : Nat) : Bool :=
  (decide (st = 0) && decide (rt ≤ 4)) || (decide (st = 1) && decide (2 ≤ rt ∧ rt ≤ 4)) ||
    (decide (st = 2) && decide (5 ≤ rt ∧ rt ≤ 7))

/-- Does a link carry a format: LINK, STRUCT, RATE, SAMPLING, DEPTH? -/
def sdiCarries (link st rt sa de : Nat) : Bool :=
  let ten := decide (sa = 0 ∧ de = 0)
  let wide := decide (sa = 1 ∧ de ≤ 1) || decide (sa = 0 ∧ de = 1)
  let three := (ten && decide (st = 0 ∧ 5 ≤ rt ∧ rt ≤ 7)) || (wide && hdFormat st rt)
  match link with
  | 1 => ten && (decide (st = 3 ∧ rt = 2) || decide (st = 4 ∧ rt = 3))
  | 2 => ten && hdFormat st rt
  | 3 => three
  | 4 => three && decide (st ≠ 2)
  | 5 => ten && (decide (st = 5 ∧ rt ≤ 4) || decide (st = 0 ∧ 8 ≤ rt ∧ rt ≤ 10))
  | 6 => (ten && decide (st = 5 ∧ 5 ≤ rt ∧ rt ≤ 7)) || (wide && decide (st = 5 ∧ rt ≤ 4))
  | 7 => ten && decide (st = 6 ∧ rt ≤ 7)
  | _ => false

/-- Has R104 a row for a format on a link at any sampling and depth? -/
def sdiHasRow (link st rt : Nat) : Bool :=
  sdiCarries link st rt 0 0 || sdiCarries link st rt 0 1 || sdiCarries link st rt 1 0 || sdiCarries link st rt 1 1

/-- Bit rate of a link in units of 10 kbit/s, as a fraction: a 1.001 rate uses the 1.001 link rate. -/
def linkRate (link rt : Nat) : Nat × Nat :=
  let base := match link with
    | 1 => 27000 | 2 => 148500 | 3 => 297000 | 4 => 297000 | 5 => 594000
    | _ => 1188000
  if link ≠ 1 && rateFraction rt then (base * 1000, 1001) else (base, 1)

/-- The CTRL.RATE code that a link is found at. -/
def linkRateCode : Nat → Nat
  | 1 => 1 | 2 => 2 | 3 => 3 | 4 => 3 | 5 => 4
  | _ => 5

/-- Format fields carried by a detected format. -/
def SdiFmt.carried (f : SdiFmt) : Bool := sdiCarries f.link f.struct f.rate f.sampling f.depth

/-! ### Quad-link groups (R116 to R118) -/

/-- Receivers whose QUAD names a lead. -/
def State.rxNamed (s : State) (lead : Nat) : List Nat :=
  (List.range 96).filter fun n => s.flag (pgSdirx n) 0 F.sdirxQuadQen && decide (s.get (pgSdirx n) 0 F.sdirxQuadLead = lead)

/-- Transmitters whose QUAD names a lead. -/
def State.txNamed (s : State) (lead : Nat) : List Nat :=
  (List.range 96).filter fun n => s.flag (pgSditx n) 0 F.sditxQuadQen && decide (s.get (pgSditx n) 0 F.sditxQuadLead = lead)

/-- The lead of the group that a running receiver is bound to. -/
def State.rxLead (s : State) (n : Nat) : Option Nat := Assoc.find id n s.rxBound

/-- The lead of the group that a running transmitter is bound to. -/
def State.txLead (s : State) (n : Nat) : Option Nat := Assoc.find id n s.txBound

/-- Receivers bound to a lead. -/
def State.rxMembers (s : State) (lead : Nat) : List Nat := (List.range 96).filter fun n => decide (s.rxLead n = some lead)

/-- Transmitters bound to a lead. -/
def State.txMembers (s : State) (lead : Nat) : List Nat := (List.range 96).filter fun n => decide (s.txLead n = some lead)

/-- Are these the members of a group: four, the lead one of them (R116)? -/
def groupOk (members : List Nat) (lead : Nat) : Bool := decide (members.length = 4 ∧ lead ∈ members)

/-- A receiver that starts is bound to its group; GROUP_CFG on each page concerned where the pages named form none (R116). -/
def State.rxBind (s : State) (n : Nat) : State :=
  let lead := s.get (pgSdirx n) 0 F.sdirxQuadLead
  let ms := s.rxNamed lead
  if !s.flag (pgSdirx n) 0 F.sdirxQuadQen then s
  else if groupOk ms lead then { s with rxBound := Tab.put n lead s.rxBound }
  else ms.foldl (fun s k => s.setErr (pgSdirx k) 16) s

/-- The same for a transmitter. -/
def State.txBind (s : State) (n : Nat) : State :=
  let lead := s.get (pgSditx n) 0 F.sditxQuadLead
  let ms := s.txNamed lead
  if !s.flag (pgSditx n) 0 F.sditxQuadQen then s
  else if groupOk ms lead then { s with txBound := Tab.put n lead s.txBound }
  else ms.foldl (fun s k => s.setErr (pgSditx k) 17) s

/-- A write of a receiver's QUAD that gives a lead more than four members sets GROUP_CFG on each of them (R116). -/
def State.rxQuad (s : State) (n : Nat) : State :=
  let ms := s.rxNamed (s.get (pgSdirx n) 0 F.sdirxQuadLead)
  if s.flag (pgSdirx n) 0 F.sdirxQuadQen && decide (4 < ms.length) then ms.foldl (fun s k => s.setErr (pgSdirx k) 16) s else s

/-- The same for a transmitter. -/
def State.txQuad (s : State) (n : Nat) : State :=
  let ms := s.txNamed (s.get (pgSditx n) 0 F.sditxQuadLead)
  if s.flag (pgSditx n) 0 F.sditxQuadQen && decide (4 < ms.length) then ms.foldl (fun s k => s.setErr (pgSditx k) 17) s else s

/-! ### Lock (R108 to R111) -/

/-- LOCK codes. -/
abbrev lockNoSignal : Nat := 0
abbrev lockWaitPower : Nat := 1
abbrev lockAdapting : Nat := 2
abbrev lockAligning : Nat := 3
abbrev lockLocked : Nat := 4
abbrev lockUnsupported : Nat := 5
abbrev lockWaitGroup : Nat := 6

/-- A receiver that has seen nothing. -/
def SdiRxRun.cold : SdiRxRun :=
  { groups := 0, trying := 5, agree := 0, seen := none, locked := none, errored := 0, differ := 0, quadLink := none, suspect := false
    odd := none }

/-- What a receiver keeps. -/
def State.rx (s : State) (n : Nat) : SdiRxRun := Tab.at SdiRxRun.cold s.sdiRx n

/-- Write what a receiver keeps. -/
def State.putRx (s : State) (n : Nat) (x : SdiRxRun) : State := { s with sdiRx := Tab.put n x s.sdiRx }

/-- LOCK. -/
def State.lock (s : State) (n : Nat) : Nat := s.statBits (pgSdirx n) 16 3

/-- The lane state that a LOCK implies. -/
def laneOfLock (k : Nat) : Nat :=
  if k = lockNoSignal then laneDown else if k = lockWaitPower then laneWaitPower
  else if k = lockAdapting then laneAdapting else if k = lockAligning then laneAligning else laneUp

/-- Write LOCK and the lane's state; a change raises LOCK_CHANGE. A receiver that is not LOCKED applies a pending commit at
once. -/
def State.putLock (s : State) (n k : Nat) : State :=
  let p := pgSdirx n
  let was := s.lock n
  let s0 := if laneOfLock k = laneUp then s else s.eyeDown p 0
  let s1 := (s0.putStatBits p 16 3 k).putLane p 0 (laneOfLock k)
  let s2 := if was = k then s1 else s1.raise p 16
  if k ≠ lockLocked then (s2.stopCommit p 0).thaw p 0 else s2

/-- The receivers that carry a group's links besides one of them fall back to WAIT_GROUP, and the group's flows stop. -/
def State.endGroup (s : State) (n : Nat) : State :=
  if !s.stat (pgSdirx n) 20 then s
  else match s.rxLead n with
    | some lead =>
      let s1 := (s.rxMembers lead).foldl (fun s k =>
        let s' := s.putStat (pgSdirx k) 20 false
        if k ≠ n ∧ s'.lock k = lockLocked then s'.putLock k lockWaitGroup else s') s
      s1.stopPortFlows kindSdi lead
    | none => s.putStat (pgSdirx n) 20 false

/-- A receiver leaves the states in which it follows frames: its flows stop and its group ends. -/
def State.rxUnlock (s : State) (n k : Nat) : State :=
  let s1 := ((s.endGroup n).stopPortFlows kindSdi n).laneForget (pgSdirx n) 0
  ((s1.putRx n { s1.rx n with agree := 0, seen := none, errored := 0, differ := 0, groups := 0, suspect := false, odd := none }).putStat (pgSdirx n) 19
    false).putLock n k

/-- The receiver starts (R108). One restored after a warm reset with a LOCKED format asks for no power: it waits in ALIGNING for
a line of that format (R327). -/
def State.sdirxStart (s : State) (n : Nat) : State :=
  let p := pgSdirx n
  let s1 := (s.putRunning p true).rxBind n
  if s1.laneResumes p 0 then s1.putLock n lockAligning
  else (s1.putRx n SdiRxRun.cold).putLock n lockNoSignal

/-- The receiver stops with EN = 0. -/
def State.sdirxStop (s : State) (n : Nat) : State :=
  let p := pgSdirx n
  let s1 := (s.rxUnlock n lockNoSignal).eyeDown p 0
  let s2 := { s1 with rxBound := Tab.del n s1.rxBound }
  ((((s2.putRunning p false).dropPower p).put p 0 F.sdirxFmtValid 0).putLane p 0 laneOff).stopCommit p 0

/-- A write of SDIRX CTRL. -/
def State.writeSdirxCtrl (s : State) (n w : Nat) : State :=
  let p := pgSdirx n
  let run := s.running p
  let s1 := (s.writeBut p 0 run w 0x080 [F.sdirxCtrlEn]).put p 0 F.sdirxCtrlEn (bits w 0 1)
  if run && !bit w 0 then s1.sdirxStop n
  else if !run && bit w 0 && s1.acts p then s1.sdirxStart n
  else s1

/-- A signal at the ball: WAIT_POWER and the adaptation request. -/
def State.rxSignal (s : State) (n : Nat) : State :=
  let p := pgSdirx n
  if s.running p && decide (s.lock n = lockNoSignal) then
    ((((s.putRx n { s.rx n with trying := 5 }).putLock n lockWaitPower).laneSignal p 0).postPower p (.lane 0)).1
  else s

/-- SDI_SIGNAL_DETECT (R108). -/
def execSdiSignalDetect (n : Fin 96) (s : State) : Host.Outcome State Fault Refusal := .next (s.rxSignal n)

/-- Adaptation of a receiver's lane is done: ALIGNING at the first rate to try (R109). -/
def State.rxAdapted (s : State) (n : Nat) : State :=
  if s.lock n = lockAdapting then
    let r := s.get (pgSdirx n) 0 F.sdirxCtrlRate
    (s.putRx n { s.rx n with trying := if r = 0 then 5 else r, agree := 0, seen := none }).putLock n lockAligning
  else s

/-- LANE_CTRL.ADAPT on a running receiver that neither waits for power nor adapts: traffic stops, and the lane asks for power (R270). -/
def State.rxAdapt (s : State) (n : Nat) : State :=
  if s.running (pgSdirx n) && decide (s.lock n ≠ lockWaitPower ∧ s.lock n ≠ lockAdapting) then
    (((s.eyeDown (pgSdirx n) 0).rxUnlock n lockWaitPower).postPower (pgSdirx n) (.lane 0)).1
  else s

/-- SDI_RATE_TRY_TIMEOUT (R109): under AUTO the next rate of 12G, 6G, 3G, HD, SD, then 12G again. -/
def execSdiRateTryTimeout (n : Fin 96) (s : State) : Host.Outcome State Fault Refusal :=
  let x := s.rx n
  .next (if s.lock n = lockAligning ∧ s.get (pgSdirx n) 0 F.sdirxCtrlRate = 0 ∧ x.seen = none then
    s.putRx n { x with trying := if x.trying ≤ 1 then 5 else x.trying - 1 }
  else s)

/-- Loss of signal (R111). -/
def State.rxLoss (s : State) (n : Nat) : State :=
  let p := pgSdirx n
  if s.running p && decide (s.lock n ≠ lockNoSignal) then
    let s1 := (s.eyeDown p 0).rxUnlock n lockNoSignal
    let s2 := ((s1.releasePower p (.lane 0)).withdrawPower p (.lane 0)).put p 0 F.sdirxFmtValid 0
    (s2.bump p 0 F.laneCntLoss).fault fltLaneLoss respNone 0 p 0 0
  else s

/-- SDI_SIGNAL_LOSS (R111). -/
def execSdiSignalLoss (n : Fin 96) (s : State) : Host.Outcome State Fault Refusal := .next (s.rxLoss n)

/-! ### Frames (R108, R109, R110) -/

/-- A receiver enters LOCKED with a format: FMT_CHANGE where it is not the format of the last lock (R110). -/
def State.rxEnterLocked (s : State) (n : Nat) (f : SdiFmt) : State :=
  let s1 := (s.putRx n { s.rx n with locked := some f, errored := 0, differ := 0 }).putLock n lockLocked
  if (s.rx n).locked = some f then s1 else s1.raise (pgSdirx n) 17

/-- FMT and PID show a detected format. -/
def State.rxShow (s : State) (n : Nat) (f : SdiFmt) (pid : Option Nat) (ok : Bool) : State :=
  let p := pgSdirx n
  let s1 := ((((s.put p 0 F.sdirxFmtStruct f.struct).put p 0 F.sdirxFmtRate f.rate).put p 0 F.sdirxFmtSampling
    f.sampling).put p 0 F.sdirxFmtDepth f.depth).put p 0 F.sdirxFmtLink f.link
  (s1.put p 0 F.sdirxFmtPidPresent (ofBool (pid.isSome && decide (f.link ≠ 1)))).put p 0 F.sdirxFmtValid (ofBool ok)

/-- Two consecutive frames agree: the format is carried or not; a group member waits for its group. -/
def State.rxDecide (s : State) (n : Nat) (f : SdiFmt) (pid : Option Nat) : State :=
  let bound := (s.rxLead n).isSome
  let ok := f.carried && (bound || decide (f.link ≠ 7))
  let s1 := s.rxShow n f pid ok
  if !ok then s1.putLock n lockUnsupported
  else if bound then s1.putLock n lockWaitGroup
  else s1.rxEnterLocked n f

/-- A flow's TYPE matches its STREAM (R106). -/
def streamType (stream : Nat) : Option Nat :=
  if stream = 0 then some typeVideo else if 0x10 ≤ stream ∧ stream ≤ 0x13 then some typeAnc
  else if stream = 0x20 then some typeAudio else none

/-- The enabled flow of a stream of an SDI port whose TYPE matches. -/
def State.sdiFlow (s : State) (port stream : Nat) (egress : Bool) : Option Nat :=
  match s.flowOn kindSdi port stream egress with
  | some f => if streamType stream = some (s.flowType f) then some f else none
  | none => none

/-- Does the port's video flow differ from FMT (R107)? -/
def State.rxMismatch (s : State) (n : Nat) : Bool :=
  let p := pgSdirx n
  match s.sdiFlow n 0 false with
  | some f =>
    decide (s.get pgFlow f F.flowwinCtx1Struct ≠ s.get p 0 F.sdirxFmtStruct ∨
      s.get pgFlow f F.flowwinCtx1Rate ≠ s.get p 0 F.sdirxFmtRate ∨
      s.get pgFlow f F.flowwinCtx1Sampling ≠ s.get p 0 F.sdirxFmtSampling ∨
      s.get pgFlow f F.flowwinCtx1Depth ≠ s.get p 0 F.sdirxFmtDepth)
  | none => false

/-- The buffer of the frame that a writer has just completed, by its number in the store. -/
def State.justWritten (s : State) (f : Nat) : Option Nat :=
  let period := nsOf (s.get pgFlow f F.flowwinCtx1Struct) (s.get pgFlow f F.flowwinCtx1Rate)
    (fmtFrameSamples (s.get pgFlow f F.flowwinCtx1Struct) (s.get pgFlow f F.flowwinCtx1Rate))
  ((s.run f).store.bind fun st => st.buffers.head?).bind fun b =>
    if b.complete ∧ 2 * s.now < 2 * b.begunNs + 3 * period then some b.seq else none

/-- A buffer whose frame was not of the flow's format is read no more: the store's last frame is one of the old format (R115). -/
def State.dropFrame (s : State) (f seq : Nat) : State :=
  match (s.run f).store with
  | some st => s.putRun f { s.run f with store := some { st with buffers := st.buffers.filter fun b => decide (b.seq ≠ seq) } }
  | none => s

/-- The audio groups of the frame that ends (R245). -/
def State.rxGroups (s : State) (n : Nat) : State :=
  let p := pgSdirx n
  let g := (s.rx n).groups
  (((s.put p 0 F.sdirxAudStatPresent g).put p 0 F.sdirxAudStatUnsupported (s.get p 0 F.sdirxAudStatUnsupported &&& g)).put p
    0 F.sdirxAudStatAsync (s.get p 0 F.sdirxAudStatAsync &&& g)).putRx n { s.rx n with groups := 0 }

/-- A complete received frame in a state that follows frames. -/
def State.rxFrame (s : State) (n : Nat) (x : SdiFrame) : State :=
  let p := pgSdirx n
  let r := s.rx n
  let f : SdiFmt := { struct := x.struct, rate := x.rate, sampling := x.sampling, depth := x.depth, link := x.link }
  let pid := if x.link = 1 then none else x.payload
  let s0 := match pid with | some w => s.put p 0 F.sdirxPidBytes w | none => s
  let k := s.lock n
  if k = lockAligning ∨ k = lockUnsupported then
    if linkRateCode x.link ≠ r.trying then s
    else
      let same := decide (r.seen = some (some f, pid))
      let n' := if same then r.agree + 1 else 1
      let s1 := s0.putRx n { r with agree := n', seen := some (some f, pid), quadLink := x.quadLink }
      if 2 ≤ n' then s1.rxDecide n f pid else s1
  else if k = lockLocked ∨ k = lockWaitGroup then
    let was := match r.seen with | some (_, q) => q | none => none
    let d := if pid = was then 0 else r.differ + 1
    let flow := s0.sdiFlow n 0 false
    let odd := if d = 1 then flow.bind s0.justWritten else if d = 0 then none else r.odd
    let s1 := (s0.putRx n { r with differ := d, suspect := false, odd := odd }).rxGroups n
    if 2 ≤ d then
      (match flow, odd with
       | some v, some q => s1.dropFrame v q
       | _, _ => s1).rxUnlock n lockAligning
    else match flow with
      | some v => s1.aliveFrame v
      | none => s1
  else s

/-- SDIRX_FRAME_END (R108, R110): the end of a received frame. -/
def execSdirxFrameEnd (n : Fin 96) (f : SdiFrame) (s : State) : Host.Outcome State Fault Refusal :=
  .next (if s.running (pgSdirx n) then s.rxFrame n f else s)

/-- QUAD_GROUP_FORM (R117): four members in WAIT_GROUP whose payloads name links 1 to 4 once each with one format, within
4 µs of one another. -/
def execQuadGroupForm (n : Fin 96) (skewNs : Nat) (s : State) : Host.Outcome State Fault Refusal :=
  let ms := s.rxMembers n
  let fmt := fun k => match (s.rx k).seen with | some (some f, _) => some f | _ => none
  let links := ms.filterMap fun k => (s.rx k).quadLink
  let ready := decide (s.rxLead n = some n.val ∧ ms.length = 4) && ms.all (fun k => decide (s.lock k = lockWaitGroup ∧ fmt k = fmt n)) &&
    [1, 2, 3, 4].all (fun l => decide (l ∈ links)) && decide (skewNs ≤ 4000)
  .next (match (if ready then fmt n else none) with
    | some f =>
      if f.link = 7 then ms.foldl (fun s k => (s.putStat (pgSdirx k) 20 true).rxEnterLocked k f) s else s
    | none => s)

/-! ### Lines (R107, R110, R112, R245) -/

/-- Bytes cut into fragments. -/
def fragsOf : Nat → Bytes → List Bytes
  | 0, _ => []
  | n + 1, l => if l.isEmpty then [] else l.take fragBytes :: fragsOf n (l.drop fragBytes)

/-- An ingress flow produces a whole line at an instant: its fragments in segments of 32, its signature, its store. -/
def State.produceLineAt (s : State) (at_ f line : Nat) (errored : Bool) (b : Bytes) : State :=
  let st := s.get pgFlow f F.flowwinCtx1Struct
  let s0 := s.putRun f { s.run f with producing := true, lost := false, lastSegNs := at_, line := line, lineNs := at_, partLine := [] }
  let s1 := ((fragsOf b.length b).zipIdx).foldl (fun s x => s.produceAt at_ f line (x.2 / 32) (x.2 % 32) x.1) s0
  let r := s1.run f
  if !fmtActive st line then s1.putRun f { r with errored := errored }
  else
    let s2 := s1.putRun f { r with errored := errored, sig := lineSignature r.sig (s.get pgFlow f F.flowwinCtx1Depth) b }
    s2.endLineAt at_ f

/-- An ingress flow produces a whole line now. -/
def State.produceLine (s : State) (f line : Nat) (errored : Bool) (b : Bytes) : State := s.produceLineAt s.now f line errored b

/-- Does an ingress flow produce this line: it does already, or line 1 of a frame begins (R107)? -/
def State.producesLine (s : State) (f line : Nat) : Bool := (s.run f).producing || decide (line = 1)

/-- One data packet of an audio group of a line, the k-th of its group there, to the port's audio flow (R245). A group at another rate
carries zero, and samples that fail their check are missing (R241). Samples of one line are a sample period apart. -/
def State.deEmbed (s : State) (p : Nat) (flow : Option Nat) (g : SdiGroup) (k : Nat) : State :=
  if g.group < 1 ∨ 8 < g.group then s
  else
    let b := g.group - 1
    let put := fun (s : State) (f : Field) (v : Bool) =>
      s.put p 0 f (if v then withBit (s.get p 0 f) b else withoutBit (s.get p 0 f) b)
    let s1 := put (put (put s F.sdirxAudStatPresent true) F.sdirxAudStatUnsupported (!g.rate48)) F.sdirxAudStatAsync g.async
    match flow with
    | some f =>
      (List.range 4).foldl (fun s c =>
        s.feed f (4 * b + c) (s.now + k * 1000000000 / 48000)
          (if !g.rate48 then some 0 else if g.ok then some (g.samples.getD c 0 % 2 ^ 24) else none)) s1
    | none => s1

/-- The port whose flows carry what a receiver receives: its own, or its group's lead (R117). -/
def State.rxPort (s : State) (n : Nat) : Nat := if s.stat (pgSdirx n) 20 then (s.rxLead n).getD n else n

/-- Does audio and ancillary data come from this receiver: it stands alone, or carries link 1 of its group (R117)? -/
def State.rxCarriesAnc (s : State) (n : Nat) : Bool := !s.stat (pgSdirx n) 20 || decide ((s.rx n).quadLink = some 1)

/-- The embedded audio of a line. -/
def State.rxAudio (s : State) (n : Nat) (gs : List SdiGroup) : State :=
  let p := pgSdirx n
  let r := s.rx n
  let seen := gs.foldl (fun m g => if 1 ≤ g.group ∧ g.group ≤ 8 then withBit m (g.group - 1) else m) r.groups
  let s1 := s.putRx n { r with groups := seen }
  let bound := s1.sdiFlow (s1.rxPort n) 0x20 false
  let s2 := match bound with
    | some f => if gs.isEmpty then s1 else s1.checkFit f
    | none => s1
  let flow := bound.filter s1.audioFits
  gs.zipIdx.foldl (fun s x => s.deEmbed p flow x.1 ((gs.take x.2).filter fun g => decide (g.group = x.1.group)).length) s2

/-- A line of a LOCKED or waiting receiver. Segments stop from the first line that no longer fits the locked format, by its timing or
by a second payload in a row that differs; a frame whose payload differs does not enter the store (R110, R115). -/
def State.rxLine (s : State) (n : Nat) (l : SdiLine) : State :=
  let p := pgSdirx n
  let hd := decide (s.get p 0 F.sdirxFmtLink ≠ 1)
  let bad := !l.trsOk || !l.fits || (hd && (!l.numberOk || !l.crcOk))
  let r := s.rx n
  let s1 := if bad then
      let s' := s.bump p 0 F.sdirxCrcCntLines
      (if s.get p 0 F.sdirxCrcCntLines = 0 then s'.raise p 18 else s').touch (touchPage p)
    else s
  let s2 := s1.putRx n { r with errored := if bad then r.errored + 1 else 0 }
  if bad ∧ 8 ≤ r.errored + 1 then s2.rxUnlock n lockAligning
  else if s2.lock n ≠ lockLocked then s2
  else
    let mm := s2.rxMismatch (s2.rxPort n)
    let s3 := s2.putStat p 19 mm
    if mm || !l.fits || (r.suspect && decide (1 ≤ r.differ)) then s3.stopPortFlows kindSdi (s3.rxPort n)
    else
      let s4 := if s3.rxPort n = n then
          match s3.sdiFlow n 0 false with
          | some f =>
            if s3.producesLine f l.line then
              s3.produceLineAt s3.now f l.line (bad && s3.flag p 0 F.sdirxCtrlCrcConceal) l.picture
            else s3
          | none => s3
        else s3
      if s4.rxCarriesAnc n then s4.rxAudio n l.audio else s4

/-- A line reaches a receiver that resumes: the first whose timing fits the recorded format gives LOCKED, or WAIT_GROUP in a
group (R327). -/
def State.rxResume (s : State) (n : Nat) (l : SdiLine) : State :=
  if s.lock n = lockAligning ∧ s.laneResumes (pgSdirx n) 0 = true ∧ l.trsOk = true then
    match (s.rx n).locked with
    | some f =>
      let pid := match (s.rx n).seen with | some (_, q) => q | none => none
      let s1 := (s.laneForget (pgSdirx n) 0).rxShow n f pid true
      if (s1.rxLead n).isSome then s1.putLock n lockWaitGroup else s1.rxEnterLocked n f
    | none => s
  else s

/-! ### Ancillary packets (R119 to R121) -/

/-- Data identifiers of embedded audio: ST 299 at HD and above, ST 272 at SD (log entry 18). -/
def isAudioDid (link did : Nat) : Bool :=
  if link = 1 then decide ((0xF8 ≤ did ∧ did ≤ 0xFF) ∨ (0xEC ≤ did ∧ did ≤ 0xEF))
  else decide ((0xE0 ≤ did ∧ did ≤ 0xE7) ∨ (0xA0 ≤ did ∧ did ≤ 0xA7))

/-- The identifiers of ST 352. -/
def isPayloadId (did sdid : Nat) : Bool := decide (did = 0x41 ∧ sdid = 0x01)

/-- Does an enabled filter match a packet? -/
def State.ancMatches (s : State) (p c : Nat) (x : AncPacket) : Bool :=
  let area := s.get p c F.sdirxAncFiltArea
  s.flag p c F.sdirxAncFiltEn && decide (s.get p c F.sdirxAncFiltDid = x.did) &&
    (s.flag p c F.sdirxAncFiltSdidAny || decide (s.get p c F.sdirxAncFiltSdid = x.sdid)) &&
    (decide (area = 0) || decide (area = (if x.hanc then 2 else 1)))

/-- The queue of an IP send slot among the ancillary queues. -/
def ipAncQueue (port slot : Nat) : Nat := 0x1000 + port * 64 + slot

/-- An ancillary flow's packet waits at every transmitter and IP send slot that reads the flow. -/
def State.ancDeliver (s : State) (src : Nat) (x : AncRecord) : State :=
  (s.readers src).foldl (fun s e =>
    let (kind, port, stream) := s.flowPort e
    if kind = kindSdi ∧ s.flowEn e = true ∧ s.flowType e = typeAnc ∧ 0x10 ≤ stream ∧ stream ≤ 0x13 then
      { s with ancQueue := Tab.put port (Tab.at [] s.ancQueue port ++ [{ x with stream := stream - 0x10 }]) s.ancQueue }
    else if kind = kindIp ∧ s.flowEn e = true ∧ s.flowType e = typeAnc ∧ stream < 64 then
      let k := ipAncQueue port stream
      { s with ancQueue := Tab.put k (Tab.at [] s.ancQueue k ++ [{ x with stream := 0 }]) s.ancQueue }
    else s) s

/-- The number that the four words of an ST 352 packet give, byte 1 highest. -/
def payloadOf (words : List Nat) : Nat := (words.take 4).foldl (fun n w => n * 256 + w % 256) 0

/-- An ST 352 packet goes to format detection: one that differs from the locked payload marks its frame (R110, R120). At SD the format is
taken from the timing alone (R109). -/
def State.rxPayload (s : State) (n : Nat) (x : AncPacket) : State :=
  let r := s.rx n
  if s.get (pgSdirx n) 0 F.sdirxFmtLink = 1 then s else
  let was := match r.seen with | some (_, q) => q | none => none
  s.putRx n { r with suspect := r.suspect || (x.sumOk && decide (was ≠ some (payloadOf x.words))) }

/-- A packet of a LOCKED receiver: the first matching filter extracts it. -/
def State.rxAnc (s : State) (n : Nat) (x : AncPacket) : State :=
  let p := pgSdirx n
  if isPayloadId x.did x.sdid then s.rxPayload n x
  else if isAudioDid (s.get p 0 F.sdirxFmtLink) x.did then s
  else if !x.sumOk then s.bump p 0 F.sdirxAncCntCsErr
  else match (List.range 16).find? fun c => s.ancMatches p c x with
    | none => s.bump p 0 F.sdirxAncCntUnmatched
    | some c =>
      let st := s.get p c F.sdirxAncFiltStream
      match s.sdiFlow (s.rxPort n) (0x10 + st) false with
      | some f =>
        if s.rxMismatch (s.rxPort n) then s
        else s.ancDeliver f
          { stream := st, line := x.line, hanc := x.hanc, ds := x.ds, offset := x.offset, did := x.did, sdid := x.sdid
            words := x.words }
      | none => s

/-- ANC_PACKET_RECEIVE (R119). -/
def execAncPacketReceive (n : Fin 96) (p : AncPacket) (s : State) : Host.Outcome State Fault Refusal :=
  .next (if s.running (pgSdirx n) && decide (s.lock n = lockLocked) && s.rxCarriesAnc n then s.rxAnc n p else s)

/-- First lines of the second field of an interlaced structure, and of the first (log entry 8). -/
def fieldStarts : Nat → Nat × Nat
  | 1 => (1, 564) | 3 => (1, 313) | 4 => (4, 266)
  | _ => (1, 0)

/-- The field of a line: 0 first or the whole frame, 1 second. -/
def fieldOf (struct line : Nat) : Nat :=
  let (a, b) := fieldStarts struct
  if b = 0 then 0 else if a ≤ line ∧ line < b then 0 else 1

/-- The next line of the same area and field, within so many tries. -/
def nextAncLine (struct : Nat) (hanc : Bool) (line : Nat) : Nat → Option Nat
  | 0 => none
  | k + 1 =>
    let l := line + 1
    if fmtLines struct < l ∨ fieldOf struct l ≠ fieldOf struct line then none
    else if hanc || !fmtActive struct l then some l
    else nextAncLine struct hanc l k

/-- Words of a packet with its flag, identifiers, count and checksum. -/
def AncRecord.size (x : AncRecord) : Nat := x.words.length + 7

/-- One packet that does not fit a line: the next line of its area and field, or dropped (R121). -/
def State.ancDefer (s : State) (n struct : Nat) (x : AncRecord) : State × List AncRecord :=
  let p := pgSditx n
  match nextAncLine struct x.hanc x.line 4500 with
  | some l => (s.bump p 0 F.sditxAncCntDefer, [{ x with line := l }])
  | none => ((s.bump p 0 F.sditxAncCntOvf).raise p 17, [])

/-- Place the packets of a line in order while they fit their data stream of an area, behind the words already used there. -/
def State.ancPlace (s : State) (n page struct : Nat) (hanc : Bool) (room : Nat) (used : Tab Nat) : List AncRecord → State × List AncRecord
  | [] => (s, [])
  | x :: t =>
    let u := Tab.at 0 used x.ds
    if x.hanc != hanc then s.ancPlace n page struct hanc room used t
    else if u + x.size ≤ room then
      (s.emit (.anc page x.line hanc x.ds u x.did x.sdid x.words)).ancPlace n page struct hanc room (Tab.put x.ds (u + x.size) used) t
    else
      let (s1, l) := s.ancDefer n struct x
      let (s2, m) := s1.ancPlace n page struct hanc room used t
      (s2, l ++ m)

/-- Words of an ST 352 packet. -/
abbrev payloadSize : Nat := 11

/-- Lines that carry ST 352 (log entry 18). -/
def payloadLines : Nat → List Nat
  | 1 => [10, 572] | 3 => [9, 322] | 4 => [13, 276]
  | _ => [10]

/-- The members of a transmitter's group with their ST 352 link numbers, or the transmitter itself with none (R118). -/
def State.txLinks (s : State) (n : Nat) : List (Nat × Nat) :=
  match s.txLead n with
  | some lead => (s.txMembers lead).map fun k => (k, s.get (pgSditx k) 0 F.sditxQuadLink + 1)
  | none => [(n, 0)]

/-- The transmitter that carries the audio and the ancillary packets: a group's on LINK 0 (R118). -/
def State.txCarrier (s : State) (n : Nat) : Nat := (((s.txLinks n).find? fun x => decide (x.2 ≤ 1)).getD (n, 0)).1

/-- Number of the sample of 48 kHz that falls at an instant or last before it. -/
def sample48 (t : Nat) : Nat := t * 48000 / 1000000000

/-- The samples that the first HANC space now takes: those that have fallen since the transmitter embedded last, or in the line period before
its first line (R246). -/
def State.embedDue (s : State) (n : Nat) : List Nat :=
  let r := s.raster (pgSditx n) 0
  let since := (Assoc.find id n s.embedNs).getD (s.now - nsOf r.struct r.rate (fmtSamples r.struct r.rate))
  List.range' (sample48 since + 1) (sample48 s.now - sample48 since)

/-- The groups whose packets a line carries: those AUD_GRP enables, and those that end at the next switch line. -/
def State.txGroups (s : State) (n : Nat) : Nat :=
  let all := s.get (pgSditx n) 0 F.sditxAudGrpEn ||| ((Assoc.find Key.code ⟨pgSditx n, 0, 0⟩ s.groupTail).getD 0)
  if s.get (pgSditx n) 0 F.sditxCtrlLink ≤ 2 then all % 16 else all

/-- The words that the embedded audio of a line takes in each data stream of the horizontal area (R121). -/
def State.audioUsed (s : State) (n : Nat) : Tab Nat :=
  let due := (s.embedDue n).length
  let has := ((s.sdiFlow n 0x20 true).bind s.audRun).isSome && !s.stat (pgSditx n) 23
  (List.range 8).foldl (fun t d =>
    Tab.put d (if has then Config.audioWords d (s.get (pgSditx n) 0 F.sditxCtrlLink) (s.txGroups n) due else 0) t) []

/-- The packets of a line of a transmitter go out: in the horizontal area behind the embedded audio and an ST 352 packet, stream 0
first, in order of arrival. Packets whose line the output format has not are dropped; a line of active picture has no vertical area, so
a packet recorded there for that area does not fit it (log entry 217). -/
def State.ancLine (s : State) (n line : Nat) (payload : Bool) : State :=
  let p := pgSditx n
  let page := pgSditx (s.txCarrier n)
  let r := s.raster p 0
  let q := Tab.at [] s.ancQueue n
  let pid := s.flag p 0 F.sditxCtrlPidEn
  let q1 := if pid then q.filter fun x => !isPayloadId x.did x.sdid else q
  let lost := q1.filter fun x => decide (x.line = 0 ∨ fmtLines r.struct < x.line)
  let s1 := lost.foldl (fun s _ => (s.bump p 0 F.sditxAncCntOvf).raise p 17) s
  let here := q1.filter fun x => decide (x.line = line)
  let sorted := [0, 1, 2, 3].flatMap fun k => here.filter fun x => decide (x.stream = k)
  let rest := q1.filter fun x => decide (x.line ≠ line ∧ x.line ≠ 0 ∧ x.line ≤ fmtLines r.struct)
  let link := s.get p 0 F.sditxCtrlLink
  let audio := s.audioUsed n
  let used := if payload then Tab.put 0 (Tab.at 0 audio 0 + payloadSize) audio else audio
  let (s2, d1) := s1.ancPlace n page r.struct true (Config.ancRoom true r.struct r.rate link) used sorted
  let (s3, d2) := s2.ancPlace n page r.struct false (if fmtActive r.struct line then 0 else Config.ancRoom false r.struct r.rate link) [] sorted
  { s3 with ancQueue := Tab.put n (d1 ++ d2 ++ rest) s3.ancQueue }

/-! ### The transmitter (R122 to R125) -/

/-- Is the transmit clock of a link there (R125, R356)? -/
def State.txClockOk (s : State) (n : Nat) : Bool :=
  let p := pgSditx n
  if s.flag p 0 F.sditxClkSrcKind then
    let (a, b) := linkRate (s.get p 0 F.sditxCtrlLink) (s.raster p 0).rate
    s.synOutNear (s.get p 0 F.sditxClkSrcSyn) (s.get p 0 F.sditxClkSrcOut) (a * 500, b)
  else true

/-- The transmitter whose raster, clock and LINK a transmitter takes: its own, or its group's lead (R118). -/
def State.txPort (s : State) (n : Nat) : Nat := (s.txLead n).getD n

/-- A transmitter's lane runs with a link, a clock and no re-rate gap. -/
def State.txLane (s : State) (n : Nat) : State :=
  let p := pgSditx n
  let k := s.txPort n
  let on := s.running p && decide (s.get (pgSditx k) 0 F.sditxCtrlLink ≠ 0) && s.txClockOk k && !s.stat p 19
  s.putLane p 0 (if on then laneUp else laneOff)

/-- Transmitters that go with a transmitter's raster: the members of its group, or itself. -/
def State.txWith (s : State) (n : Nat) : List Nat := (s.txLinks n).map Prod.fst

/-- The clock of a transmitter is judged: a bad one leaves the lanes idle at once and is reported once as FREQ (R125, R24). -/
def State.txClock (s : State) (n : Nat) : State :=
  let s1 := (s.txWith n).foldl State.txLane s
  let bad := s.running (pgSditx n) && decide (s.get (pgSditx n) 0 F.sditxCtrlLink ≠ 0) && !s.txClockOk n
  if !bad then { s1 with txClockBad := s1.txClockBad.filter fun k => decide (k ≠ n) }
  else if n ∈ s1.txClockBad then s1
  else ({ s1 with txClockBad := n :: s1.txClockBad } : State).fault fltClock respNone 0 (pgSditx n) fltWhole (96 + n)

/-- STATUS.LINK of a transmitter, and GROUP_OK of a group whose four members run. -/
def State.txStatus (s : State) (n : Nat) : State :=
  let s1 := s.putStatBits (pgSditx n) 16 3 (s.get (pgSditx (s.txPort n)) 0 F.sditxCtrlLink)
  match s1.txLead n with
  | some lead =>
    let ok := decide ((s1.txMembers lead).length = 4) && (s1.txMembers lead).all fun k => s1.running (pgSditx k)
    (s1.txMembers lead).foldl (fun s k => s.putStat (pgSditx k) 21 ok) s1
  | none => s1

/-- The transmitter starts; a member of a group takes its raster from the lead. -/
def State.sditxStart (s : State) (n : Nat) : State :=
  let p := pgSditx n
  let s1 := ((s.putRunning p true).txBind n).txStatus n
  if s1.txPort n = n then (s1.rasterStart p 0).txClock n else s1.txLane n

/-- The LINK that a commit leaves, in the coding of R104. -/
def State.txLinkOf (s : State) (n : Nat) (get : State → Nat → Nat → Field → Nat) : Nat :=
  let k := get s (pgSditx n) 0 F.sditxCtrlLink
  if k = 6 ∧ (s.txLead n).isSome then 7 else k

/-- Is a transmitter's commit refused for its LINK (R122)? LINK 0 names no row and leaves the lane idle; a group's member takes its
LINK and its raster from the lead (R118). -/
def State.txLinkRefused (s : State) (n : Nat) : Bool :=
  let p := pgSditx n
  let k := s.txLinkOf n State.getShadow
  decide (k ≠ 0 ∧ s.txPort n = n) && !sdiHasRow k (s.getShadow p 0 F.rstFormatStruct) (s.getShadow p 0 F.rstFormatRate)

/-- The error for which a transmitter's commit is refused where its raster does not run: the raster's, then LINK_FMT. -/
def State.txRefusal (s : State) (n : Nat) : Option Nat :=
  if s.txPort n = n ∧ s.rasterRefused (pgSditx n) 0 = true then some 24 else if s.txLinkRefused n then some 16 else none

/-- The transmitter stops: its output is idle, a requested commit applies at once. -/
def State.sditxStop (s : State) (n : Nat) : State :=
  let p := pgSditx n
  let s0 := (((s.putRunning p false).rasterStop p 0).putLane p 0 laneOff).putStat p 19 false
  let lead := s0.txLead n
  let s1 := ({ s0 with txBound := Tab.del n s0.txBound, ancQueue := Tab.del n s0.ancQueue, embedNs := Tab.del n s0.embedNs
                       txClockBad := s0.txClockBad.filter fun k => decide (k ≠ n) } : State).txStatus n
  let s2 := match lead with
    | some l => (s1.txMembers l).foldl (fun (s : State) k => s.putStat (pgSditx k) 21 false) (s1.putStat p 21 false)
    | none => s1
  (s2.stopCommitOr p 0 (s2.txRefusal n)).thaw p 0

/-- A write of SDITX CTRL. -/
def State.writeSditxCtrl (s : State) (n w : Nat) : State :=
  let p := pgSditx n
  let run := s.running p
  let s1 := (s.writeBut p 0 run w 0x080 [F.sditxCtrlEn]).put p 0 F.sditxCtrlEn (bits w 0 1)
  if run && !bit w 0 then s1.sditxStop n
  else if !run && bit w 0 && s1.acts p then s1.sditxStart n
  else if !run then s1.txStatus n
  else s1

/-- The first frame of a changed bit rate begins: the lanes stop for the re-rate gap (R124). -/
def State.txGap (s : State) (n : Nat) : State :=
  let p := pgSditx n
  let r := s.raster p 0
  if r.regap && !r.waiting then
    (s.txWith n).foldl (fun s k => (s.putStat (pgSditx k) 19 true).txLane k) (s.putRaster p 0 { r with regap := false })
  else s

/-- The re-rate gap of a transmitter, and of its group's members, ends. -/
def State.txGapEnd (s : State) (n : Nat) : State :=
  (((s.txWith n).filter fun k => s.stat (pgSditx k) 19).foldl (fun s k => (s.putStat (pgSditx k) 19 false).raise (pgSditx k) 16) s).txClock
    (s.txPort n)

/-- REGAP_DONE (R124): the re-rate gap ends. -/
def execRegapDone (n : Fin 96) (s : State) : Host.Outcome State Fault Refusal :=
  .next (if s.stat (pgSditx n) 19 then s.txGapEnd n else s)

/-- SAMPLING and DEPTH of a transmitter's active format (R123). -/
def State.txSampling (s : State) (n : Nat) : Nat × Nat :=
  match s.sdiFlow n 0 true with
  | some f => (s.get pgFlow f F.flowwinCtx1Sampling, s.get pgFlow f F.flowwinCtx1Depth)
  | none => (0, 0)

/-- Does the egress video flow not fit the raster, the LINK or its source's format (R114, R123)? -/
def State.txMismatch (s : State) (n : Nat) : Bool :=
  let r := s.raster (pgSditx n) 0
  match s.sdiFlow n 0 true with
  | some f =>
    decide (s.get pgFlow f F.flowwinCtx1Struct ≠ r.struct ∨ s.get pgFlow f F.flowwinCtx1Rate ≠ r.rate) ||
      !sdiCarries (s.txLinkOf n State.get) r.struct r.rate (s.get pgFlow f F.flowwinCtx1Sampling)
        (s.get pgFlow f F.flowwinCtx1Depth) ||
      (match s.sourceOf f with
       | some src => (s.run f).mismatch || !s.sameSamples f src || (decide ((s.run f).path = .frameStore) && !s.sameRaster f src)
       | none => false)
  | none => false

/-- A line of a transmitter's fill colour in its active format (R123). -/
def State.txFill (s : State) (n : Nat) : Bytes :=
  let p := pgSditx n
  let (sa, de) := s.txSampling n
  fillLine (s.raster p 0).struct sa de (s.get p 0 F.sditxFillY) (s.get p 0 F.sditxFillCb) (s.get p 0 F.sditxFillCr)

/-- The picture line of a transmitter: a line whose data end early is completed with the fill colour (R111). -/
def State.txPicture (s : State) (n line : Nat) (missing : List Nat) : LineContent × Bytes :=
  let r := s.raster (pgSditx n) 0
  let (sa, de) := s.txSampling n
  let fill := (LineContent.fill, s.txFill n)
  let black := (LineContent.black, blackBytes sa de (lineBytes r.struct sa de))
  if !fmtActive r.struct line || r.waiting then (.blanking, [])
  else if r.black then black
  else if s.txMismatch n then fill
  else match s.sdiFlow n 0 true with
    | some f =>
      if f ∈ missing ∨ f ∈ r.underran then fill
      else match s.egressLine f line with
        | (.data, b) => (.data, b ++ (s.txFill n).drop b.length)
        | (.black, _) => black
        | _ => fill
    | none => fill

/-! ### Embedded audio of a transmitter (R246 to R248) -/

/-- The unit of a transmitter's slot masks. -/
abbrev sdiMaskUnit : Nat := 0x301

/-- ACT bits of a transmitter's channels: those AUD_ACT sets, and those that end at the next switch line. -/
def State.txActs (s : State) (n : Nat) : Nat :=
  s.get (pgSditx n) 0 F.sditxAudActAct ||| ((Assoc.find Key.code ⟨pgSditx n, 1, 0⟩ s.groupTail).getD 0)

/-- The channels that a transmitter's masks pass: of an enabled group, and active (R247). -/
def State.txChannels (s : State) (n : Nat) : Nat :=
  (List.range 32).foldl (fun m k =>
    if bit (s.get (pgSditx n) 0 F.sditxAudGrpEn) (k / 4) && bit (s.get (pgSditx n) 0 F.sditxAudActAct) k then withBit m k else m) 0

/-- A sample of channel ch of a transmitter's audio flow at an instant, through its gate; an inactive channel, and one that the flow has
not, carries zero. -/
def State.embedSample (s : State) (n : Nat) (a : AudRun) (t ch : Nat) : Nat × State :=
  let k : Key := ⟨pgSditx n, ch, 0⟩
  let v := if ch < a.count then s.routeSample (a.base + ch) t % 2 ^ 24 else 0
  match s.gate k with
  | some g =>
    let (y, g', s1) := s.gateSample g v
    (y, s1.putGate k g')
  | none => (if bit (s.txChannels n) ch then v else 0, s)

/-- A data packet of a group: the next data block number, from 1 to 255, and a sample of each channel that falls at an instant. -/
def State.embedGroup (s : State) (n line : Nat) (a : AudRun) (t g : Nat) : State :=
  let block := Tab.at 0 s.audioBlocks (8 * n + g) % 255 + 1
  let (l, s1) := (List.range 4).foldl (fun (x : List Nat × State) c =>
    let (v, s') := x.2.embedSample n a t (4 * g + c)
    (x.1 ++ [v], s')) ([], s)
  ({ s1 with audioBlocks := Tab.put (8 * n + g) block s1.audioBlocks } : State).emit
    (.audioData (pgSditx (s.txCarrier n)) line (g + 1) block l)

/-- The egress audio flow of a transmitter that is embedded: one at 48 kHz (R246). -/
def State.embedFlow (s : State) (n : Nat) : Option AudRun :=
  match (s.sdiFlow n 0x20 true).bind s.audRun with
  | some a => if s.flowSrate a.flow = 2 then some a else none
  | none => none

/-- The embedded audio of a line: AUD_FMT where the flow is not at 48 kHz. -/
def State.embedLine (s : State) (n line : Nat) : State :=
  let p := pgSditx n
  let other := match (s.sdiFlow n 0x20 true).bind s.audRun with
    | some a => decide (s.flowSrate a.flow ≠ 2)
    | none => false
  let s1 := s.putStat p 23 other
  match s1.embedFlow n with
  | none => s1
  | some a =>
    let grp := s1.txGroups n
    (s1.embedDue n).foldl (fun s i =>
      (List.range 8).foldl (fun s g => if bit grp g then s.embedGroup n line a (i * 1000000000 / 48000) g else s) s)
      (s1.checkFit a.flow)

/-- The control packets of a transmitter's groups, at the switch line: the frame sequence on a LOCKED raster at a 1.001 rate, else 0, and
the ACT bits (R246, R248). -/
def State.embedControl (s : State) (n line : Nat) : State :=
  let r := s.raster (pgSditx n) 0
  let number := if r.mode = modeLocked ∧ rateFraction r.rate = true then Config.audioSequence r.rate r.frame else 0
  match s.embedFlow n with
  | none => s
  | some _ =>
    (List.range 8).foldl (fun s g =>
      if bit (s.txGroups n) g then
        s.emit (.audioControl (pgSditx (s.txCarrier n)) line (g + 1) number (bits (s.txActs n) (4 * g) 4))
      else s) s

/-- A transmitter's slot masks are captured. -/
def State.txMaskCapture (s : State) (n : Nat) : State := s.captureMask (pgSditx n) sdiMaskUnit

/-- The masks apply at a switch line: channels added and removed wait for their crossings; a removed group's packets and a removed
channel's ACT bit go until the next switch line, an added group's block numbers begin at 1 (R248). -/
def State.txMaskApply (s : State) (n : Nat) : State :=
  let p := pgSditx n
  let tail := fun (s : State) (groups acts : Nat) =>
    { s with groupTail := Assoc.set Key.code ⟨p, 0, 0⟩ groups (Assoc.set Key.code ⟨p, 1, 0⟩ acts s.groupTail) }
  if (s.unit p sdiMaskUnit).captured then
    let old := s.get p 0 F.sditxAudGrpEn
    let acts := s.get p 0 F.sditxAudActAct
    let s1 := (s.applyShadow p sdiMaskUnit).putUnit p sdiMaskUnit { s.unit p sdiMaskUnit with captured := false }
    let new := s1.get p 0 F.sditxAudGrpEn
    let s2 := tail s1 (old &&& (255 - new)) (acts &&& (0xFFFFFFFF - s1.get p 0 F.sditxAudActAct))
    let fresh := fun (e : Nat × Nat) => decide (e.1 / 8 = n) && bit new (e.1 % 8) && !bit old (e.1 % 8)
    let s3 := { s2 with audioBlocks := s2.audioBlocks.filter fun e => !fresh e }
    (s3.maskChange p 0 0 (s.txChannels n) (s3.txChannels n) 32).thaw p sdiMaskUnit
  else tail s 0 0

/-- The audio masks at a line of a transmitter's raster, whether its lane is up or not (R247). -/
def State.txMasks (s : State) (n line : Nat) : State :=
  let sw := switchLines (s.raster (pgSditx n) 0).struct
  let s1 := if (line + 2) ∈ sw then s.txMaskCapture n else s
  if line ∈ sw then s1.txMaskApply n else s1

/-- A transmitter has embedded the samples that fell before this line; those of lines that its lane did not send are gone. -/
def State.embedded (s : State) (n : Nat) : State := { s with embedNs := Tab.put n s.now s.embedNs }

/-- Cut into groups of n bytes, so many of them. -/
def pairGroups (n : Nat) : Nat → Bytes → List Bytes
  | 0, _ => []
  | k + 1, l => l.take n :: pairGroups n k (l.drop n)

/-- What a link of a quad-link group carries of a picture line: two-sample interleave division gives links 1 and 2 the pairs of samples of
the even picture lines by turns, links 3 and 4 those of the odd ones (R104, R118; log entry 148). -/
def linkShare (link row unit : Nat) (b : Bytes) : Bytes :=
  if link = 0 then b
  else if row % 2 ≠ (link - 1) / 2 then []
  else (((pairGroups unit (b.length / unit) b).zipIdx).filter fun x => decide (x.2 % 2 = (link - 1) % 2)).flatMap Prod.fst

/-- What a line of a transmitter carries beside its picture, as numbers. -/
def lineExtra (page line : Nat) (o : Out) : Option (List Nat) :=
  match o with
  | .anc p l hanc ds place did sdid words =>
    if p = page ∧ l = line then some (0 :: ofBool hanc :: ds :: place :: did :: sdid :: words) else none
  | .audioData p l g k v => if p = page ∧ l = line then some (1 :: g :: k :: v) else none
  | .audioControl p l g q a => if p = page ∧ l = line then some [2, g, q, a] else none
  | _ => none

/-- A line of one link leaves: its picture, at HD and above its line number and check words; its output seal covers every word of the
line (R105, R306). -/
def State.txLinkLine (s : State) (n line : Nat) (c : LineContent) (b : Bytes) (extra : List Out) (k link : Nat) : State :=
  let p := pgSditx n
  let r := s.raster p 0
  let (sa, de) := s.txSampling n
  let page := pgSditx k
  let row := match rasterPicture r.struct line with | some (l, _) => l | none => 0
  let share := linkShare link row (2 * samplingWords sa * depthBits de / 16) b
  let words := unpackBits (depthBits de) share
  let code := s.txLinkOf n State.get
  let crc := Config.lineCrc code line words
  let s1 := s.emit (.line page 0 line c share)
  let s2 := if 2 ≤ code then s1.emit (.lineCheck page line crc) else s1
  match s2.sdiFlow n 0 true with
  | some f => s2.sealOutput f line r.frame link
      (wideWords (words ++ Config.blankWords code r.struct r.rate line crc (extra.filterMap (lineExtra page line))))
  | none => s2

/-- A transmitter sends a line: ST 352, ancillary packets, embedded audio, picture. Added lines of a frame carry no packets
but audio (R213). -/
def State.txLine (s0 : State) (n line : Nat) (missing : List Nat) : State :=
  let s := (s0.txClock n).txMasks n line
  let p := pgSditx n
  let r := s.raster p 0
  if s.get p 0 F.laneStatusState ≠ laneUp then s.embedded n
  else
    let mm := s.txMismatch n
    let s0 := (s.txWith n).foldl (fun (s : State) k => s.putStat (pgSditx k) 20 mm) s
    let s1 := if line ∈ switchLines r.struct then s0.embedControl n line else s0
    let s2 := s1.embedLine n line
    let s3 := if line ≤ fmtLines r.struct then
        let (sa, de) := s2.txSampling n
        let pid := s2.flag p 0 F.sditxCtrlPidEn && decide (line ∈ payloadLines r.struct)
        let place := fun (k : Nat) => if k = s2.txCarrier n then Tab.at 0 (s2.audioUsed n) 0 else 0
        let s' := if pid then
            (s2.txLinks n).foldl (fun s x => s.emit (.anc (pgSditx x.1) line true 0 (place x.1) 0x41 0x01
              ((beBytes 4 (Config.payloadId r.struct r.rate sa de (s2.txLinkOf n State.get) x.2)).map fun b => b.toNat))) s2
          else s2
        s'.ancLine n line pid
      else s2
    let (c, b) := s3.txPicture n line missing
    let sig := if fmtActive r.struct line then lineSignature (s3.raster p 0).sig (s3.txSampling n).2 b else (s3.raster p 0).sig
    let extra := s3.out.take (s3.out.length - s.out.length)
    ((s3.txLinks n).filter fun x => decide (s3.get (pgSditx x.1) 0 F.laneStatusState = laneUp)).foldl
      (fun s x => s.txLinkLine n line c b extra x.1 x.2) ((s3.putRaster p 0 { s3.raster p 0 with sig := sig }).embedded n)

/-! ### Segments of an ingress flow (R106, R107, R117) -/

/-- A transmitter between two formats sends a line of blanking on each link that is up (R224). -/
def State.txBlank (s : State) (n line : Nat) : State :=
  ((s.txLinks n).filter fun x => decide (s.get (pgSditx x.1) 0 F.laneStatusState = laneUp)).foldl
    (fun s x => s.txLinkLine n line .blanking [] [] x.1 x.2) s

end Sys2Proof.Machine
end

