-- ==== Sys2Proof/Machine/IpLinks.lean ====
section
/-! DEFINITION. IP ports: links, MACsec, stream slots and their commits (R127 to R133, R141, R142, R146 to R148). -/

namespace Sys2Proof.Machine

/-! ### Ports and links (R127, R128) -/

/-- Links of a port under its MODE. -/
def State.linkCount (s : State) (p : Nat) : Nat := if s.get (pgIpp p) 0 F.ippCtrlMode = 0 then 1 else 4

/-- The lanes of a link. -/
def State.linkLanes (s : State) (p l : Nat) : List Nat := if s.linkCount p = 1 then [0, 1, 2, 3] else [l]

/-- The link of a lane. -/
def State.linkOfLane (s : State) (p lane : Nat) : Nat := if s.linkCount p = 1 then 0 else lane

/-- Is a link UP? -/
def State.linkUp (s : State) (p l : Nat) : Bool := s.flag (pgIpp p) l F.ippLinkStatusUp

/-- Write UP of a link; a change raises LINK_CHANGE. -/
def State.putLinkUp (s : State) (p l : Nat) (up : Bool) : State :=
  let s1 := (((s.put (pgIpp p) l F.ippLinkStatusUp (ofBool up)).put (pgIpp p) l F.ippLinkStatusLocalFault
    (ofBool (!up && s.running (pgIpp p))))).putStat (pgIpp p) (16 + l) up
  if s.linkUp p l = up then s1 else s1.raise (pgIpp p) 16

/-- The links of a receive slot's paths with their PATHn_UP. -/
def State.slotPaths (s : State) (q c : Nat) : List (Nat × Nat × Bool) :=
  let pg := pgIpp q
  let get := fun f => s.get pg c f
  (q, get F.ippStrmCfgLink, s.flag pg c F.ippStrmStatusPath1Up) ::
    (if get F.ippStrmCfgPath2En = 1 then [(get F.ippStrmPath2Port, get F.ippStrmPath2Link, s.flag pg c F.ippStrmStatusPath2Up)] else [])

/-- Is the loss of a link masked: every stream that comes on it has packets on its other path too (R141)? -/
def State.linkMasked (s : State) (p l : Nat) : Bool :=
  let users := ((List.range 8).flatMap fun q => (List.range 64).map fun c => (q, c)).filter fun e =>
    s.flag (pgIpp e.1) e.2 F.ippStrmCfgEn && s.running (pgIpp e.1) &&
      (s.slotPaths e.1 e.2).any fun x => decide (x.1 = p ∧ x.2.1 = l)
  !users.isEmpty && users.all fun e =>
    (s.slotPaths e.1 e.2).any fun x => decide (x.1 ≠ p ∨ x.2.1 ≠ l) && x.2.2

/-- The lane that carries a PTP timebase has lost its lock: a LOCKED one loses its reference (R57). -/
def State.ptpLaneGone (s : State) (p l : Nat) : State :=
  (s.ptpTimebases p l).foldl (fun s k => if (s.tb k).state = .locked then s.tbLoss k else s) s

/-- Loss of lock of a lane: its link goes DOWN, the loss is recorded, and a timebase that follows PTP on it loses its
reference (R57, R128). -/
def State.ipLaneLoss (s : State) (p lane : Nat) : State :=
  let pg := pgIpp p
  let l := s.linkOfLane p lane
  if s.running pg && decide (laneAligning ≤ s.laneState pg lane ∧ s.laneState pg lane ≤ laneUp) then
    let s1 := (((s.eyeDown pg lane).putLane pg lane laneDown).bump pg lane F.laneCntLoss).startTimer pg lane timerLane
    let s2 := (s1.putLinkUp p l false).fault fltLaneLoss (if s.linkMasked p l then respMasked else respNone) 0 pg lane 0
    s2.ptpLaneGone p l
  else s

/-- IP_LANE_LOSS (R128). -/
def execIpLaneLoss (p : Fin 8) (lane : Fin 4) (s : State) : Host.Outcome State Fault Refusal := .next (s.ipLaneLoss p lane)

/-- Has a DOWN lane of an IP port been without its signal for more than 1 ms (R270)? -/
def State.ipLaneStale (s : State) (pg n : Nat) : Bool :=
  decide (s.laneState pg n = laneDown) && s.elapsed pg n timerLane 1000001

/-- A link's lanes are locked and its PCS is aligned. Lanes whose signal was absent for more than 1 ms adapt first (R270). -/
def State.ipLinkUp (s : State) (p l : Nat) : State :=
  let pg := pgIpp p
  let lanes := s.linkLanes p l
  let stale := lanes.filter fun n => s.ipLaneStale pg n
  if s.running pg && decide (l < s.linkCount p) && !s.linkUp p l &&
      lanes.all (fun n => decide (s.laneState pg n = laneDown ∨ s.laneState pg n = laneAligning ∨
        s.laneState pg n = laneUp)) then
    if stale.isEmpty then (lanes.foldl (fun s n => s.putLane pg n laneUp) s).putLinkUp p l true
    else stale.foldl (fun s n => (s.laneRequest pg n).laneSignal pg n) s
  else s

/-! ### Bytes of frames -/

/-- Big-endian value of n bytes at an offset. -/
def beAt (b : Bytes) (off n : Nat) : Nat := beValue ((b.drop off).take n)

/-- LINK_MAC. -/
def State.linkMac (s : State) (p l : Nat) : Nat :=
  s.get (pgIpp p) l F.ippLinkMacHiMac * 2 ^ 32 + s.get (pgIpp p) l F.ippLinkMacLoMac

/-- EtherTypes. -/
abbrev etVlan : Nat := 0x8100
abbrev etService : Nat := 0x88A8
abbrev etMacsec : Nat := 0x88E5
abbrev etEapol : Nat := 0x888E
abbrev etIp : Nat := 0x0800

/-- The offset of a frame's EtherType behind its one tag. -/
def etherOffset (b : Bytes) : Nat := if beAt b 12 2 = etVlan then 16 else 12

/-- The VLAN ID of a tagged frame. -/
def vlanOf (b : Bytes) : Option Nat := if beAt b 12 2 = etVlan then some (beAt b 14 2 % 4096) else none

/-- The EtherType of a frame. -/
def etherType (b : Bytes) : Nat := beAt b (etherOffset b) 2

/-- A received frame's length, tags and FCS (R129). -/
def frameOk (b : Bytes) : Bool :=
  decide (64 ≤ b.length ∧ b.length ≤ 1522) && decide (beAt b 12 2 ≠ etService) &&
    decide (etherType b ≠ etVlan ∧ etherType b ≠ etService) &&
    decide (fcsOf (b.take (b.length - 4)) = b.drop (b.length - 4))

/-- Does a link accept a destination address: its own, broadcast, any multicast (R129)? -/
def State.macAccepted (s : State) (p l : Nat) (b : Bytes) : Bool :=
  decide (beAt b 0 6 = s.linkMac p l) || bit (beAt b 0 1) 0

/-- Frame bytes padded to the shortest frame, FCS excluded. -/
def padFrame (b : Bytes) : Bytes := if b.length < 60 then fit 60 b else b

/-! ### MACsec (R146 to R148) -/

/-- MACsec runs on a link. -/
def State.secOn (s : State) (p l : Nat) : Bool := s.flag (pgIpp p) l F.ippSecCtrlEn

/-- The cipher suite of a link is GCM-AES-XPN-256. -/
def State.secXpn (s : State) (p l : Nat) : Bool := s.flag (pgIpp p) l F.ippSecCtrlXpn

/-- SA_PN of an association. -/
def State.saPn (s : State) (p l c : Nat) : Nat :=
  s.get (pgIpp p) c F.ippSaPnLoPn + (if s.secXpn p l then s.get (pgIpp p) c F.ippSaPnHiPn * 2 ^ 32 else 0)

/-- Write SA_PN. -/
def State.putSaPn (s : State) (p l c v : Nat) : State :=
  let s1 := s.put (pgIpp p) c F.ippSaPnLoPn (v % 2 ^ 32)
  if s.secXpn p l then s1.put (pgIpp p) c F.ippSaPnHiPn (v / 2 ^ 32) else s1

/-- Packet numbers of a link: 32 or 64 bits. -/
def State.pnModulus (s : State) (p l : Nat) : Nat := if s.secXpn p l then 2 ^ 64 else 2 ^ 32

/-- The key attribute of an association's direction. -/
def saAttr (c : Nat) : Nat := if c / 4 % 2 = 1 then attrEncrypt else attrDecrypt

/-- The key of an enabled association whose key is not lost. -/
def State.saKey (s : State) (p c : Nat) : Option Bytes :=
  if s.flag (pgIpp p) c F.ippSaCfgEn && !s.flag (pgIpp p) c F.ippSaCfgKeyLost then
    match Assoc.find Key.code ⟨pgIpp p, c, 0⟩ s.saGen with
    | some g => s.usableKey (s.get (pgIpp p) c F.ippSaCfgSlot) (saAttr c) g
    | none => none
  else none

/-- A write of SA_CFG: an enable that names a slot which does not hold a key of the direction's attribute is refused. -/
def State.writeSaCfg (s : State) (p c w : Nat) : State :=
  let pg := pgIpp p
  let slot := F.ippSaCfgSlot.extract w
  let s0 := s.put pg c F.ippSaCfgReplayWin (F.ippSaCfgReplayWin.extract w)
  let x := s.keySlot slot
  let key : Key := ⟨pg, c, 0⟩
  if F.ippSaCfgEn.extract w = 0 then
    { (s0.put pg c F.ippSaCfgSlot slot).put pg c F.ippSaCfgEn 0 with saGen := Assoc.erase Key.code key s.saGen }
  else if x.state = slotValid ∧ x.attr = saAttr c then
    { (((s0.put pg c F.ippSaCfgSlot slot).put pg c F.ippSaCfgEn 1).put pg c F.ippSaCfgKeyLost 0) with
      saGen := Assoc.set Key.code key x.gen s.saGen }
  else s0.setErr pg errBadValue

/-- An association whose slot's generation is no longer the recorded one reads KEY_LOST, and a fault is recorded with its
link (R148). -/
def State.saCheck (s : State) (e : Key × Nat) : State :=
  let c := e.1.cell
  let x := s.keySlot (s.get e.1.page c F.ippSaCfgSlot)
  if s.flag e.1.page c F.ippSaCfgKeyLost || decide (x.state = slotValid ∧ x.gen = e.2) then s
  else (s.put e.1.page c F.ippSaCfgKeyLost 1).fault fltKeyLost respNone 0 e.1.page (c / 8) 0

/-- Every association whose key has gone. -/
def State.saSweep (s : State) : State := s.saGen.foldl State.saCheck s

/-- The SCI: address and port identifier 0x0001. -/
def sciOf (mac : Nat) : Bytes := beBytes 6 mac ++ beBytes 2 1

/-- The IV of a frame: SCI and PN, or under XPN the salt with SSCI and PN. -/
def State.secIv (s : State) (p l c : Nat) (sci : Bytes) (pn : Nat) : Bytes :=
  let pg := pgIpp p
  if s.secXpn p l then
    let salt := beBytes 4 (s.get pg c F.ippSaSalt2Salt) ++ beBytes 4 (s.get pg c F.ippSaSalt1Salt) ++
      beBytes 4 (s.get pg c F.ippSaSalt0Salt)
    xorBytes salt (beBytes 4 (s.get pg c F.ippSaSsciSsci) ++ beBytes 8 pn)
  else sci ++ beBytes 4 pn

/-- A frame dropped by MACsec is counted. -/
def State.secDrop (s : State) (p l : Nat) : State := s.bump (pgIpp p) l F.ippSecCntDropped

/-- The PN that a received low half stands for under XPN: the next one at or after the lowest acceptable, less half the
range. -/
def xpnOf (lowest low : Nat) : Nat :=
  let v := lowest / 2 ^ 32 * 2 ^ 32 + low
  if v + 2 ^ 31 < lowest then v + 2 ^ 32 else v

/-- Verify a protected frame, FCS removed: the frame in the clear, or a drop. -/
def State.secOpen (s : State) (p l : Nat) (b : Bytes) : Option Bytes × State :=
  let tci := beAt b 14 1
  let c := saCell l 0 (tci % 4)
  let low := beAt b 16 4
  let lowest := s.saPn p l c
  let pn := if s.secXpn p l then xpnOf lowest low else low
  let body := b.drop 28
  if b.length < 44 ∨ tci / 4 ≠ 0x0B then (none, s.secDrop p l)
  else match s.saKey p c with
    | none => (none, s.secDrop p l)
    | some k =>
      if pn < lowest then (none, s.secDrop p l)
      else match gcmOpen k (s.secIv p l c ((b.drop 20).take 8) pn) (b.take 28) (body.take (body.length - 16))
          (body.drop (body.length - 16)) with
        | none => (none, s.secDrop p l)
        | some x =>
          let low' := pn + 1 - s.get (pgIpp p) c F.ippSaCfgReplayWin
          (some (b.take 12 ++ x), s.putSaPn p l c (max lowest low'))

/-- What a link's MACsec makes of a received frame: the frame in the clear and whether it was protected, or a drop (R146,
R147). EAPOL passes unprotected. -/
def State.secReceive (s : State) (p l : Nat) (b : Bytes) : Option (Bytes × Bool) × State :=
  if !s.secOn p l || decide (etherType b = etEapol) then (some (b, false), s)
  else if beAt b 12 2 = etMacsec then
    match s.secOpen p l b with
    | (some x, s1) => (some (x, true), s1)
    | (none, s1) => (none, s1)
  else
    let s1 := s.bump (pgIpp p) l F.ippSecCntUnprotected
    if s.flag (pgIpp p) l F.ippSecCtrlValidate then (none, s1.secDrop p l) else (some (b, false), s1)

/-- Protect a frame to send, FCS excluded. A PN of 0 stands for one beyond the maximum. -/
def State.secSeal (s : State) (p l : Nat) (b : Bytes) : Option Bytes × State :=
  let an := s.get (pgIpp p) l F.ippSecCtrlTxAn
  let c := saCell l 1 an
  let pn := s.saPn p l c
  match s.saKey p c with
  | none => (none, s.secDrop p l)
  | some k =>
    if pn = 0 then (none, (s.secDrop p l).raise (pgIpp p) 19)
    else
      let data := b.drop 12
      let sci := sciOf (s.linkMac p l)
      let tag := beBytes 2 etMacsec ++ beBytes 1 (0x2C + an) ++ beBytes 1 (if data.length < 48 then data.length else 0) ++
        beBytes 4 pn ++ sci
      let aad := b.take 12 ++ tag
      let (x, t) := gcmSeal k (s.secIv p l c sci pn) aad data
      let next := (pn + 1) % s.pnModulus p l
      let s1 := s.putSaPn p l c next
      let s2 := if next = s.pnModulus p l / 4 * 3 then s1.raise (pgIpp p) 18 else s1
      (some (aad ++ x ++ t), s2)

/-- Send a frame on a link: padded, protected unless it is EAPOL, with its FCS (R129, R146); did it leave? A frame of a muted slot is
built and counted, and not put on the wire (R299). -/
def State.trySend (s : State) (p l : Nat) (muted : Bool) (b : Bytes) : Bool × State :=
  if !s.linkUp p l then (false, s)
  else
    let b1 := padFrame b
    let (r, s1) := if s.secOn p l && decide (etherType b1 ≠ etEapol) then s.secSeal p l b1 else (some b1, s)
    match r with
    | some x => (true, if muted then s1 else s1.emit (.packet p l (x ++ fcsOf x)))
    | none => (false, s1)

/-- Send a frame on a link, whether or not MACsec drops it. -/
def State.sendFrame (s : State) (p l : Nat) (muted : Bool) (b : Bytes) : State := (s.trySend p l muted b).2

/-! ### Stream slots (R130 to R133) -/

/-- A slot that has received and sent nothing. -/
def IpSlot.cold : IpSlot :=
  { newest := none, missing := [], newest1 := none, newest2 := none, lastNs := 0, last1 := 0, last2 := 0, ts := none
    waiting := true, target := none, aligned := false, buffer := [], relTs := none, seq := 0, paced := []
    nextSample := 0 }

/-- A stream slot of a port by its cell. -/
def State.ipSlot (s : State) (p c : Nat) : IpSlot := (Assoc.find Key.code ⟨pgIpp p, c, 0⟩ s.ipSlots).getD IpSlot.cold

/-- Write a stream slot. -/
def State.putIpSlot (s : State) (p c : Nat) (x : IpSlot) : State :=
  { s with ipSlots := Assoc.set Key.code ⟨pgIpp p, c, 0⟩ x s.ipSlots }

/-- Is a slot enabled on a running port? -/
def State.slotOn (s : State) (p c : Nat) : Bool := s.running (pgIpp p) && s.flag (pgIpp p) c F.ippStrmCfgEn

/-- ESSENCE of a slot. -/
def State.essence (s : State) (p c : Nat) : Nat := s.get (pgIpp p) c F.ippStrmCfgEssence

/-- Is a slot's essence audio? -/
def State.slotAudio (s : State) (p c : Nat) : Bool := decide (s.essence p c = 1 ∨ s.essence p c = 2)

/-- The enabled flow bound to a slot. -/
def State.boundFlow (s : State) (p c : Nat) : Option Nat :=
  if c / 64 = 0 then s.flowOn kindIp p c false else s.flowOn kindIp p (c % 64) true

/-- Does a flow's TYPE fit an ESSENCE (R130)? -/
def essenceFits (essence ty : Nat) : Bool :=
  match essence with
  | 0 => decide (ty = typeVideo)
  | 1 => decide (ty = typeAudio)
  | 2 => decide (ty = typeAudio)
  | 3 => decide (ty = typeAnc)
  | _ => false

/-- TYPE_MISMATCH of a slot. -/
def State.typeMismatch (s : State) (p c : Nat) : Bool :=
  match s.boundFlow p c with
  | some f => !essenceFits (s.essence p c) (s.flowType f)
  | none => false

/-- The flow that a slot feeds or carries. -/
def State.slotFlow (s : State) (p c : Nat) : Option Nat :=
  if s.typeMismatch p c then none else s.boundFlow p c

/-- FMT_MISMATCH of a send slot: a video flow whose format differs from its raster's, or that reads a source of other samples (R91,
R138). -/
def State.fmtMismatch (s : State) (p c : Nat) : Bool :=
  match s.slotFlow p c with
  | some f =>
    let r := s.raster (pgIpp p) (s.get (pgIpp p) c F.ippStrmCfgRaster)
    decide (1 ≤ c / 64 ∧ s.essence p c = 0) &&
      (decide (s.get pgFlow f F.flowwinCtx1Struct ≠ r.struct ∨ s.get pgFlow f F.flowwinCtx1Rate ≠ r.rate) ||
        (match s.sourceOf f with
         | some src => (s.run f).mismatch || !s.sameSamples f src || (decide ((s.run f).path = .frameStore) && !s.sameRaster f src)
         | none => false))
  | none => false

/-- KEY_LOST of a slot: an association of one of its paths is orphaned. -/
def State.slotKeyLost (s : State) (p c : Nat) : Bool :=
  let pg := pgIpp p
  let lost := fun (q l : Nat) =>
    if c / 64 = 0 then [0, 1, 2, 3].any fun an => s.flag (pgIpp q) (saCell l 0 an) F.ippSaCfgKeyLost
    else s.flag (pgIpp q) (saCell l 1 (s.get (pgIpp q) l F.ippSecCtrlTxAn)) F.ippSaCfgKeyLost
  lost p (s.get pg c F.ippStrmCfgLink) ||
    (s.flag pg c F.ippStrmCfgPath2En && lost (s.get pg c F.ippStrmPath2Port) (s.get pg c F.ippStrmPath2Link))

/-- Bytes of a pixel group of ST 2110-20. -/
def pixelGroup (sampling depth : Nat) : Nat :=
  match sampling, depth with
  | 0, 0 => 5 | 0, 1 => 6 | 0, 2 => 4
  | 1, 0 => 15 | 1, 1 => 9 | 1, 2 => 3
  | 2, 0 => 15 | 2, 1 => 9 | 2, 2 => 6
  | _, _ => 5

/-- Most bytes of samples in a sent packet under PM (R132). -/
def packetLimit (bpm : Bool) : Nat := if bpm then 1260 else 1200

/-! ### Wire rate (R133) -/

/-- Bytes on the wire around an RTP payload: RTP, UDP, IPv4, Ethernet with FCS and tag, preamble, gap, MACsec. -/
def wireOverhead (vlan sec : Bool) : Nat := 12 + 8 + 20 + 18 + 8 + 12 + (if vlan then 4 else 0) + (if sec then 32 else 0)

/-- Bits per second of a send slot on the wire, times the denominator of its rate. An ancillary stream counts with one packet
without records in each frame or field, for no rule fixes its payload (log entry 150). `get` reads the settings under judgement. -/
def State.streamBits (s : State) (p c : Nat) (get : Field → Nat) (sec : Bool) : Nat × Nat :=
  match s.boundFlow p c with
  | none => (0, 1)
  | some f =>
    let vlan := decide (get F.ippStrmCfgVlanEn = 1)
    let ovh := wireOverhead vlan sec
    if s.essence p c = 0 then
      let st := s.get pgFlow f F.flowwinCtx1Struct
      let rt := s.get pgFlow f F.flowwinCtx1Rate
      let sa := s.get pgFlow f F.flowwinCtx1Sampling
      let de := s.get pgFlow f F.flowwinCtx1Depth
      let line := lineBytes st sa de
      let g := pixelGroup sa de
      let most := packetLimit (decide (get F.ippStrmCfgPm = 1)) / g * g
      let packets := ceilDiv line most
      ((line + packets * (ovh + 8)) * fmtHeight st * 8 * rateNum rt, rateDen rt)
    else if s.slotAudio p c then
      let hz := srateHz (s.flowSrate f)
      let n := packetSamples hz (decide (get F.ippStrmCfgPtime = 1))
      let pay := s.flowChannels f * n * sampleBytes (s.essence p c) (decide (get F.ippStrmCfgL16 = 1))
      ((pay + ovh) * 8 * hz, max n 1)
    else
      let st := s.get pgFlow f F.flowwinCtx1Struct
      let rt := s.get pgFlow f F.flowwinCtx1Rate
      ((8 + ovh) * 8 * rateNum rt * (if fmtInterlaced st then 2 else 1), rateDen rt)

/-- Bits per second that a send slot puts on a link, rounded up: on the link of path 1 and on that of path 2. -/
def State.streamLoad (s : State) (p c q l : Nat) (get : Field → Nat) : Nat :=
  let on1 := decide (q = p ∧ l = s.get (pgIpp p) c F.ippStrmCfgLink)
  let on2 := decide (get F.ippStrmCfgPath2En = 1 ∧ q = get F.ippStrmPath2Port ∧ l = get F.ippStrmPath2Link)
  let b := s.streamBits p c get (s.secOn q l)
  (if on1 then ceilDiv b.1 b.2 else 0) + (if on2 then ceilDiv b.1 b.2 else 0)

/-- Bits per second of a link. -/
def State.linkBits (s : State) (p : Nat) : Nat := if s.linkCount p = 1 then 100000000000 else 25000000000

/-- The load of a link with one slot under new settings: the committed send slots of every port that carry a flow, enabled or not. -/
def State.linkLoad (s : State) (q l p c : Nat) (get : Field → Nat) : Nat :=
  s.streamLoad p c q l get +
    ((List.range 8).flatMap fun p' => (List.range 64).map fun n => (p', strmCell 1 n)).foldl (fun a e =>
      if e.1 ≠ p ∨ e.2 ≠ c then
        a + s.streamLoad e.1 e.2 q l fun f => s.get (pgIpp e.1) e.2 f
      else a) 0

/-- Would a link carry more than 99 % of its rate? -/
def State.oversubscribed (s : State) (q l p c : Nat) (get : Field → Nat) : Bool :=
  decide (99 * s.linkBits q < 100 * s.linkLoad q l p c get)

/-! ### Commits (R132, R133, R135, R142) -/

/-- Is an IPv4 address multicast? -/
def isMulticast (a : Nat) : Bool := decide (a / 2 ^ 28 = 0xE)

/-- Does a commit break a limit of R132, R135 or R142? -/
def State.strmLimits (s : State) (p c : Nat) : Bool :=
  let pg := pgIpp p
  let get := fun f => s.getShadow pg c f
  let send := decide (1 ≤ c / 64)
  let pathBits := fun q => s.linkCount q
  (send && decide (get F.ippStrmCfgPath2En = 1) && !(isMulticast (get F.ippStrmDstAddr) && isMulticast (get F.ippStrmDst2Addr))) ||
  (match s.slotFlow p c with
   | none => false
   | some f =>
     let st := s.get pgFlow f F.flowwinCtx1Struct
     let rt := s.get pgFlow f F.flowwinCtx1Rate
     let hz := srateHz (s.flowSrate f)
     let n := packetSamples hz (decide (get F.ippStrmCfgPtime = 1))
     let ch := s.flowChannels f
     (!send && decide (get F.ippStrmCfgRelease = 1) &&
       (if s.slotAudio p c then decide (1000 * get F.ippStrmDelayRxDelay > hz)
        else decide (1000000 < nsOf st rt (get F.ippStrmDelayRxDelay)))) ||
     (decide (s.essence p c = 0) && decide (st = 6) &&
       (decide (pathBits p ≠ 1) ||
        (decide (get F.ippStrmCfgPath2En = 1) && decide (pathBits (get F.ippStrmPath2Port) ≠ 1)))) ||
     (s.slotAudio p c && (decide (s.flowSrate f ≠ 2 ∧ s.flowSrate f ≠ 4) ||
       decide (1440 < ch * n * sampleBytes (s.essence p c) (decide (get F.ippStrmCfgL16 = 1))))) ||
     (decide (s.essence p c = 2) && decide (ch % 2 = 1)))

/-- The error of a commit that is refused: STRM_CFG or TX_OVERSUB. -/
def State.strmRefused (s : State) (p c : Nat) : Option Nat :=
  let pg := pgIpp p
  let get := fun f => s.getShadow pg c f
  if s.strmLimits p c then some 17
  else if decide (1 ≤ c / 64) &&
      (s.oversubscribed p (s.get pg c F.ippStrmCfgLink) p c get ||
       (decide (get F.ippStrmCfgPath2En = 1) &&
        s.oversubscribed (get F.ippStrmPath2Port) (get F.ippStrmPath2Link) p c get)) then some 16
  else none

/-- Bytes of the release buffer of a slot: its payload over RX_DELAY and one line. -/
def State.releaseBytes (s : State) (p c f : Nat) : Nat :=
  let st := s.get pgFlow f F.flowwinCtx1Struct
  let rt := s.get pgFlow f F.flowwinCtx1Rate
  let delay := s.get (pgIpp p) c F.ippStrmDelayRxDelay
  if s.slotAudio p c then
    (delay + ceilDiv (srateHz (s.flowSrate f) * nsOf st rt (fmtSamples st rt)) 1000000000) * s.flowChannels f * 4
  else (delay + fmtSamples st rt + fmtSamples st rt - 1) / fmtSamples st rt *
    lineBytes st (s.get pgFlow f F.flowwinCtx1Sampling) (s.get pgFlow f F.flowwinCtx1Depth)

/-- The bytes of a slot's release buffer, 0 without one. -/
def State.releaseHeld (s : State) (pg c : Nat) : Nat := ((s.allocs.find? fun a => decide (a.owner = (pg, c))).map Alloc.size).getD 0

/-- The release buffer of a receive slot is allocated at its commit; without room the slot stays in ARRIVAL (R135). A commit that
leaves the buffer as it is leaves the release undisturbed. -/
def State.takeRelease (s : State) (p c : Nat) : State :=
  let pg := pgIpp p
  let off := fun (s : State) => (s.release (pg, c)).putIpSlot p c { s.ipSlot p c with aligned := false, buffer := [] }
  if c / 64 = 0 ∧ s.flag pg c F.ippStrmCfgRelease = true then
    match s.slotFlow p c with
    | none => off s
    | some f =>
      let need := max 1 (s.releaseBytes p c f)
      if s.releaseHeld pg c = need then s
      else match (if s.hbm = .ready then (s.release (pg, c)).allocate (pg, c) need else none) with
        | some (_, s2) => s2
        | none => ((off s).put pg c F.ippStrmCfgRelease 0).setErr pg 18
  else off s

/-- A slot's commit applies, or is refused (R133). -/
def State.applyStrm (s : State) (p c : Nat) : State :=
  let pg := pgIpp p
  let u := unitStrm c
  match s.strmRefused p c with
  | some e => (s.refuseCommit pg u e).thaw pg u
  | none => (((s.unstage pg u).applyCommit pg u).takeRelease p c).putIpSlot p c
      { (((s.unstage pg u).applyCommit pg u).takeRelease p c).ipSlot p c with target := none }

/-- RECEIVING of a slot. -/
def State.receiving (s : State) (p c : Nat) : Bool := s.flag (pgIpp p) c F.ippStrmStatusReceiving

/-- The RTP timestamp at which a pair applies the commit of a receiving slot (R302): two frame periods on, or 1 ms rounded up
to a packet for audio. -/
def State.pairTarget (s : State) (p c : Nat) : Option Nat :=
  if 4 ≤ s.pairing then
    match (s.ipSlot p c).ts, s.slotFlow p c with
    | some t, some f =>
      if s.slotAudio p c then
        let hz := srateHz (s.flowSrate f)
        let n := packetSamples hz (s.flag (pgIpp p) c F.ippStrmCfgPtime)
        some ((t + ceilDiv (packetSamples hz false) (max n 1) * n) % 2 ^ 32)
      else
        let rt := s.get pgFlow f F.flowwinCtx1Rate
        some ((t + 2 * 90000 * rateDen rt / rateNum rt) % 2 ^ 32)
    | _, _ => none
  else none

/-- The target of a commit: what the lead told this shadow, or what this device takes for the pair (R302; log entry 238). -/
def State.strmTarget (s : State) (p c : Nat) : Option Nat :=
  match s.decided (pgIpp p) c with
  | some [t] => some t
  | _ => s.pairTarget p c

/-- A write of STRM_COMMIT: CANCEL, then COMMIT; a slot that does not run, or a receive slot that is not receiving, applies
at once. -/
def State.writeStrmCommit (s : State) (p c w : Nat) : State :=
  let pg := pgIpp p
  let u := unitStrm c
  let s1 := if bit w 5 then (s.cancelCommit pg u).putIpSlot p c { s.ipSlot p c with target := none } else s
  if !bit w 0 then s1
  else if s1.commitPending pg u then s1
  else
    let s2 := s1.requestCommit pg u
    if !s2.slotOn p c || (decide (c / 64 = 0) && !s2.receiving p c) then
      (match s2.slotFlow p c with
        | some f => if c / 64 = 0 then s2.waive waiveCommit f else s2
        | none => s2).applyStrm p c
    else if c / 64 = 0 then
      let t := s2.strmTarget p c
      (s2.share pg c t.toList).putIpSlot p c { s2.ipSlot p c with target := t }
    else s2

/-- The slot that STRM_INDEX selects. -/
def State.strmSelected (s : State) (p : Nat) : Nat :=
  strmCell (s.get (pgIpp p) 0 F.ippStrmIndexDir) (s.get (pgIpp p) 0 F.ippStrmIndexSlot)

/-- STRM_COMMIT (R133). -/
def execStrmCommit (m p : Fin 8) (s : State) : Host.Outcome State Fault Refusal :=
  .next (s.write m (pgIpp p) 0x2B0 1 fun s => s.writeStrmCommit p (s.strmSelected p) 1)

/-- STRM_COMMIT_CANCEL (R38, R133), with or without a new request. -/
def execStrmCommitCancel (m p : Fin 8) (commit : Bool) (s : State) : Host.Outcome State Fault Refusal :=
  let w := 32 + ofBool commit
  .next (s.write m (pgIpp p) 0x2B0 w fun s => s.writeStrmCommit p (s.strmSelected p) w)

/-- The send slots that follow a raster: their commits apply at the capture instant of its commit point (R133). -/
def State.strmCapture (s : State) (p raster : Nat) : State :=
  (List.range 64).foldl (fun s n =>
    let c := strmCell 1 n
    let due := match (s.unit (pgIpp p) (unitStrm c)).frame with
      | some f => decide (f ≤ s.rasterNext (pgIpp p) raster)
      | none => true
    if s.commitPending (pgIpp p) (unitStrm c) && s.slotOn p c && !s.slotAudio p c && due &&
        decide (s.get (pgIpp p) c F.ippStrmCfgRaster = raster) then s.applyStrm p c else s) s

/-- A slot's IDLE and SHADOW fields, then EN: a receive slot that is switched off receives nothing. -/
def State.writeStrmCfg (s : State) (p c w : Nat) : State :=
  let pg := pgIpp p
  let run := s.slotOn p c
  let s1 := s.writeFields pg c run w (fieldsAt pg 0x284)
  if run && F.ippStrmCfgEn.extract w = 0 then
    let s2 := ((s1.put pg c F.ippStrmStatusReceiving 0).put pg c F.ippStrmStatusPath1Up 0).put pg c F.ippStrmStatusPath2Up 0
    let s3 := s2.putIpSlot p c { IpSlot.cold with seq := (s2.ipSlot p c).seq, nextSample := (s2.ipSlot p c).nextSample }
    let s4 := match s3.slotFlow p c with
      | some f => if c / 64 = 0 then s3.putRun f { s3.run f with producing := false } else s3
      | none => s3
    if s4.commitPending pg (unitStrm c) then s4.applyStrm p c else s4
  else s1

end Sys2Proof.Machine
end

