-- ==== Sys2Proof/Machine/IpRx.lean ====
section
/-! DEFINITION. IP ports, receiving: matching, ST 2110 payloads, release, loss, the host receive queue, PTP (R131, R132,
R134 to R137, R141, R143 to R145, R149). -/

namespace Sys2Proof.Machine

/-! ### UDP and RTP (R131) -/

/-- What a slot is matched on: VLAN ID, addresses, UDP ports, and the UDP payload. -/
structure IpHead where
  vlan : Option Nat
  src : Nat
  dst : Nat
  udp : Nat
  payload : Bytes

/-- An unfragmented IPv4 packet without options that carries UDP. -/
def ipHead (b : Bytes) : Option IpHead :=
  let o := etherOffset b + 2
  let u := o + 20
  if etherType b = etIp ∧ beAt b o 1 = 0x45 ∧ beAt b (o + 6) 2 % 0x4000 = 0 ∧ beAt b (o + 9) 1 = 17 ∧ u + 8 ≤ b.length then
    some { vlan := vlanOf b, src := beAt b (o + 12) 4, dst := beAt b (o + 16) 4, udp := beAt b (u + 2) 2
           payload := (b.drop (u + 8)).take (beAt b (u + 4) 2 - 8) }
  else none

/-- Does a slot take a packet on one of its paths? -/
def State.pathMatches (s : State) (q c p l : Nat) (h : IpHead) (second : Bool) : Bool :=
  let pg := pgIpp q
  let get := fun f => s.get pg c f
  let (port, link, dst, src, vlan) :=
    if second then (get F.ippStrmPath2Port, get F.ippStrmPath2Link, get F.ippStrmDst2Addr, get F.ippStrmSrc2Addr,
      get F.ippStrmPath2Vlan)
    else (q, get F.ippStrmCfgLink, get F.ippStrmDstAddr, get F.ippStrmSrcAddr, get F.ippStrmCfgVlan)
  decide (port = p ∧ link = l ∧ h.dst = dst ∧ h.udp = get F.ippStrmPortUdp) &&
    decide (h.vlan = if get F.ippStrmCfgVlanEn = 1 then some vlan else none) &&
    (decide (get F.ippStrmCfgSrcFilt = 0) || decide (h.src = src)) &&
    (!second || decide (get F.ippStrmCfgPath2En = 1))

/-- The ports in the order in which their slots are tried: the receiving port's own first (log entry 19). -/
def portOrder (p : Nat) : List Nat := p :: (List.range 8).filter fun q => decide (q ≠ p)

/-- The first receive slot that takes a packet, and whether on path 2. -/
def State.matchSlot (s : State) (p l : Nat) (h : IpHead) : Option (Nat × Nat × Bool) :=
  ((portOrder p).flatMap fun q => (List.range 64).map fun c => (q, c)).findSome? fun e =>
    if s.slotOn e.1 e.2 then
      if s.pathMatches e.1 e.2 p l h false then some (e.1, e.2, false)
      else if s.pathMatches e.1 e.2 p l h true then some (e.1, e.2, true) else none
    else none

/-- The fields of an RTP packet. -/
structure RtpHead where
  marker : Bool
  pt : Nat
  seq : Nat
  ts : Nat
  payload : Bytes

/-- An RTP packet of version 2. -/
def rtpHead (b : Bytes) : Option RtpHead :=
  let b0 := beAt b 0 1
  let csrc := 12 + 4 * (b0 % 16)
  let off := if bit b0 4 then csrc + 4 + 4 * beAt b (csrc + 2) 2 else csrc
  let pad := if bit b0 5 then beAt b (b.length - 1) 1 else 0
  if b0 / 64 = 2 ∧ off + pad ≤ b.length then
    some { marker := bit (beAt b 1 1) 7, pt := beAt b 1 1 % 128, seq := beAt b 2 2, ts := beAt b 4 4
           payload := (b.take (b.length - pad)).drop off }
  else none

/-! ### ST 2110-20 (R132) -/

/-- The headers of the sample rows of a -20 payload: length, field, line, offset in pixels. -/
def srdHeads : Nat → Bytes → List (Nat × Bool × Nat × Nat)
  | 0, _ => []
  | n + 1, b =>
    let h := (beAt b 0 2, bit (beAt b 2 2) 15, beAt b 2 2 % 0x8000, beAt b 4 2 % 0x8000)
    if bit (beAt b 4 2) 15 then h :: srdHeads n (b.drop 6) else [h]

/-- The raster line of a line of the picture, or of a field. -/
def pictureLine (struct line : Nat) (second : Bool) : Nat := (fmtFirstActive struct).getD (if second then 1 else 0) 1 + line

/-- Rows cut from a payload: raster line, byte offset in the packed line, bytes. -/
def srdRows (struct sampling depth : Nat) : List (Nat × Bool × Nat × Nat) → Bytes → List (Nat × Nat × Bytes)
  | [], _ => []
  | (n, f, l, o) :: t, b =>
    (pictureLine struct l f, o * samplingWords sampling * depthBits depth / 16, b.take n) ::
      srdRows struct sampling depth t (b.drop n)

/-- The rows of a -20 payload; none where it does not fit the flow's format. -/
def State.videoRows (s : State) (f : Nat) (b : Bytes) : Option (List (Nat × Nat × Bytes)) :=
  let st := s.get pgFlow f F.flowwinCtx1Struct
  let sa := s.get pgFlow f F.flowwinCtx1Sampling
  let de := s.get pgFlow f F.flowwinCtx1Depth
  let hs := srdHeads 3 (b.drop 2)
  let g := pixelGroup sa de
  let total := hs.foldl (fun n h => n + h.1) 0
  let ok := hs.all fun h =>
    decide (h.1 ≠ 0 ∧ h.1 % g = 0 ∧ h.2.2.1 < fmtFieldHeight st) && (fmtInterlaced st || !h.2.1) &&
      decide (h.2.2.2 * samplingWords sa * depthBits de / 16 + h.1 ≤ lineBytes st sa de)
  if ok ∧ 2 + 6 * hs.length + total ≤ b.length then some (srdRows st sa de hs (b.drop (2 + 6 * hs.length))) else none

/-! ### ST 2110-40 (R132, R119) -/

/-- n bits of a byte string from a bit offset. -/
def bitsFrom (b : Bytes) (off n : Nat) : Nat :=
  let k := (off % 8 + n + 7) / 8
  beAt b (off / 8) k / 2 ^ (8 * k - off % 8 - n) % 2 ^ n

/-- The words of a packet's user data. -/
def ancWords (b : Bytes) (off : Nat) : Nat → List Nat
  | 0 => []
  | n + 1 => bitsFrom b off 10 :: ancWords b (off + 10) n

/-- The records of a -40 payload from a bit offset; none where it is cut short. An offset behind the active width lies in
the horizontal area (log entry 20). -/
def ancRecords (width : Nat) (b : Bytes) (off : Nat) : Nat → Option (List AncRecord)
  | 0 => some []
  | n + 1 =>
    let dc := bitsFrom b (off + 54) 8
    let size := (72 + 10 * dc + 31) / 32 * 32
    if off + size ≤ 8 * b.length then
      let h := bitsFrom b (off + 12) 12
      let x : AncRecord :=
        { stream := 0, line := bitsFrom b (off + 1) 11, hanc := decide (width ≤ h), ds := bitsFrom b (off + 25) 7
          offset := if width ≤ h then h - width else h, did := bitsFrom b (off + 34) 8, sdid := bitsFrom b (off + 44) 8
          words := ancWords b (off + 62) dc }
      (ancRecords width b (off + size) n).map fun t => x :: t
    else none

/-- The records of a -40 packet. -/
def State.ancPayload (s : State) (f : Nat) (b : Bytes) : Option (List AncRecord) :=
  if b.length < 8 then none
  else ancRecords (fmtWidth (s.get pgFlow f F.flowwinCtx1Struct)) b 64 (beAt b 4 1)

/-! ### Video into the core (R134) -/

/-- Bytes laid over others from an offset. -/
def overlay (base : Bytes) (off : Nat) (b : Bytes) : Bytes := base.take off ++ b ++ base.drop (off + b.length)

/-- The line-seal state of a fragment that the Vat holds. -/
def State.sealAt (s : State) (f line k : Nat) : Nat :=
  ((Assoc.find Key.code (fragKey f line (k / 32) (k % 32)) s.frags).map Fragment.sealState).getD 0

/-- Write the fragments of a line that a range of its bytes touches; each continues the seal of the one before. -/
def State.writeRange (s : State) (at_ f line off n : Nat) (whole : Bytes) : State :=
  (List.range ((off + n + 7) / 8 - off / 8)).foldl (fun s i =>
    let k := off / 8 + i
    let b := (whole.drop (8 * k)).take 8
    s.writeFragAt at_ f line (k / 32) (k % 32) b (Config.lineSeal (if k = 0 then 0 else s.sealAt f line (k - 1)) b)) s

/-- The line in progress of an IP stream's flow ends: its signature, its frame store. -/
def State.ipCloseLine (s : State) (at_ f : Nat) : State :=
  let r := s.run f
  if r.partLine.isEmpty then s
  else (s.putRun f { r with sig := lineSignature r.sig (s.get pgFlow f F.flowwinCtx1Depth) r.partLine }).endLineAt at_ f

/-- A line of an IP stream's flow begins with the co-sited samples of the line before. -/
def State.ipBeginLine (s : State) (at_ f line : Nat) (before : Bytes) : State :=
  let n := lineBytes (s.get pgFlow f F.flowwinCtx1Struct) (s.get pgFlow f F.flowwinCtx1Sampling)
    (s.get pgFlow f F.flowwinCtx1Depth)
  let b := fit n before
  (s.putRun f { s.run f with producing := true, line := line, lineNs := at_, lastSegNs := s.now, partLine := b
                             errored := false }).writeRange at_ f line 0 n b

/-- Active lines between two lines. -/
def linesBetween (struct a b : Nat) : List Nat := ((List.range b).filter fun l => decide (a < l)).filter (fmtActive struct)

/-- The line before the next one of an IP stream's flow, whose samples stand for missing ones. -/
def State.ipBefore (s : State) (f : Nat) : Bytes :=
  let r := s.run f
  if r.partLine.isEmpty then
    let n := if r.line = 0 then fmtLastActive (s.get pgFlow f F.flowwinCtx1Struct) else r.line
    (s.frags.filter fun e => decide (e.1.page = f ∧ e.1.cell = n)).flatMap fun e => e.2.bytes
  else r.partLine

/-- The line in progress ends, and the active lines up to a further one, which were lost, repeat it (R134). -/
def State.ipFill (s : State) (at_ f upto : Nat) : State :=
  let before := s.ipBefore f
  (linesBetween (s.get pgFlow f F.flowwinCtx1Struct) (s.run f).line upto).foldl
    (fun s l => (s.ipBeginLine at_ f l before).ipCloseLine at_ f) (s.ipCloseLine at_ f)

/-- Samples of a line that has passed go into the buffer that holds it: of the frame in progress, or of the newest complete one. -/
def State.patchStore (s : State) (f line off : Nat) (b : Bytes) (past : Bool) : State :=
  match (s.run f).store with
  | some st =>
    match st.buffers.find? (fun x => x.complete == past) with
    | some x =>
      let x' := { x with lines := x.lines.map fun e => if e.1 = line then (e.1, e.2.1, overlay e.2.2 off b) else e }
      s.putRun f { s.run f with store := some { st with buffers := st.buffers.map fun y => if y.seq = x.seq then x' else y } }
    | none => s
  | none => s

/-- Samples of a line that has passed, in the frame in progress or the one before: the Vat takes them where it holds that line still. -/
def State.ipPatch (s : State) (f : Nat) (past : Bool) (x : Nat × Nat × Bytes) : State :=
  let (line, off, b) := x
  let s1 := match (if past && decide (line ≤ (s.run f).line) then none else s.vatLine f line) with
    | some old => s.writeRange s.now f line off (old.length - off) (overlay old off b)
    | none => s
  s1.patchStore f line off b past

/-- Samples of a line arrive: a further line begins, lines left out on the way repeat the one before; samples of a line
already passed are put into it. -/
def State.ipSamples (s : State) (at_ f : Nat) (x : Nat × Nat × Bytes) : State :=
  let (line, off, b) := x
  let r := s.run f
  if r.producing ∧ line < r.line then s.ipPatch f false x
  else
    let s1 :=
      if r.producing ∧ line = r.line ∧ r.partLine.isEmpty = false then s
      else
        let before := s.ipBefore f
        (if r.producing then s.ipFill at_ f line else s.ipCloseLine at_ f).ipBeginLine at_ f line before
    let whole := overlay (s1.run f).partLine off b
    (s1.putRun f { s1.run f with partLine := whole, lastSegNs := s1.now, lost := false }).writeRange at_ f line off b.length whole

/-- A frame of an IP stream's flow ends, or with its marker the first field of one; lines lost at the end repeat the one before. -/
def State.ipEndFrame (s : State) (at_ f : Nat) (marker : Bool) : State :=
  let st := s.get pgFlow f F.flowwinCtx1Struct
  let l := (s.run f).line
  if l = 0 then s
  else if marker && fmtInterlaced st && decide (fieldOf st l = 0) then s.ipFill at_ f ((fmtFirstActive st).getD 1 l)
  else
    let s1 := (s.ipFill at_ f (fmtLines st + 1)).aliveFrame f
    s1.putRun f { s1.run f with line := 0 }

/-- Does a packet of another timestamp begin a further frame: not one that goes on with the second field? -/
def State.ipNextFrame (s : State) (f line : Nat) : Bool :=
  let st := s.get pgFlow f F.flowwinCtx1Struct
  !(fmtInterlaced st && decide (fieldOf st line = 1 ∧ (s.run f).line ≠ 0 ∧ fieldOf st (s.run f).line = 0))

/-! ### Audio and ancillary data into the core -/

/-- A sample of n bytes: L16, L24, or an AES3 subframe, whole, with its audio in the low 24 bits (R132; log entry 151). -/
def sampleOf (n v : Nat) : Nat := if n = 2 then v * 256 else v % 2 ^ (8 * n)

/-- When the last sample of an audio flow's first channel fell. -/
def State.lastSample (s : State) (f : Nat) : Option Nat :=
  (s.audRun f).bind fun a => (Tab.at [] s.inputs a.base).head?.map Prod.fst

/-- Sample times of an audio flow from an instant on, so many, each with the samples of all channels or none. -/
def State.feedAll (s : State) (f first : Nat) (l : List (Option (List Nat))) : State :=
  let hz := srateHz (s.flowSrate f)
  l.zipIdx.foldl (fun s x =>
    (List.range (s.flowChannels f)).foldl (fun s ch =>
      s.feed f ch (first + x.2 * 1000000000 / hz) (x.1.map fun v => v.getD ch 0)) s) s

/-- The samples of an audio packet, by sample time. -/
def audioFrames (n ch : Nat) (b : Bytes) : List (List Nat) :=
  (List.range (b.length / (n * ch))).map fun i => (List.range ch).map fun c => sampleOf n (beAt b (n * (ch * i + c)) n)

/-- An audio packet passes into the core: its first sample falls at an instant, or a period behind the last where that is later; so many
sample times before it are missing (R134, R241). -/
def State.ipAudio (s : State) (f n missing at_ : Nat) (b : Bytes) : State :=
  let period := s.flowPeriod f
  let first := match s.lastSample f with
    | some t => max at_ (t + (missing + 1) * period)
    | none => at_
  let s1 := s.feedAll f (first - missing * period) (List.replicate missing none)
  s1.feedAll f first ((audioFrames n (max 1 (s.flowChannels f)) b).map some)

/-- A sample that was missing comes late: channel k takes it where the i-th sample behind the newest is missing. -/
def State.refill (s : State) (f k i v : Nat) : State :=
  match s.audRun f with
  | some a =>
    let l := Tab.at [] s.inputs (a.base + k)
    match l[i]? with
    | some (t, none) =>
      let s1 := { s with inputs := Tab.put (a.base + k) (l.set i (t, some v)) s.inputs }
      (s1.flows.filter fun g => s1.isIngress g && s1.flag pgFlow g F.flowwinCtx5AfEn &&
          decide (s1.get pgFlow g F.flowwinCtx5AfFlow = f)).foldl (fun s g =>
        match (s.run g).store with
        | some st => s.putRun g { s.run g with store := some { st with buffers := st.buffers.map fun b =>
            { b with audio := b.audio.map fun e => if e = (t - b.begunNs, k, none) then (e.1, e.2.1, some v) else e } } }
        | none => s) s1
    | _ => s
  | none => s

/-- A late audio packet, so many packets behind the newest: its samples take the places of the missing ones. -/
def State.ipAudioLate (s : State) (f n behind : Nat) (b : Bytes) : State :=
  let l := audioFrames n (max 1 (s.flowChannels f)) b
  l.zipIdx.foldl (fun s x =>
    x.1.zipIdx.foldl (fun s y => s.refill f y.2 (behind * l.length + (l.length - 1 - x.2)) y.1) s) s

/-- Ancillary records go to the readers of the flow. -/
def State.ipAnc (s : State) (f : Nat) (l : List AncRecord) : State := l.foldl (fun s x => s.ancDeliver f x) s

/-! ### ALIGNED (R135, R136) -/

/-- Do the conditions of ALIGNED hold on the governing timebase of a flow? -/
def State.alignOk (s : State) (f : Nat) : Bool :=
  let k := s.get pgFlow f F.flowwinCtx0Tb
  decide (s.tbSource k = srcPtp) && (s.tb k).lockedSinceAcquire

/-- The 90 kHz alignment value of half frame h of a rate (R61, R140). -/
def alignValue (rate h : Nat) : Nat := h * rateDen rate * 90000 / (2 * rateNum rate) % 2 ^ 32

/-- The instant at which half frame h of a timebase begins. -/
def Timebase.halfNs (t : Timebase) (h : Nat) : Int :=
  (t.startNs : Int) + ((h : Int) - 2 * t.frame) * rateDen t.rate * 500000000 / rateNum t.rate

/-- The instant of the frame nearest now whose alignment value is an RTP timestamp; fields count by halves. -/
def State.frameInstant (s : State) (k ts : Nat) : Option Int :=
  let t := s.tb k
  ((List.range 33).map fun i => 2 * t.frame + i - 16).findSome? fun h =>
    if alignValue t.rate h = ts then some (t.halfNs (h / 2 * 2)) else none

/-- When line L of the frame with an RTP timestamp begins release. -/
def State.lineDue (s : State) (p c f ts line : Nat) : Option Int :=
  let st := s.get pgFlow f F.flowwinCtx1Struct
  let rt := s.get pgFlow f F.flowwinCtx1Rate
  (s.frameInstant (s.get pgFlow f F.flowwinCtx0Tb) ts).map fun t =>
    t + (nsOf st rt ((line - 1) * fmtSamples st rt + s.get (pgIpp p) c F.ippStrmDelayRxDelay) : Nat)

/-- When an audio packet's first sample is released: RX_DELAY samples after its PTP instant. -/
def State.audioDue (s : State) (p c f ts : Nat) : Option Int :=
  let hz := srateHz (s.flowSrate f)
  let k := s.get pgFlow f F.flowwinCtx0Tb
  if (s.taiNs k s.now).isSome then
    let n := (s.tb k).mediaCount s.now hz
    let d := signedOf 32 ((ts + 2 ^ 32 - n % 2 ^ 32) % 2 ^ 32)
    some ((s.tb k).mediaNs (n + d + s.get (pgIpp p) c F.ippStrmDelayRxDelay) hz)
  else none

/-- Does a packet come too late for its release at an instant, or too early: more than RX_DELAY and one line ahead (R135)? -/
def State.mistimed (s : State) (p c f : Nat) (due : Option Int) : Bool :=
  let st := s.get pgFlow f F.flowwinCtx1Struct
  let rt := s.get pgFlow f F.flowwinCtx1Rate
  let delay := s.get (pgIpp p) c F.ippStrmDelayRxDelay
  let most := s.linesNs f 1 + (if s.slotAudio p c then delay * 1000000000 / srateHz (s.flowSrate f) else nsOf st rt delay)
  match due with
  | some d => decide (d ≤ s.now ∨ (s.now : Int) + most < d)
  | none => true

/-- A piece of a packet enters the release buffer. -/
def State.intoBuffer (s : State) (p c : Nat) (due : Option Int) (x : RelPiece) : State :=
  match due with
  | some d => s.putIpSlot p c { s.ipSlot p c with buffer := (s.ipSlot p c).buffer ++ [{ x with dueNs := d.toNat }] }
  | none => s

/-- Samples missing between the last of an audio flow and an instant. -/
def State.samplesMissing (s : State) (f at_ : Nat) : Nat :=
  let period := s.flowPeriod f
  match s.lastSample f with
  | some t => min ((at_ - t + period / 2) / period - 1) (64 * packetSamples (srateHz (s.flowSrate f)) false)
  | none => 0

/-- One piece of released content passes into the core at its instant; one of another frame ends the frame in progress. -/
def State.releasePiece (p c f : Nat) (s : State) (x : RelPiece) : State :=
  if s.slotAudio p c then
    s.ipAudio f (sampleBytes (s.essence p c) (s.flag (pgIpp p) c F.ippStrmCfgL16)) (s.samplesMissing f x.dueNs) x.dueNs x.bytes
  else if s.essence p c = 3 then s.ipAnc f x.anc
  else
    let s0 := if (s.ipSlot p c).relTs ≠ some x.ts ∧ s.ipNextFrame f x.line = true then s.ipEndFrame x.dueNs f false else s
    let s1 := (s0.putIpSlot p c { s0.ipSlot p c with relTs := some x.ts }).ipSamples x.dueNs f (x.line, x.off, x.bytes)
    if x.last then s1.ipEndFrame x.dueNs f true else s1

/-- IP_LINE_RELEASE (R135): what is due first passes into the core. -/
def State.lineRelease (s : State) (p c : Nat) : State :=
  let x := s.ipSlot p c
  let due := x.buffer.filter fun e => decide (e.dueNs ≤ s.now)
  match due.foldl (fun m e => match m with | none => some e.dueNs | some n => some (min n e.dueNs)) none, s.slotFlow p c with
  | some d, some f =>
    let hit := x.buffer.filter fun e => decide (e.dueNs = d)
    hit.foldl (State.releasePiece p c f) (s.putIpSlot p c { x with buffer := x.buffer.filter fun e => decide (e.dueNs ≠ d) })
  | _, _ => s

/-- A slot with a release buffer changes to ALIGNED where its timebase allows it; one whose flow was bound after its commit is given the
buffer now (R135, R136). -/
def State.alignSlot (s : State) (p c f : Nat) : State :=
  let s1 := if s.releaseHeld (pgIpp p) c = 0 then s.takeRelease p c else s
  s1.putIpSlot p c { s1.ipSlot p c with aligned := s1.alignOk f && decide (s1.releaseHeld (pgIpp p) c ≠ 0) }

/-- The receive slots of a timebase's flows change to ALIGNED, or back, at a frame boundary (R136). -/
def State.alignAt (s : State) (k : Nat) : State :=
  ((List.range 8).flatMap fun p => (List.range 64).map fun c => (p, c)).foldl (fun s e =>
    match (if s.slotOn e.1 e.2 then s.slotFlow e.1 e.2 else none) with
    | some f =>
      if s.get pgFlow f F.flowwinCtx0Tb = k ∧ s.flag (pgIpp e.1) e.2 F.ippStrmCfgRelease = true then
        s.alignSlot e.1 e.2 f
      else s
    | none => s) s

/-! ### A packet of a slot (R131, R134, R137, R141) -/

/-- The window of ARRIVAL (R134). -/
abbrev windowArrival : Nat := 64

/-- How far behind the newest packet a slot still takes one: 64 in ARRIVAL (R134); in ALIGNED its release decides, and the numbers that
have come are remembered over 16,384 packets (log entry 149). -/
def IpSlot.window (x : IpSlot) : Nat := if x.aligned then 16384 else windowArrival

/-- How a sequence number comes: too far behind, a second copy, or taken, with the packets that the window passes unfilled, and
whether it is the newest. -/
inductive Arrival where
  | late | copy
  | taken (x : IpSlot) (lost : Nat) (newest : Bool)

/-- A sequence number against those that have come. -/
def IpSlot.sequence (x : IpSlot) (modulus q : Nat) : Arrival :=
  match x.newest with
  | none => .taken { x with newest := some q, missing := [] } 0 true
  | some n =>
    let d := (q + modulus - n) % modulus
    let w := x.window
    if 0 < d ∧ d < modulus / 2 then
      let stay := x.missing.filter fun e => decide ((q + modulus - e) % modulus ≤ w)
      let skipped := min (d - 1) w
      .taken { x with
          newest := some q, missing := ((List.range skipped).map fun i => (q + modulus - 1 - i) % modulus) ++ stay }
        (x.missing.length - stay.length + (d - 1 - skipped)) true
    else if q ∈ x.missing then .taken { x with missing := x.missing.filter fun e => decide (e ≠ q) } 0 false
    else if w < (n + modulus - q) % modulus then .late
    else .copy

/-- Is a packet of path 2 used after a loss on path 1: that path is down, or has passed its number? -/
def State.recovers (s : State) (p c : Nat) (x : IpSlot) (modulus q : Nat) : Bool :=
  !s.flag (pgIpp p) c F.ippStrmStatusPath1Up ||
  (match x.newest1 with
   | some n => decide (0 < (n + modulus - q) % modulus ∧ (n + modulus - q) % modulus < modulus / 2)
   | none => false)

/-- What a slot's packet carries. -/
inductive IpContent where
  | video (rows : List (Nat × Nat × Bytes))
  | audio (b : Bytes)
  | anc (l : List AncRecord)

/-- The content of a packet, none where it does not fit the flow's format. -/
def State.ipContent (s : State) (p c f : Nat) (b : Bytes) : Option IpContent :=
  let pg := pgIpp p
  if s.essence p c = 0 then (s.videoRows f b).map IpContent.video
  else if s.slotAudio p c then
    let n := packetSamples (srateHz (s.flowSrate f)) (s.flag pg c F.ippStrmCfgPtime)
    if b.length = s.flowChannels f * n * sampleBytes (s.essence p c) (s.flag pg c F.ippStrmCfgL16) then some (.audio b)
    else none
  else (s.ancPayload f b).map IpContent.anc

/-- When a packet's content is released, by its first line. -/
def State.contentDue (s : State) (p c f ts : Nat) (x : IpContent) : Option Int :=
  match x with
  | .video rows => (rows.head?).bind fun r => s.lineDue p c f ts r.1
  | .audio _ => s.audioDue p c f ts
  | .anc l => l.head?.bind fun a => s.lineDue p c f ts a.line

/-- Does a packet come to an ALIGNED slot so early that it is dropped (R135)? Its sequence number stays open for a copy that comes in
time (R141). -/
def State.tooEarly (s : State) (p c f ts : Nat) (x : IpContent) : Bool :=
  (s.ipSlot p c).aligned && s.mistimed p c f (s.contentDue p c f ts x) &&
    match s.contentDue p c f ts x with
    | some d => decide ((s.now : Int) < d)
    | none => false

/-- A packet's content enters the release buffer, judged by its first line (R135). -/
def State.bufferContent (s : State) (p c f ts : Nat) (last : Bool) (x : IpContent) : State :=
  let piece : RelPiece := { dueNs := 0, ts := ts, line := 0, off := 0, bytes := [], anc := [], last := false }
  let due := fun (l : Nat) => s.lineDue p c f ts l
  let judged := fun (d : Option Int) (take : State → State) =>
    if s.mistimed p c f d then (s.bump (pgIpp p) c F.ippStrmCntMistimed).touch f else take s
  match x with
  | .video rows =>
    let n := rows.length
    judged ((rows.head?).bind fun r => due r.1) fun s => rows.zipIdx.foldl (fun s r => s.intoBuffer p c (due r.1.1)
      { piece with line := r.1.1, off := r.1.2.1, bytes := r.1.2.2, last := last && decide (r.2 + 1 = n) }) s
  | .audio b => judged (s.audioDue p c f ts) fun s => s.intoBuffer p c (s.audioDue p c f ts) { piece with bytes := b }
  | .anc [] => s
  | .anc (a :: l) => judged (due a.line) fun s => (a :: l).foldl (fun s r =>
      s.intoBuffer p c (due r.line) { piece with line := r.line, anc := [r] }) s

/-- A packet's content passes into the core as it arrives; `gap` packets before it are missing, after a silence all that the time since
the last sample held (R241). -/
def State.passContent (s : State) (p c f : Nat) (gap : Option Nat) (fresh last : Bool) (x : IpContent) : State :=
  match x with
  | .video rows =>
    let s0 := match rows.head? with
      | some r => if fresh && s.ipNextFrame f r.1 then s.ipEndFrame s.now f false else s
      | none => s
    let s1 := rows.foldl (fun s r => s.ipSamples s.now f r) s0
    if last then s1.ipEndFrame s1.now f true else s1
  | .audio b =>
    let n := packetSamples (srateHz (s.flowSrate f)) (s.flag (pgIpp p) c F.ippStrmCfgPtime)
    s.ipAudio f (sampleBytes (s.essence p c) (s.flag (pgIpp p) c F.ippStrmCfgL16))
      (match gap with | some k => k * n | none => s.samplesMissing f s.now) s.now b
  | .anc l => s.ipAnc f l

/-- Does content begin a frame: video its first field? -/
def State.startsFrame (s : State) (f : Nat) (x : IpContent) : Bool :=
  match x with
  | .video rows => match rows.head? with
    | some r => decide (fieldOf (s.get pgFlow f F.flowwinCtx1Struct) r.1 = 0)
    | none => false
  | _ => true

/-- Is overtaken content of the first field of the frame in progress, which is in its second, with an RTP timestamp of its own less than
a frame older (R134, R140)? -/
def State.earlierField (s : State) (p c f ts : Nat) (x : IpContent) : Bool :=
  let st := s.get pgFlow f F.flowwinCtx1Struct
  let rt := s.get pgFlow f F.flowwinCtx1Rate
  match (s.ipSlot p c).ts with
  | some t => s.startsFrame f x && decide (fieldOf st (s.run f).line = 1 ∧
      (t + 2 ^ 32 - ts) % 2 ^ 32 * rateNum rt < 90000 * rateDen rt)
  | none => false

/-- A packet that was overtaken takes its place: in the frame in progress, or in the one before (R134). -/
def State.lateContent (s : State) (p c f behind ts : Nat) (x : IpContent) : State :=
  let same := decide ((s.ipSlot p c).ts = some ts)
  match x with
  | .video rows =>
    if (same && decide ((s.run f).line ≠ 0)) || s.earlierField p c f ts x then rows.foldl (fun s r => s.ipSamples s.now f r) s
    else rows.foldl (fun s r => s.ipPatch f true r) s
  | .audio b => s.ipAudioLate f (sampleBytes (s.essence p c) (s.flag (pgIpp p) c F.ippStrmCfgL16)) behind b
  | .anc l => s.ipAnc f l

/-- Is an RTP timestamp newer than another, or the first? -/
def newerStamp (old : Option Nat) (ts : Nat) : Bool :=
  match old with
  | none => true
  | some t => decide (0 < (ts + 2 ^ 32 - t) % 2 ^ 32 ∧ (ts + 2 ^ 32 - t) % 2 ^ 32 < 2 ^ 31)

/-- A pending commit of a receiving slot applies at this packet: the first of a new frame, the next for audio, in a pair the
first at the target or later (R133, R302). -/
def State.packetCommit (s : State) (p c ts : Nat) : State :=
  let x := s.ipSlot p c
  let fresh := s.slotAudio p c || newerStamp x.ts ts
  let reached := match x.target with
    | none => fresh
    | some t => decide ((ts + 2 ^ 32 - t) % 2 ^ 32 < 2 ^ 31)
  if s.commitPending (pgIpp p) (unitStrm c) && s.receiving p c && reached then s.applyStrm p c else s

/-- The slot notes a packet: its path and that it receives. -/
def State.notePacket (s : State) (p c : Nat) (second : Bool) : State :=
  let pg := pgIpp p
  let x := s.ipSlot p c
  let s1 := s.put pg c (if second then F.ippStrmStatusPath2Up else F.ippStrmStatusPath1Up) 1
  (s1.put pg c F.ippStrmStatusReceiving 1).putIpSlot p c
    { x with lastNs := s.now, last1 := if second then x.last1 else s.now, last2 := if second then s.now else x.last2 }

/-- Does video content hold the first samples of a frame? -/
def State.firstSamples (s : State) (f : Nat) (x : IpContent) : Bool :=
  match x with
  | .video rows => rows.any fun r => decide (r.1 = (fmtFirstActive (s.get pgFlow f F.flowwinCtx1Struct)).headD 1 ∧ r.2.1 = 0)
  | _ => true

/-- Does a stream still wait for a frame start at this packet (R137)? A new RTP timestamp in the first field begins a frame; at the first
packet after a silence, which tells nothing of the ones before it, the frame's first samples do too (log entry 204). -/
def State.stillWaits (s : State) (p c f : Nat) (was newest : Bool) (ts : Nat) (x : IpContent) : Bool :=
  let y := s.ipSlot p c
  !s.slotAudio p c && y.waiting &&
    !(newest && newerStamp y.ts ts && s.startsFrame f x && (was || s.firstSamples f x))

/-- A packet that a slot takes. -/
def State.takePacket (s : State) (p c f gap behind : Nat) (was newest : Bool) (h : RtpHead) (x : IpContent) : State :=
  let y := s.ipSlot p c
  let wait := s.stillWaits p c f was newest h.ts x
  let s1 := s.putIpSlot p c { y with waiting := wait, ts := if newest then some h.ts else y.ts }
  if wait then s1
  else if y.aligned then s1.bufferContent p c f h.ts h.marker x
  else if newest then s1.passContent p c f (if was then some gap else none) (decide (y.ts ≠ some h.ts)) h.marker x
  else s1.lateContent p c f behind h.ts x

/-- A packet delivered to a slot. -/
def State.slotPacket (s : State) (p c : Nat) (second : Bool) (b : Bytes) : State :=
  let pg := pgIpp p
  let bad := s.bump pg c F.ippStrmCnt2Bad
  match rtpHead b with
  | none => bad
  | some h =>
    let s1 := s.packetCommit p c h.ts
    if h.pt ≠ s1.get pg c F.ippStrmPortPt then s1.bump pg c F.ippStrmCnt2Bad
    else match s1.slotFlow p c with
      | none => s1.notePacket p c second
      | some f =>
        match s1.ipContent p c f h.payload with
        | none => s1.bump pg c F.ippStrmCnt2Bad
        | some x =>
          let ext := decide (s1.essence p c = 0)
          let modulus := if ext then 2 ^ 32 else 2 ^ 16
          let q := if ext then beAt h.payload 0 2 * 2 ^ 16 + h.seq else h.seq
          let s2 := s1.notePacket p c second
          let mark := fun (y : IpSlot) => if second then { y with newest2 := some q } else { y with newest1 := some q }
          let old := s2.ipSlot p c
          if s2.tooEarly p c f h.ts x then ((s2.putIpSlot p c (mark old)).bump pg c F.ippStrmCntMistimed).touch f
          else match old.sequence modulus q with
          | .copy => s2.putIpSlot p c (mark old)
          | .late => ((s2.putIpSlot p c (mark old)).bump pg c F.ippStrmCntMistimed).touch f
          | .taken y lost newest =>
            let s3 := s2.putIpSlot p c (mark y)
            let s4 := (if lost = 0 then s3 else s3.touch f).put pg c F.ippStrmCntLost (s3.get pg c F.ippStrmCntLost + lost)
            let s5 := if second && s2.recovers p c old modulus q then s4.bump pg c F.ippStrmCnt2Recovered else s4
            let gap := match old.newest with | some n => min ((q + modulus - n) % modulus - 1) windowArrival | none => 0
            let behind := match old.newest with | some n => (n + modulus - q) % modulus | none => 0
            s5.takePacket p c f gap behind (s1.receiving p c) newest h x

/-! ### The host receive queue (R149) -/

/-- Words of the receive queue of a port. -/
abbrev rxqWords : Nat := 16384

/-- Records waiting. -/
def State.rxRecords (s : State) (p : Nat) : List (List Nat) := Tab.at [] s.rxq p

/-- Bytes as words, the first byte lowest, padded. -/
def wordsOf (b : Bytes) : List Nat := (groupsOf 4 ((b.length + 3) / 4) b).map leValue

/-- A record of a receive queue: its four header words and its bytes. -/
def rxRecord (link : Nat) (stamp : Option (Nat × Nat)) (secured : Bool) (tag : Nat) (b : Bytes) : List Nat :=
  let (sec, ns) := stamp.getD (0, 0)
  [link * 2 ^ 30 + ofBool stamp.isSome * 2 ^ 29 + ofBool secured * 2 ^ 28 + tag % 4096 * 2 ^ 16 + b.length % 2 ^ 16,
    ns % 2 ^ 30, sec % 2 ^ 32, sec / 2 ^ 32 % 2 ^ 16] ++ wordsOf b

/-- A record enters the queue, or is dropped whole. -/
def State.rxPush (s : State) (p : Nat) (r : List Nat) : State :=
  let q := s.rxRecords p
  if rxqWords < q.flatten.length + r.length then s.bump (pgIpp p) 0 F.ippRxqStatusDrop
  else
    let s1 := { s with rxq := Tab.put p (q ++ [r]) s.rxq }
    if q.isEmpty then s1.raise (pgIpp p) 20 else s1

/-- One word is read from the queue: its oldest record loses it, and goes with its last. -/
def State.rxqRead (s : State) (p : Nat) : Nat × State :=
  match s.rxRecords p with
  | (w :: t) :: rest => (w, { s with rxq := Tab.put p (if t.isEmpty then rest else t :: rest) s.rxq })
  | [] :: rest => (0, { s with rxq := Tab.put p rest s.rxq })
  | [] => (0, s)

/-! ### PTP (R143 to R145) -/

/-- A client that has exchanged nothing. -/
def PtpClient.cold : PtpClient :=
  { sync := none, req := none, reqNs := none, delays := [], seq := 0, ip := 0, mac := 0 }

/-- The PTP client of a link. -/
def State.ptpClient (s : State) (p l : Nat) : PtpClient := (Assoc.find Key.code ⟨pgIpp p, l, 0⟩ s.ptp).getD PtpClient.cold

/-- Write a PTP client. -/
def State.putPtp (s : State) (p l : Nat) (x : PtpClient) : State :=
  { s with ptp := Assoc.set Key.code ⟨pgIpp p, l, 0⟩ x s.ptp }

/-- The selected master's clock identity and port. -/
def State.ptpMaster (s : State) (p l : Nat) : Nat × Nat :=
  (s.get (pgIpp p) l F.ippPtpMidHiId * 2 ^ 32 + s.get (pgIpp p) l F.ippPtpMidLoId, s.get (pgIpp p) l F.ippPtpCfgMport)

/-- Does a message come from the selected master in the served domain on a link that is UP? -/
def State.ptpFrom (s : State) (p l clock port domain : Nat) : Bool :=
  s.linkUp p l && decide (s.ptpMaster p l = (clock, port)) && decide (s.ptpDomain p l = some domain)

/-- PTP_ASYM in nanoseconds. -/
def State.ptpAsym (s : State) (p l : Nat) : Int := signedOf 32 (s.get (pgIpp p) l F.ippPtpAsymPs) / 1000

/-- Exchanges that a client needs before it yields samples, and those it averages (log entry 218). -/
abbrev ptpNeeded : Nat := 4
abbrev ptpAveraged : Nat := 16

/-- A frame number and the phase of a timebase against PTP time: N and the samples by which the counter is ahead. -/
def State.ptpError (s : State) (k : Nat) (tai : Int) : Nat × Int :=
  let t := s.tb k
  let n := (tai * rateNum t.rate / (rateDen t.rate * 1000000000)).toNat
  let into := (tai - (n * rateDen t.rate * 1000000000 / rateNum t.rate : Nat)).toNat
  let f := fmtFrameSamples t.struct t.rate
  (n % frameModulus,
    wrapPhase f (t.count s.now - samplesIn t.struct t.rate into))

/-- Does the time between two Syncs, by the master and by the device's count, fit to 500 ppm of a rate (R64)? -/
def PtpClient.periodOk (c : PtpClient) (now t1 : Nat) (ppt : Int) : Bool :=
  match c.sync with
  | none => false
  | some (at_, _, last) =>
    let dn : Int := (now : Int) - at_
    let dt : Int := (t1 : Int) - last
    let d := dt - dn - dn * ppt / pptScale
    decide (2000 * d ≤ dt ∧ -2000 * d ≤ dt)

/-- A Sync of the selected master: one offset sample for each timebase served (R144). -/
def State.ptpSync (s : State) (p l : Nat) (x : PtpSync) : State :=
  let s0 := s.ptpConflict p l
  if !s0.ptpFrom p l x.clock x.port x.domain then s0
  else
    let c := s0.ptpClient p l
    let path : Int := (s0.now : Int) - x.t1 - s0.ptpAsym p l
    let s1 := s0.putPtp p l { c with sync := some (s0.now, path, x.t1), ip := x.ip, mac := x.mac }
    if c.delays.length < ptpNeeded then s1
    else
      let d := c.delays.foldl (fun a b => a + b) 0 / (c.delays.length : Int)
      let tai : Int := x.t1 + x.corr + s0.ptpAsym p l + d
      (s1.ptpServed p l).foldl (fun s k =>
        let (n, e) := s.ptpError k tai
        s.sync k e (c.periodOk s.now x.t1 (s.tb k).judged) (some n)) s1

/-- PTP_SYNC_RECEIVE (R144). -/
def execPtpSyncReceive (p : Fin 8) (link : Fin 4) (x : PtpSync) (s : State) : Host.Outcome State Fault Refusal :=
  .next (s.ptpSync p link x)

/-- A Delay_Resp to the request under way: one exchange joins the average (R144). -/
def State.ptpResp (s : State) (p l : Nat) (x : PtpResp) : State :=
  let c := s.ptpClient p l
  if !s.ptpFrom p l x.clock x.port x.domain then s
  else match c.req, c.sync with
    | some (n, t3), some (_, path, _) =>
      if n = x.seq then
        let back : Int := (x.t4 : Int) - t3 + s.ptpAsym p l
        s.putPtp p l { c with req := none, delays := (((path + back) / 2) :: c.delays).take ptpAveraged }
      else s
    | _, _ => s

/-- PTP_DELAY_RESP_RECEIVE (R144). -/
def execPtpDelayRespReceive (p : Fin 8) (link : Fin 4) (x : PtpResp) (s : State) : Host.Outcome State Fault Refusal :=
  .next (s.ptpResp p link x)

/-- The client of a link restarts (R145). -/
def State.ptpRestart (s : State) (p l : Nat) : State :=
  let c := s.ptpClient p l
  s.putPtp p l { PtpClient.cold with seq := c.seq, ip := c.ip, mac := c.mac }

/-- Writes of PTP_MID and PTP_CFG, which holds MPORT, restart the client. -/
def State.writePtp (s : State) (p l off w : Nat) : State :=
  (s.writeFields (pgIpp p) l false w (fieldsAt (pgIpp p) off)).ptpRestart p l

/-- PTP_CLIENT_RESTART (R145): a write of PTP_MID_LO, PTP_MID_HI or PTP_CFG. -/
def execPtpClientRestart (m p : Fin 8) (off : Nat) (w : Word) (s : State) : Host.Outcome State Fault Refusal :=
  .next (if off = 0x0A0 ∨ off = 0x0A4 ∨ off = 0x0A8 then
    s.write m (pgIpp p) off w.toNat fun s => s.writePtp p (s.get (pgIpp p) 0 F.ippLinkIndexLink) off w.toNat else s)

/-- Is a UDP packet a PTP message that the link's client consumes: Sync, Follow_Up or Delay_Resp of its master? -/
def State.ptpConsumes (s : State) (p l : Nat) (h : IpHead) : Bool :=
  let kind := beAt h.payload 0 1 % 16
  decide (h.udp = 319 ∨ h.udp = 320) && decide (34 ≤ h.payload.length) && decide (kind = 0 ∨ kind = 8 ∨ kind = 9) &&
    s.ptpFrom p l (beAt h.payload 20 8) (beAt h.payload 28 2) (beAt h.payload 4 1)

/-! ### A received frame (R129, R131, R149) -/

/-- A time stamp as it is handed to the host, in seconds and nanoseconds: PTP_ASYM corrects it (R143). -/
def State.ptpStamp (s : State) (p l sec ns : Nat) : Nat × Nat :=
  let t := (((sec * 1000000000 + ns : Nat) : Int) - s.ptpAsym p l).toNat
  (t / 1000000000, t % 1000000000)

/-- A frame in the clear: to a slot, to the PTP client (whose messages come as commands of their own), or to the host. -/
def State.ipFrame (s : State) (p l : Nat) (b : Bytes) (secured : Bool) (sec ns : Nat) : State :=
  let h := ipHead b
  match h.bind fun x => s.matchSlot p l x, h with
  | some (q, c, second), some x => s.slotPacket q c second x.payload
  | _, some x =>
    if s.ptpConsumes p l x then s
    else s.rxPush p (rxRecord l (if x.udp = 319 then some (s.ptpStamp p l sec ns) else none) secured 0 b)
  | _, none => s.rxPush p (rxRecord l none secured 0 b)

/-- A frame of a link that is UP. -/
def State.linkFrame (s : State) (p l : Nat) (f : EthFrame) : State :=
  let s0 := s.put (pgIpp p) l F.ippLinkCntFecUe (s.get (pgIpp p) l F.ippLinkCntFecUe + f.fecUe)
  if !frameOk f.bytes then s0.bump (pgIpp p) l F.ippLinkCntBadFrame
  else if !s0.macAccepted p l f.bytes then s0
  else
    let (r, s1) := s0.secReceive p l (f.bytes.take (f.bytes.length - 4))
    match r with
    | some (b, secured) => s1.ipFrame p l b secured f.sec f.ns
    | none => s1

/-! ### Loss (R137, R141) -/

/-- A stream has no packets: RECEIVING clears, its ingress produces nothing, a pending commit applies. -/
def State.streamLoss (s : State) (p c : Nat) : State :=
  let s1 := (s.put (pgIpp p) c F.ippStrmStatusReceiving 0).putIpSlot p c
    { s.ipSlot p c with newest := none, missing := [], waiting := true, buffer := [] }
  let s2 := match s1.slotFlow p c with
    | some f => ((s1.dropPartial f).putRun f { (s1.dropPartial f).run f with producing := false, partLine := [], line := 0 }).touch f
    | none => s1
  if s2.commitPending (pgIpp p) (unitStrm c) then s2.applyStrm p c else s2

/-- Nanoseconds without packets after which a stream is lost (R137): two line periods of its flow's governing timebase, of TB0 where the
slot has no flow (R7; log entry 152). -/
def State.streamSilence (s : State) (p c : Nat) : Nat :=
  if s.slotAudio p c then (if s.flag (pgIpp p) c F.ippStrmCfgPtime then 250000 else 2000000)
  else match s.slotFlow p c with
    | some f => s.linesNs f 2
    | none => let (st, rt) := s.tbFormat 0; twoLinesNs st rt

/-- IP_STREAM_LOSS (R137). -/
def execIpStreamLoss (p : Fin 8) (slot : Fin 64) (s : State) : Host.Outcome State Fault Refusal :=
  let c := strmCell 0 slot
  .next (if s.receiving p c && decide (s.streamSilence p c ≤ s.now - (s.ipSlot p c).lastNs) then s.streamLoss p c else s)

/-- IP_PATH_LOSS (R141): a path with no packets for 1 ms. -/
def execIpPathLoss (p : Fin 8) (slot : Fin 64) (path2 : Bool) (s : State) : Host.Outcome State Fault Refusal :=
  let c := strmCell 0 slot
  let x := s.ipSlot p c
  let f := if path2 then F.ippStrmStatusPath2Up else F.ippStrmStatusPath1Up
  .next (if s.flag (pgIpp p) c f && decide (1000000 ≤ s.now - (if path2 then x.last2 else x.last1)) then
    (s.put (pgIpp p) c f 0).raise (pgIpp p) 17 else s)

end Sys2Proof.Machine
end

