-- ==== Sys2Proof/Machine/IpTx.lean ====
section
/-! DEFINITION. IP ports, sending: packets of send slots, host frames, Delay_Req, and the port's start, stop and reset
(R130, R138 to R140, R142, R144, R150). -/

namespace Sys2Proof.Machine

/-! ### Building packets (R129, R139) -/

/-- Sixteen-bit ones' complement sum of a header. -/
def ipChecksum (b : Bytes) : Nat :=
  let t := (groupsOf 2 (b.length / 2) b).foldl (fun n w => n + beValue w) 0
  let f := t % 65536 + t / 65536
  65535 - (f % 65536 + f / 65536)

/-- The MAC address of an IPv4 multicast address (RFC 1112). -/
def multicastMac (a : Nat) : Nat := 0x01005E000000 + a % 2 ^ 23

/-- An Ethernet frame, FCS excluded, that carries UDP over IPv4; the UDP checksum is 0 (R131). -/
def udpFrame (dmac smac : Nat) (vlan : Option Nat) (dscp ident src dst sport dport : Nat) (b : Bytes) : Bytes :=
  let head := beBytes 2 (0x4500 + dscp * 4) ++ beBytes 2 (28 + b.length) ++ beBytes 2 (ident % 2 ^ 16) ++ beBytes 2 0 ++
    beBytes 1 (Config.ipTtl % 256) ++ beBytes 1 17
  let addrs := beBytes 4 src ++ beBytes 4 dst
  let sum := ipChecksum (head ++ beBytes 2 0 ++ addrs)
  beBytes 6 dmac ++ beBytes 6 smac ++
    (match vlan with
     | some v => beBytes 2 etVlan ++ beBytes 2 (Config.vlanPriority % 8 * 8192 + v)
     | none => []) ++
    beBytes 2 etIp ++ head ++ beBytes 2 sum ++ addrs ++ beBytes 2 (sport % 2 ^ 16) ++ beBytes 2 dport ++
    beBytes 2 (8 + b.length) ++ beBytes 2 0 ++ b

/-- When the frame began that a send slot is in: on its raster, for audio on its flow's timebase. -/
def State.slotStart (s : State) (p c : Nat) : Nat :=
  match s.slotFlow p c with
  | some f =>
    if s.flowType f = typeAudio then (s.tb (s.get pgFlow f F.flowwinCtx0Tb)).startNs
    else (s.raster (pgIpp p) (s.get (pgIpp p) c F.ippStrmCfgRaster)).startNs
  | none => 0

/-- A UDP payload on one path of a send slot: a unicast stream takes its destination address from STRM_DMAC (R142). -/
def State.sendPath (s : State) (p c : Nat) (second : Bool) (b : Bytes) : State :=
  let pg := pgIpp p
  let get := fun f => s.get pg c f
  let (q, l, dst, src, vlan) :=
    if second then (get F.ippStrmPath2Port, get F.ippStrmPath2Link, get F.ippStrmDst2Addr, get F.ippStrmSrc2Addr,
      get F.ippStrmPath2Vlan)
    else (p, get F.ippStrmCfgLink, get F.ippStrmDstAddr, get F.ippStrmSrcAddr, get F.ippStrmCfgVlan)
  let dmac := if isMulticast dst then multicastMac dst else get F.ippStrmDmacHiMac * 2 ^ 32 + get F.ippStrmDmacLoMac
  let s1 := { s with free := s.free + 1 }
  s1.sendFrame q l (!s.slotSends (s.slotStart p c)) (udpFrame dmac (s.linkMac q l) (if get F.ippStrmCfgVlanEn = 1 then some vlan else none)
    (get F.ippStrmPortDscp) (Config.ipIdent s.free) src dst Config.udpSource (get F.ippStrmPortUdp) b)

/-! ### RTP (R140) -/

/-- The RTP timestamp of a frame number. -/
def frameStamp (rate n : Nat) : Nat := n * rateDen rate * 90000 / rateNum rate % 2 ^ 32

/-- The RTP timestamp of a raster frame: its number's, or on a raster that is not LOCKED the time of its start on the
timebase, counted from frame 0 (R140, R212). -/
def State.rasterStamp (s : State) (p c : Nat) : Nat :=
  let r := s.raster p c
  let t := s.tb r.tb
  if r.mode = 0 then frameStamp r.rate r.frame
  else
    let n : Int := (t.frame * rateDen t.rate * 1000000000 : Nat) + ((r.startNs : Int) - t.startNs) * rateNum t.rate
    (n * 90000 / ((rateNum t.rate * 1000000000 : Nat) : Int)).toNat % 2 ^ 32

/-- The next sequence number of a send slot. -/
def State.takeSeq (s : State) (p c : Nat) : Nat × State :=
  let x := s.ipSlot p c
  (x.seq, s.putIpSlot p c { x with seq := (x.seq + 1) % 2 ^ 32 })

/-- An RTP packet of a slot: the header of both copies is the same. -/
def State.sendRtp (s : State) (p c : Nat) (marker : Bool) (ts seq : Nat) (b : Bytes) : State :=
  let pg := pgIpp p
  let head := beBytes 1 0x80 ++ beBytes 1 (ofBool marker * 128 + s.get pg c F.ippStrmPortPt) ++ beBytes 2 (seq % 2 ^ 16) ++
    beBytes 4 ts ++ beBytes 4 (s.get pg c F.ippStrmSsrcSsrc)
  let s1 := s.sendPath p c false (head ++ b)
  if s.flag pg c F.ippStrmCfgPath2En then s1.sendPath p c true (head ++ b) else s1

/-! ### Video (R138) -/

/-- The samples of a part of a line that a video slot sends: its flow's, black where they are missing, in a black first frame (R224,
R225) and behind an underrun (R226). -/
def State.sendSamples (s : State) (p c f line off n : Nat) : Bytes :=
  let sa := s.get pgFlow f F.flowwinCtx1Sampling
  let de := s.get pgFlow f F.flowwinCtx1Depth
  let black := blackBytes sa de (off + n)
  let r := s.raster (pgIpp p) (s.get (pgIpp p) c F.ippStrmCfgRaster)
  match (if s.fmtMismatch p c || r.black || decide (f ∈ r.underran) then (LineContent.black, []) else s.egressLine f line) with
  | (.data, b) => ((b ++ black.drop b.length).drop off).take n
  | _ => black.drop off

/-- Does a slot's schedule spread the packets of a frame over the frame period (R139)? -/
def State.slotNl (s : State) (p c : Nat) : Bool := decide (s.get (pgIpp p) c F.ippStrmCfgPace = 1)

/-- The bytes of a part of a line in a packet: a PACE 1 slot's lie ready since the raster produced the line. -/
def State.partBytes (s : State) (p c f : Nat) (x : Nat × Nat × Nat) : Bytes :=
  if s.slotNl p c then
    match (s.ipSlot p c).paced.find? fun y => decide (y.line = x.1) with
    | some y => (y.bytes.drop x.2.1).take x.2.2
    | none => []
  else s.sendSamples p c f x.1 x.2.1 x.2.2

/-- A raster has produced a line: every PACE 1 slot on it keeps the line until its packets are due. -/
def State.paceLine (s : State) (p c line : Nat) : State :=
  let r := s.raster (pgIpp p) c
  if !fmtActive r.struct line then s
  else ((List.range 64).map (strmCell 1)).foldl (fun s k =>
    match (if s.slotOn p k then s.slotFlow p k else none) with
    | some f =>
      if s.slotNl p k && decide (s.get (pgIpp p) k F.ippStrmCfgRaster = c ∧ s.essence p k = 0) then
        let n := lineBytes r.struct (s.get pgFlow f F.flowwinCtx1Sampling) (s.get pgFlow f F.flowwinCtx1Depth)
        let y : PacedLine := { frame := r.frame, stamp := s.rasterStamp (pgIpp p) c, line := line
                               bytes := s.sendSamples p k f line 0 n }
        let old := (s.ipSlot p k).paced.filter fun z => decide (z.line ≠ line)
        s.putIpSlot p k { s.ipSlot p k with paced := old ++ [y] }
      else s
    | none => s) s

/-- The headers and rows of a video packet's parts. -/
def State.videoPayload (s : State) (p c f struct : Nat) (parts : List (Nat × Nat × Nat)) : Bytes :=
  let sa := s.get pgFlow f F.flowwinCtx1Sampling
  let de := s.get pgFlow f F.flowwinCtx1Depth
  let k := parts.length
  let heads := parts.zipIdx.flatMap fun x =>
    match rasterPicture struct x.1.1 with
    | some (l, second) =>
      beBytes 2 x.1.2.2 ++ beBytes 2 (ofBool second * 0x8000 + l) ++
        beBytes 2 (ofBool (decide (x.2 + 1 < k)) * 0x8000 + x.1.2.1 * 16 / (samplingWords sa * depthBits de))
    | none => []
  heads ++ parts.flatMap (s.partBytes p c f)

/-- Does a part of a line end the frame or a field: the last byte of a field's last active line (R140)? -/
def endsField (struct bytes : Nat) (x : Nat × Nat × Nat) : Bool :=
  decide (x.2.1 + x.2.2 = bytes) && !fmtActive struct (x.1 + 1)

/-- Are a packet's parts such as R132 allows: whole pixel groups of active lines, no more bytes than its mode carries, in BPM whole
blocks of 180 bytes but where the frame or field ends? -/
def State.partsOk (s : State) (p c f struct : Nat) (parts : List (Nat × Nat × Nat)) : Bool :=
  let sa := s.get pgFlow f F.flowwinCtx1Sampling
  let de := s.get pgFlow f F.flowwinCtx1Depth
  let g := pixelGroup sa de
  let bpm := s.flag (pgIpp p) c F.ippStrmCfgPm
  let total := parts.foldl (fun n x => n + x.2.2) 0
  decide (parts ≠ [] ∧ parts.length ≤ 3 ∧ total ≤ packetLimit bpm) &&
    (!bpm || decide (total % 180 = 0) || parts.any (endsField struct (lineBytes struct sa de))) &&
    parts.all fun x => (rasterPicture struct x.1).isSome &&
      decide (x.2.2 ≠ 0 ∧ x.2.1 % g = 0 ∧ x.2.2 % g = 0 ∧ x.2.1 + x.2.2 ≤ lineBytes struct sa de)

/-! ### The schedule (R139) -/

/-- The instant of a place in a frame of a raster: a line, and bytes out of those of a packed line from its first sample on. -/
def Raster.placeNs (r : Raster) (line off bytes : Nat) : Nat :=
  r.startNs + nsOf r.struct r.rate ((line - 1) * fmtSamples r.struct r.rate + fmtWidth r.struct * off / max 1 bytes)

/-- Bytes of a frame's picture before a place. -/
def bytesBefore (struct bytes line off : Nat) : Nat :=
  ((List.range line).filter fun l => fmtActive struct l).length * bytes + off

/-- The instant of a byte of a frame's picture on the schedule of PACE 1 (R139), in the frame in progress: the bytes of a frame that the
frame period, counted from the first active line, brings into the next one are sent there at the same distance (log entry 153). -/
def Raster.spreadNs (r : Raster) (bytes pos : Nat) : Nat :=
  let whole := fmtFrameSamples r.struct r.rate
  let at_ := ((fmtFirstActive r.struct).headD 1 - 1) * fmtSamples r.struct r.rate + whole * pos / max 1 (bytes * fmtHeight r.struct)
  r.startNs + nsOf r.struct r.rate (at_ % max 1 whole)

/-- When a packet that begins at a place is scheduled, from the first to the last instant of a burst of a W sender; `size` is its bytes
(R139; log entry 153). -/
def State.packetDue (s : State) (p c f line off size : Nat) : Nat × Nat :=
  let r := s.raster (pgIpp p) (s.get (pgIpp p) c F.ippStrmCfgRaster)
  let n := lineBytes r.struct (s.get pgFlow f F.flowwinCtx1Sampling) (s.get pgFlow f F.flowwinCtx1Depth)
  match s.get (pgIpp p) c F.ippStrmCfgPace with
  | 0 => (r.placeNs line off n, r.placeNs line off n)
  | 1 => (r.spreadNs n (bytesBefore r.struct n line off), r.spreadNs n (bytesBefore r.struct n line off))
  | _ => (r.placeNs line (off - 3 * size) n, r.placeNs line off n)

/-- Is a packet sent where its schedule places it, to 50 ns (R139)? -/
def State.onSchedule (s : State) (p c f : Nat) (parts : List (Nat × Nat × Nat)) : Bool :=
  match parts with
  | [] => false
  | x :: _ =>
    let d := s.packetDue p c f x.1 x.2.1 (parts.foldl (fun n y => n + y.2.2) 0)
    decide (d.1 ≤ s.now + 50 ∧ s.now ≤ d.2 + 50)

/-! ### Video packets (R138 to R140) -/

/-- The output seals of the lines that a packet carries cover its RTP payload; a line's is done with its last byte (R306). -/
def State.sealParts (s : State) (f frame bytes : Nat) (parts : List (Nat × Nat × Nat)) (b : Bytes) : State :=
  parts.foldl (fun s x => s.sealMore f x.1 frame 0 b (decide (x.2.1 + x.2.2 = bytes))) s

/-- The raster frame that a packet belongs to, with its RTP timestamp: the one in progress, for PACE 1 the one whose line waits. None
where the raster does not run, or waits for its first frame or a new format (R224, R225). -/
def State.packetFrame (s : State) (p c : Nat) (parts : List (Nat × Nat × Nat)) : Option (Nat × Nat) :=
  let ri := s.get (pgIpp p) c F.ippStrmCfgRaster
  let r := s.raster (pgIpp p) ri
  if !r.running || r.waiting then none
  else if s.slotNl p c then
    parts.head?.bind fun x => ((s.ipSlot p c).paced.find? fun y => decide (y.line = x.1)).map fun y => (y.frame, y.stamp)
  else some (r.frame, s.rasterStamp (pgIpp p) ri)

/-- The lines of a PACE 1 slot whose last bytes have been sent go. -/
def State.paced (s : State) (p c n : Nat) (parts : List (Nat × Nat × Nat)) : State :=
  if s.slotNl p c then
    s.putIpSlot p c { s.ipSlot p c with
      paced := (s.ipSlot p c).paced.filter fun y => !parts.any fun x => decide (x.1 = y.line ∧ x.2.1 + x.2.2 = n) }
  else s

/-- A video packet. -/
def State.sendVideo (s : State) (p c f : Nat) (x : IpPacket) : State :=
  let ri := s.get (pgIpp p) c F.ippStrmCfgRaster
  let r := s.raster (pgIpp p) ri
  match (if s.partsOk p c f r.struct x.parts && s.onSchedule p c f x.parts then s.packetFrame p c x.parts else none) with
  | none => s
  | some (frame, stamp) =>
    let n := lineBytes r.struct (s.get pgFlow f F.flowwinCtx1Sampling) (s.get pgFlow f F.flowwinCtx1Depth)
    let (q, s1) := s.takeSeq p c
    let b := beBytes 2 (q / 2 ^ 16) ++ s.videoPayload p c f r.struct x.parts
    ((s1.sendRtp p c (x.parts.any (endsField r.struct n)) stamp q b).sealParts f frame n x.parts b).paced p c n x.parts

/-! ### Audio (R132, R138, R140, R247, R248) -/

/-- A sample of a channel of an audio slot at an instant: its route's, through its gate; a masked channel carries zero. -/
def State.sendSample (s : State) (p c base ch t : Nat) : Nat × State :=
  let v := s.routeSample (base + ch) t
  match s.gate ⟨pgIpp p, ch, c⟩ with
  | some g =>
    let (y, g', s1) := s.gateSample g v
    (y, s1.putGate ⟨pgIpp p, ch, c⟩ g')
  | none => (if bit (s.ipMask (pgIpp p) c) ch then v else 0, s)

/-- The samples of all channels at one sample time. -/
def State.sendFrameOf (s : State) (p c base t : Nat) : Nat → List Nat × State
  | 0 => ([], s)
  | n + 1 =>
    let (l, s1) := s.sendFrameOf p c base t n
    let (v, s2) := s1.sendSample p c base n t
    (l ++ [v], s2)

/-- The samples of a packet, by the instants of its sample times. -/
def State.sendFrames (s : State) (p c base ch : Nat) : List Nat → List Nat × State
  | [] => ([], s)
  | t :: l =>
    let (a, s1) := s.sendFrameOf p c base t ch
    let (b, s2) := s1.sendFrames p c base ch l
    (a ++ b, s2)

/-- A sample as n bytes carry it: L16, L24, or an AES3 subframe whole. -/
def sampleWord (n v : Nat) : Bytes := beBytes n (if n = 2 then v % 2 ^ 24 / 256 else v % 2 ^ (8 * n))

/-- An audio packet: the next packet time of its slot, once the last of its samples has fallen (R138); its timestamp is that of its
first sample (R140). -/
def State.sendAudio (s : State) (p c f : Nat) : State :=
  let pg := pgIpp p
  let s0 := if s.commitPending pg (unitStrm c) then s.applyStrm p c else s
  match s0.audRun f with
  | none => s0
  | some a =>
    let hz := srateHz (s0.flowSrate f)
    let n := packetSamples hz (s0.flag pg c F.ippStrmCfgPtime)
    let t := s0.tb (s0.get pgFlow f F.flowwinCtx0Tb)
    let first := ((t.mediaCount s0.now hz + 1) / n - 1) * n
    if t.mediaCount s0.now hz + 1 < n ∨ (s0.ipSlot p c).nextSample = first + n then s0
    else
      let w := sampleBytes (s0.essence p c) (s0.flag pg c F.ippStrmCfgL16)
      let instants := (List.range n).map fun i => (t.mediaNs ((first + i : Nat) : Int) hz).toNat
      let (l, s1) := (s0.checkFit f).sendFrames p c a.base (min a.count (s0.flowChannels f)) instants
      let (q, s2) := (s1.putIpSlot p c { s1.ipSlot p c with nextSample := first + n }).takeSeq p c
      let b := l.flatMap (sampleWord w)
      (s2.sendRtp p c false (first % 2 ^ 32) q b).sealOutput f 0 t.frame (q % 2 ^ 16) b

/-! ### Ancillary data (R119, R132) -/

/-- Even parity of eight bits. -/
def oddBits (v : Nat) : Nat := (List.range 8).foldl (fun n i => n + bits v i 1) 0 % 2

/-- A ten-bit word with parity in bit 8 and its inverse in bit 9. -/
def parityWord (v : Nat) : Nat := v % 256 + oddBits v * 256 + (1 - oddBits v) * 512

/-- The bits of a record in a -40 payload: fields of given widths, then padding to a word. -/
def ancFields (width : Nat) (x : AncRecord) : List (Nat × Nat) :=
  let words := [parityWord x.did, parityWord x.sdid, parityWord x.words.length] ++ x.words.map (· % 1024)
  let sum := words.foldl (fun n w => n + w % 512) 0 % 512
  [(1, 0), (11, x.line), (12, if x.hanc then x.offset + width else x.offset), (1, 1), (7, x.ds)] ++
    words.map (fun w => (10, w)) ++ [(10, sum + (1 - sum / 256) * 512)]

/-- Fields as bytes, padded with zeros to whole words. -/
def packFields (l : List (Nat × Nat)) : Bytes :=
  let n := l.foldl (fun a x => a + x.1) 0
  let v := l.foldl (fun a x => a * 2 ^ x.1 + x.2 % 2 ^ x.1) 0
  let pad := (32 - n % 32) % 32
  beBytes ((n + pad) / 8) (v * 2 ^ pad)

/-- F of a -40 payload header: 0 progressive, 2 the first field, 3 the second. -/
def ancField (struct line : Nat) : Nat := if !fmtInterlaced struct then 0 else if fieldOf struct line = 0 then 2 else 3

/-- Does a raster's frame end, or its first field, with a line (R140)? -/
def Raster.endsAncField (r : Raster) (line : Nat) : Bool :=
  decide (min r.lines (fmtLines r.struct) ≤ line) || decide (fieldOf r.struct (line + 1) ≠ fieldOf r.struct line)

/-- An ancillary packet: what waits at the slot of one field, up to 1,200 bytes and 255 records (log entry 205); none leaves while the
raster does not run or waits (R224), in added blanking (R212), or under DISCONNECT (R87). The packet with which nothing waits on the
field's last line carries the marker (R140). One seal covers each field (R306). -/
def State.sendAnc (s : State) (p c f : Nat) : State :=
  let ri := s.get (pgIpp p) c F.ippStrmCfgRaster
  let r := s.raster (pgIpp p) ri
  if !r.running || r.waiting || decide (fmtLines r.struct < r.line) || (s.sourceOf f).isNone then s
  else
    let k := ipAncQueue p (c % 64)
    let all : List AncRecord := Tab.at [] s.ancQueue k
    let line := (all.head?.map fun y => y.line).getD r.line
    let q := all.takeWhile fun y => decide (fieldOf r.struct y.line = fieldOf r.struct line)
    let sizes : List Nat := q.map fun y => (packFields (ancFields (fmtWidth r.struct) y)).length
    let n : Nat := ((List.range (q.length + 1)).filter fun i => decide ((sizes.take i).sum ≤ 1200 ∧ i < 256)).getLastD 0
    let body := (q.take n).flatMap fun y => packFields (ancFields (fmtWidth r.struct) y)
    let (sq, s1) := { s with ancQueue := Tab.put k (all.drop n) s.ancQueue }.takeSeq p c
    let marker := r.endsAncField r.line && (all.drop n).isEmpty
    let b := beBytes 2 (sq / 2 ^ 16) ++ beBytes 2 body.length ++ beBytes 1 n ++ beBytes 3 (ancField r.struct line * 2 ^ 22) ++ body
    (s1.sendRtp p c marker (s.rasterStamp (pgIpp p) ri) sq b).sealMore f (fieldOf r.struct line + 1) r.frame 0 b marker

/-- A scheduled packet of an enabled send slot with a flow. -/
def State.packetSend (s : State) (p c : Nat) (x : IpPacket) : State :=
  match (if s.slotOn p c then s.slotFlow p c else none) with
  | none => s
  | some f => if s.slotAudio p c then s.sendAudio p c f else if s.essence p c = 3 then s.sendAnc p c f else s.sendVideo p c f x

/-! ### Host frames (R150) -/

/-- Bytes of the transmit queue of a port. -/
abbrev txqBytes : Nat := 65536

/-- The PTP time of an instant on a link, as seconds and nanoseconds, for a message that leaves: of the timebase that follows it, or a
value that is open where none does (R143; log entry 154). -/
def State.linkTime (s : State) (p l : Nat) : (Nat × Nat) × State :=
  match (s.ptpTimebases p l).findSome? fun k => s.taiNs k s.now with
  | some t => (s.ptpStamp p l (t / 1000000000) (t % 1000000000), s)
  | none =>
    let (v, s1) := s.draw
    ((v / 1000000000, v % 1000000000), s1)

/-- A host frame leaves on its link with LINK_MAC as its source (R129); with TS_REQ the time stamp of one that left returns as a receive
record. -/
def State.sendHost (s : State) (p : Nat) (x : TxRecord) : State :=
  let (sent, s1) := s.trySend p x.link false (x.bytes.take 6 ++ beBytes 6 (s.linkMac p x.link) ++ x.bytes.drop 12)
  if sent && x.tsReq then
    let (t, s2) := s1.linkTime p x.link
    s2.rxPush p (rxRecord x.link (some t) false x.tag [])
  else s1

/-- The instants of the packets that a video slot's schedule places on a line of its raster. -/
def State.lineSchedule (s : State) (p c f line : Nat) : List Nat :=
  let r := s.raster (pgIpp p) (s.get (pgIpp p) c F.ippStrmCfgRaster)
  let sa := s.get pgFlow f F.flowwinCtx1Sampling
  let de := s.get pgFlow f F.flowwinCtx1Depth
  let g := pixelGroup sa de
  let most := packetLimit (s.flag (pgIpp p) c F.ippStrmCfgPm) / g * g
  (List.range (ceilDiv (lineBytes r.struct sa de) most)).map fun i => (s.packetDue p c f line (i * most) most).1

/-- The lines whose packets a video slot's schedule may place next: under PACE 1 those that wait and the next active one, else the line in
progress and the next active one. -/
def State.nextLines (s : State) (p c : Nat) : List Nat :=
  let r := s.raster (pgIpp p) (s.get (pgIpp p) c F.ippStrmCfgRaster)
  (if s.slotNl p c then (s.ipSlot p c).paced.map PacedLine.line else if fmtActive r.struct r.line then [r.line] else []) ++
    ((List.range (fmtLines r.struct + 1)).find? fun l => decide (r.line < l) && fmtActive r.struct l).toList

/-- When the next media packet of a send slot is scheduled: a video packet, the end of an audio packet time, an ancillary packet at the
next line of the raster while records wait or the field ends there (log entry 205). -/
def State.slotNext (s : State) (p c : Nat) : Option Nat :=
  match (if s.slotOn p c then s.slotFlow p c else none) with
  | none => none
  | some f =>
    let r := s.raster (pgIpp p) (s.get (pgIpp p) c F.ippStrmCfgRaster)
    if s.slotAudio p c then
      let hz := srateHz (s.flowSrate f)
      let n := packetSamples hz (s.flag (pgIpp p) c F.ippStrmCfgPtime)
      let t := s.tb (s.get pgFlow f F.flowwinCtx0Tb)
      some (t.mediaNs (((t.mediaCount s.now hz + 1) / n * n + n - 1 : Nat) : Int) hz).toNat
    else if r.running = false ∨ r.waiting = true then none
    else if s.essence p c = 3 then
      if r.endsAncField (r.line + 1) || !(Tab.at [] s.ancQueue (ipAncQueue p (c % 64))).isEmpty then
        some (r.startNs + nsOf r.struct r.rate (r.line * fmtSamples r.struct r.rate))
      else none
    else
      ((s.nextLines p c).flatMap fun l => s.lineSchedule p c f l).foldl (fun m t =>
        if t < s.now then m else match m with | some u => some (min t u) | none => some t) none

/-- Has a host frame room on its link: does it end before the next scheduled media packet there (R139)? -/
def State.hasRoom (s : State) (p : Nat) (x : TxRecord) : Bool :=
  let sec := s.secOn p x.link
  let ends := s.now + ceilDiv ((x.bytes.length + 24 + (if sec then 32 else 0)) * 8 * 1000000000) (s.linkBits p)
  ((List.range 8).flatMap fun q => (List.range 64).map fun n => (q, strmCell 1 n)).all fun e =>
    let onLink := decide ((e.1 = p ∧ s.get (pgIpp e.1) e.2 F.ippStrmCfgLink = x.link) ∨
      (s.get (pgIpp e.1) e.2 F.ippStrmCfgPath2En = 1 ∧ s.get (pgIpp e.1) e.2 F.ippStrmPath2Port = p ∧
        s.get (pgIpp e.1) e.2 F.ippStrmPath2Link = x.link))
    !onLink || match s.slotNext e.1 e.2 with
      | some t => decide (ends ≤ t)
      | none => true

/-- The host frames of a link leave in push order while the link is UP and they have room; so many. -/
def State.drainLink (p l : Nat) : Nat → State → State
  | 0, s => s
  | n + 1, s =>
    match (Tab.at [] s.txq p).find? fun x => decide (x.link = l) with
    | some x =>
      if s.linkUp p l && s.hasRoom p x then
        State.drainLink p l n (({ s with txq := Tab.put p ((Tab.at [] s.txq p).erase x) s.txq } : State).sendHost p x)
      else s
    | none => s

/-- The host frames of a port that can leave do (log entry 22). -/
def State.txDrain (s : State) (p : Nat) : State :=
  [0, 1, 2, 3].foldl (fun s l => State.drainLink p l (Tab.at [] s.txq p).length s) s

/-- IP_PACKET_SEND (R139): a packet of a slot, and behind it the host frames that have room. -/
def execIpPacketSend (p : Fin 8) (slot : Fin 64) (x : IpPacket) (s : State) : Host.Outcome State Fault Refusal :=
  .next ((s.packetSend p (strmCell 1 slot) x).txDrain p)

/-- A word joins the transmit record being built. -/
def State.txWord (s : State) (p w : Nat) : State :=
  { s with txBuild := Tab.put p (Tab.at [] s.txBuild p ++ [w % 2 ^ 32]) s.txBuild }

/-- TXQ_DATA_WRITE (R150). -/
def execTxqDataWrite (m p : Fin 8) (w : Word) (s : State) : Host.Outcome State Fault Refusal :=
  .next (s.write m (pgIpp p) 0x308 w.toNat fun s => s.txWord p w.toNat)

/-- The push of the record built: refused where it does not fit; one whose header names no link, a length outside R150 or
more bytes than were written is discarded with BAD_VALUE (log entry 22). -/
def State.txPush (s : State) (p : Nat) : State :=
  let b := Tab.at [] s.txBuild p
  let s0 := { s with txBuild := Tab.put p [] s.txBuild }
  match b with
  | [] => s0
  | w :: t =>
    let n := w % 2 ^ 16
    let l := w / 2 ^ 30
    let q := Tab.at [] s.txq p
    let held := q.foldl (fun a x => a + 4 + (x.bytes.length + 3) / 4 * 4) 0
    if n < 60 ∨ 1518 < n ∨ 4 * t.length < n ∨ s.linkCount p ≤ l then s0.setErr (pgIpp p) errBadValue
    else if txqBytes < held + 4 * b.length then s0.setErr (pgIpp p) 20
    else
      let r : TxRecord := { link := l, tsReq := bit w 29, tag := bits w 16 12, bytes := (t.flatMap (leBytes 4)).take n }
      ({ s0 with txq := Tab.put p (q ++ [r]) s0.txq } : State).txDrain p

/-- TXQ_PUSH (R150). -/
def execTxqPush (m p : Fin 8) (s : State) : Host.Outcome State Fault Refusal :=
  .next (s.write m (pgIpp p) 0x30C 1 fun s => s.txPush p)

/-- IP_LINK_UP (R128): the link goes UP, and host frames that waited for it leave. -/
def execIpLinkUp (p : Fin 8) (link : Fin 4) (s : State) : Host.Outcome State Fault Refusal :=
  .next ((s.ipLinkUp p link).txDrain p)

/-! ### Delay_Req (R144) -/

/-- A clock identity: an EUI-64 with FF-FE inserted. -/
def clockId (mac : Nat) : Nat := mac / 2 ^ 24 * 2 ^ 40 + 0xFFFE * 2 ^ 24 + mac % 2 ^ 24

/-- A Delay_Req message. -/
def delayReq (domain seq mac link : Nat) (unicast : Bool) : Bytes :=
  beBytes 2 0x0112 ++ beBytes 2 44 ++ beBytes 1 domain ++ beBytes 1 0 ++ beBytes 2 (if unicast then 0x0400 else 0) ++
    beBytes 8 0 ++ beBytes 4 0 ++ beBytes 8 (clockId mac) ++ beBytes 2 (link + 1) ++ beBytes 2 seq ++ beBytes 1 1 ++
    beBytes 1 0x7F ++ beBytes 10 0

/-- Is a Delay_Req due, 2^DREQ_LOG of them a second? -/
def State.reqDue (s : State) (p l : Nat) : Bool :=
  match (s.ptpClient p l).reqNs with
  | some t => decide (1000000000 ≤ (s.now - t) * 2 ^ s.get (pgIpp p) l F.ippPtpCfgDreqLog)
  | none => true

/-- The client sends a Delay_Req that is due and notes when (log entry 219). -/
def State.ptpRequest (s : State) (p l : Nat) : State :=
  match (if s.linkUp p l && s.reqDue p l then s.ptpDomain p l else none) with
  | none => s
  | some d =>
    let s0 := s.ptpConflict p l
    let c := s0.ptpClient p l
    let uni := s0.flag (pgIpp p) l F.ippPtpCfgUnicast
    let dst := if uni then c.ip else 0xE0000181
    let dmac := if uni then c.mac else multicastMac 0xE0000181
    let mac := s0.linkMac p l
    let s1 := s0.putPtp p l { c with req := some (c.seq, s0.now), reqNs := some s0.now, seq := (c.seq + 1) % 2 ^ 16 }
    ({ s1 with free := s1.free + 1 }).sendFrame p l false (udpFrame dmac mac none 0 (Config.ipIdent s1.free)
      (Config.linkAddress p l) dst 319 319 (delayReq d c.seq mac l uni))

/-- PTP_DELAY_REQ_SEND (R144). -/
def execPtpDelayReqSend (p : Fin 8) (link : Fin 4) (s : State) : Host.Outcome State Fault Refusal :=
  .next (s.ptpRequest p link)

/-! ### The port (R127, R225) -/

/-- Rasters of a port. -/
abbrev ippRasters : Nat := 16

/-- A port starts: its lanes ask for power, its rasters start. -/
def State.ippStart (s : State) (p : Nat) : State :=
  let pg := pgIpp p
  let s1 := (List.range 4).foldl (fun s l => s.laneRequest pg l) (s.putRunning pg true)
  (List.range ippRasters).foldl (fun s c => s.rasterStart pg c) s1

/-- What a port loses when it stops or is reset: streams, links, lanes, rasters. -/
def State.ippDown (s : State) (p : Nat) : State :=
  let pg := pgIpp p
  let s1 := (List.range ippRasters).foldl (fun s c => s.rasterStop pg c) s
  let s2 := (List.range 4).foldl (fun s l =>
    let s0 := ((s.eyeDown pg l).putLinkUp p l false).putLane pg l laneOff
    if laneAligning ≤ s.laneState pg l ∧ s.laneState pg l ≤ laneUp then s0.ptpLaneGone p (s.linkOfLane p l) else s0) s1
  let s3 := (s2.stopPortFlows kindIp p).dropPower pg
  (List.range 64).foldl (fun s c =>
    ((s.put pg c F.ippStrmStatusReceiving 0).put pg c F.ippStrmStatusPath1Up 0).put pg c F.ippStrmStatusPath2Up 0)
    { s3 with ipSlots := s3.ipSlots.map fun e =>
        if e.1.page = pg ∧ e.1.cell < 64 then (e.1, { IpSlot.cold with seq := e.2.seq, nextSample := e.2.nextSample }) else e }

/-- A port stops: pending commits of its slots and rasters apply at once (R38). -/
def State.ippStop (s : State) (p : Nat) : State :=
  let pg := pgIpp p
  let s1 := (s.ippDown p).putRunning pg false
  let s2 := (List.range ippRasters).foldl (fun s c =>
    (s.stopCommitOr pg (c + 1) (if s.rasterRefused pg c then some 24 else none)).thaw pg (c + 1)) s1
  (List.range 128).foldl (fun s c => if s.commitPending pg (unitStrm c) then s.applyStrm p c else s) s2

/-- A write of IPP CTRL. -/
def State.writeIppCtrl (s : State) (p w : Nat) : State :=
  let pg := pgIpp p
  let run := s.running pg
  let s1 := (s.writeBut pg 0 run w 0x080 [F.ippCtrlEn]).put pg 0 F.ippCtrlEn (bits w 0 1)
  if run && !bit w 0 then s1.ippStop p
  else if !run && bit w 0 && s1.acts pg then s1.ippStart p
  else s1

/-- What a port holds beside its registers goes with a reset of its engine; the associations end. -/
def State.ippClear (s : State) (p : Nat) : State :=
  let pg := pgIpp p
  let s1 := s.ippDown p
  { s1 with
    ipSlots := s1.ipSlots.filter fun e => decide (e.1.page ≠ pg)
    saGen := s1.saGen.filter fun e => decide (e.1.page ≠ pg)
    ptp := s1.ptp.filter fun e => decide (e.1.page ≠ pg)
    allocs := s1.allocs.filter fun a => decide (a.owner.1 ≠ pg)
    rxq := Tab.del p s1.rxq, txBuild := Tab.del p s1.txBuild, txq := Tab.del p s1.txq }

/-- The host writes a salt word; it is never read (R146). -/
def State.writeSalt (s : State) (p c off w : Nat) : State :=
  if off = 0x0D4 then s.put (pgIpp p) c F.ippSaSalt0Salt w
  else if off = 0x0D8 then s.put (pgIpp p) c F.ippSaSalt1Salt w
  else s.put (pgIpp p) c F.ippSaSalt2Salt w

end Sys2Proof.Machine
end

