-- ==== Sys2Proof/Machine/Pictures.lean ====
section
/-! DEFINITION. Pictures as pixels of three components: unpacking and packing of lines, deinterlacing, interpolation, scaling, colour
conversion (R160 to R170, R180 to R186). -/

namespace Sys2Proof.Machine

/-! ### Pixels -/

/-- A pixel of 4:4:4, each component an unsigned number of the width at hand. -/
structure Pixel where
  y : Nat
  cb : Nat
  cr : Nat
  deriving DecidableEq, Repr

/-- Component k of a pixel: Y, Cb, Cr. -/
def Pixel.comp (p : Pixel) : Nat → Nat
  | 0 => p.y | 1 => p.cb | _ => p.cr

/-- The pixel of three components. -/
def Pixel.of (f : Nat → Nat) : Pixel := ⟨f 0, f 1, f 2⟩

/-- A picture: its pixel at a column and a row. -/
abbrev Picture := Nat → Nat → Pixel

/-- One component of a picture. -/
def Picture.plane (p : Picture) (k : Nat) : Nat → Nat → Nat := fun x y => (p x y).comp k

/-- A picture's pixels as plain numbers. -/
def Picture.triples (p : Picture) : Nat → Nat → Nat × Nat × Nat := fun x y => ((p x y).y, (p x y).cb, (p x y).cr)

/-- A fraction in steps of one: itself where it is whole, else the step below or above (log entry 155). -/
def near (place : Nat) (n : Int) (d : Nat) : Int :=
  n / (d : Int) + (if n % (d : Int) ≠ 0 ∧ Config.roundsUp place n d = true then 1 else 0)

/-- A number held within 0 and a limit. -/
def clip (most : Nat) (v : Int) : Nat := min most v.toNat

/-- Part w of n of one number and the rest of another. -/
def mix (place w n a b : Nat) : Nat := (near place ((w * a + (n - w) * b : Nat) : Int) n).toNat

/-- Part w of n of one pixel and the rest of another. -/
def Pixel.mix (place w n : Nat) (a b : Pixel) : Pixel := .of fun k => Machine.mix place w n (a.comp k) (b.comp k)

/-! ### Lines of bytes and pixels (R160 stages 1 and 6) -/

/-- The words of a line at 12 bits. -/
def words12 (depth : Nat) (b : Bytes) : List Nat := (unpackBits (depthBits depth) b).map fun v => v * 2 ^ (12 - depthBits depth)

/-- The picture of rows of packed lines at 4:4:4 and 12 bits: chroma between the samples of a halved sampling is interpolated; the words
lie as in a packed line (log entry 147). -/
def unpackPicture (sampling depth : Nat) (rows : Nat → Bytes) : Picture := fun x y =>
  let word := fun r i => (words12 depth (rows r)).getD i 0
  match sampling with
  | 1 => ⟨word y (3 * x + 1), word y (3 * x), word y (3 * x + 2)⟩
  | 2 =>
    let chroma := fun k => (Config.chromaUp (fun j r => word (2 * r + k) (6 * (j / 2) + 4 + j % 2)) x y).toNat
    ⟨word y (6 * (x / 4) + x % 4), chroma 0, chroma 1⟩
  | _ =>
    let chroma := fun k => if x % 2 = 0 then word y (2 * x + k) else (Config.chromaUp (fun j _ => word y (4 * j + k)) x y).toNat
    ⟨word y (2 * x + 1), chroma 0, chroma 2⟩

/-- A component of so many bits rounded to a depth: to the nearest, held at the greatest. -/
def roundTo (wide depth v : Nat) : Nat :=
  let k := wide - depthBits depth
  min (2 ^ depthBits depth - 1) ((v + 2 ^ k / 2) / 2 ^ k)

/-- Row y of a picture of components of so many bits, packed in a sampling and a depth; where `plain` says so a chroma sample is the
pixel's own, elsewhere it is filtered. -/
def packRow (wide sampling depth w : Nat) (p : Picture) (plain : Nat → Nat → Bool) (y : Nat) : Bytes :=
  let r := roundTo wide depth
  let luma := fun x => r (p x y).y
  let chroma := fun k x v => r (if plain x v then (p x v).comp k else (Config.chromaDown (p.plane k) x v).toNat % 2 ^ wide)
  packBits (depthBits depth) (match sampling with
    | 1 => (List.range w).flatMap fun x => [r (p x y).cb, luma x, r (p x y).cr]
    | 2 => (List.range (w / 4)).flatMap fun j =>
        let c := if y % 2 = 0 then 1 else 2
        [luma (4 * j), luma (4 * j + 1), luma (4 * j + 2), luma (4 * j + 3), chroma c (4 * j) (y - y % 2), chroma c (4 * j + 2) (y - y % 2)]
    | _ => (List.range (w / 2)).flatMap fun j => [chroma 1 (2 * j) y, luma (2 * j), chroma 2 (2 * j) y, luma (2 * j + 1)])

/-! ### Fields (R161) -/

/-- Two fields woven. -/
def weave (first second : Picture) : Picture := fun x y => if y % 2 = 0 then first x (y / 2) else second x (y / 2)

/-- One field interpolated to a frame. -/
def bob (field : Picture) (second : Bool) : Picture := fun x y =>
  if decide (y % 2 = 1) = second then field x (y / 2)
  else .of fun k => (Config.fieldInterp (fun l => (field x l).comp k) y).toNat

/-- A field deinterlaced by motion over the fields around it (MOTION_ADAPTIVE). -/
def adaptive (prev : Option Picture) (cur : Picture) (next : Option Picture) (second : Bool) (woven : Picture) : Picture := fun x y =>
  let w := (Config.motionWeight (prev.map Picture.triples) cur.triples (next.map Picture.triples) x y).toNat
  Pixel.mix 0 w 65535 (bob cur second x y) (woven x y)

/-- A field of an interlaced output taken from a frame, as rows of the frame: its lines filtered vertically (R160). -/
def fieldRows (p : Picture) : Picture := fun x y => .of fun k => (Config.fieldFilter (fun r => (p x r).comp k) y).toNat

/-! ### Between two pictures (R163, R166) -/

/-- (1 - n/d) of A and n/d of B, by pixel (BLEND). -/
def blend (n d : Nat) (a b : Picture) : Picture := fun x y => Pixel.mix 1 n d (b x y) (a x y)

/-- A vector held within the search range: 256 pixels across, 128 lines down, in quarters. -/
def inSearch (v : Int × Int) : Int × Int := (max (-1024) (min 1024 v.1), max (-512) (min 512 v.2))

/-- The picture at n/d of the way from A to B along the motion (MCFRC): a block of low confidence is blended, an occluded pixel comes
from the picture in which it is visible. -/
def compensate (low : Nat → Nat → Bool) (n d : Nat) (a b : Picture) : Picture := fun x y =>
  let bx := x / 8
  let by_ := y / 8
  if low bx by_ then blend n d a b x y
  else
    let fwd := inSearch (Config.blockVector a.triples b.triples true bx by_)
    let bwd := inSearch (Config.blockVector a.triples b.triples false bx by_)
    let from_ := fun (p : Picture) (q : Int) => Pixel.of fun k =>
      (Config.subPixel (p.plane k) (4 * x + near 2 (q * fwd.1) d) (4 * y + near 2 (q * fwd.2) d)).toNat
    let pa := from_ a (-(n : Int))
    let pb := from_ b ((d : Int) - n)
    if Config.vectorsAgree fwd bwd then Pixel.mix 3 n d pb pa
    else if Config.visibleInFirst a.triples b.triples x y then pa else pb

/-! ### Scaling (R168, R180) -/

/-- The source places that an output place of one axis draws on, each with its coefficient: `taps` of them, more on downscaling, around
the place that the centres of the two grids share, in 64 phases; an axis that keeps its size passes (log entry 156). -/
def scalerTaps (taps filter src dst x : Nat) : List (Nat × Int) :=
  if src = dst then [(x, (Config.scalerUnit : Int) + 1)]
  else
    let n := max taps ((taps * src + dst - 1) / dst)
    let pos := near 4 (64 * (((2 * x + 1) * src : Nat) - (dst : Int))) (2 * dst)
    let phase := (pos % 64).toNat
    (List.range n).map fun (j : Nat) =>
      let i := pos / 64 - ((n / 2 - 1 : Nat) : Int) + (j : Int)
      (clip (src - 1) i, (Config.scalerCoef taps filter src dst phase j).toInt)

/-- A rectangle of a picture, from (cx, cy) and cw by ch, scaled to dw by dh, at `wide` bits: outermost pixels repeat. -/
def scalePicture (across down filter wide : Nat) (p : Picture) (cx cy cw ch dw dh : Nat) : Picture := fun x y =>
  let hs := scalerTaps across filter cw dw x
  let vs := scalerTaps down filter ch dh y
  let unit := Config.scalerUnit + 1
  .of fun k => clip (2 ^ wide - 1) (near 5 ((vs.map fun v => (hs.map fun h => v.2 * h.2 * ((p (cx + h.1) (cy + v.1)).comp k : Int)).sum).sum)
    (unit * unit))

/-! ### Colour (R169, R182) -/

/-- Kr and Kb of a colour space code, in 1/10,000: BT.601, BT.709, BT.2020. -/
def lumaWeights : Nat → Nat × Nat
  | 0 => (2990, 1140)
  | 2 => (2627, 593)
  | _ => (2126, 722)

/-- Y'CbCr of 12 bits, narrow range, to R'G'B' in 65,535ths. -/
def toRgb (cs : Nat) (p : Pixel) : Int × Int × Int :=
  let (kr, kb) := lumaWeights cs
  let kg := 10000 - kr - kb
  let y : Int := ((p.y : Int) - 256) * 3584 * 10000
  let cb : Int := ((p.cb : Int) - 2048) * 3504 * 2
  let cr : Int := ((p.cr : Int) - 2048) * 3504 * 2
  let d := 3504 * 3584 * 10000
  (near 6 (65535 * (y + (10000 - kr : Nat) * cr)) d,
    near 6 (65535 * (y * kg - (kr * (10000 - kr) : Nat) * cr - (kb * (10000 - kb) : Nat) * cb)) (d * kg),
    near 6 (65535 * (y + (10000 - kb : Nat) * cb)) d)

/-- R'G'B' in n-ths to Y'CbCr of so many bits, narrow range. -/
def toYcc (cs n wide : Nat) (r g b : Int) : Pixel :=
  let (kr, kb) := lumaWeights cs
  let kg := 10000 - kr - kb
  let k := 2 ^ (wide - 12)
  let y : Int := kr * r + kg * g + kb * b
  let c := fun (v : Int) (w : Nat) => clip (2 ^ wide - 1) (near 7 (k * (2048 * (20000 - 2 * w : Nat) * n + 3584 * (10000 * v - y)))
    ((20000 - 2 * w) * n))
  ⟨clip (2 ^ wide - 1) (near 7 (k * (256 * 10000 * n + 3504 * y)) (10000 * n)), c b kb, c r kr⟩

/-- Three numbers. -/
abbrev Vec3 := ℚ × ℚ × ℚ

/-- Their cross product. -/
def cross (a b : Vec3) : Vec3 := (a.2.1 * b.2.2 - a.2.2 * b.2.1, a.2.2 * b.1 - a.1 * b.2.2, a.1 * b.2.1 - a.2.1 * b.1)

/-- Their product. -/
def dot (a b : Vec3) : ℚ := a.1 * b.1 + a.2.1 * b.2.1 + a.2.2 * b.2.2

/-- The chromaticities of the red, green and blue primaries of a colour space code; BT.601 has those of its line count. -/
def primaries (cs : Nat) (lines625 : Bool) : Vec3 × Vec3 × Vec3 :=
  let c := fun (x y : ℚ) => (x, y, 1 - x - y)
  match cs with
  | 0 => if lines625 then (c (64 / 100) (33 / 100), c (29 / 100) (60 / 100), c (15 / 100) (6 / 100))
      else (c (630 / 1000) (340 / 1000), c (310 / 1000) (595 / 1000), c (155 / 1000) (70 / 1000))
  | 2 => (c (708 / 1000) (292 / 1000), c (170 / 1000) (797 / 1000), c (131 / 1000) (46 / 1000))
  | _ => (c (64 / 100) (33 / 100), c (30 / 100) (60 / 100), c (15 / 100) (6 / 100))

/-- The parts of three primaries in a colour. -/
def partsIn (m : Vec3 × Vec3 × Vec3) (v : Vec3) : Vec3 :=
  let (r, g, b) := m
  let det := dot r (cross g b)
  (dot (cross g b) v / det, dot (cross b r) v / det, dot (cross r g) v / det)

/-- The white of BT.601, BT.709 and BT.2020 (D65). -/
def whitePoint : Vec3 := (3127 / 10000, 3290 / 10000, 1 - 3127 / 10000 - 3290 / 10000)

/-- Linear R, G, B under one set of primaries as those of another, white for white (R169 step 3). -/
def gamut (a b : Vec3 × Vec3 × Vec3) (v : Vec3) : Vec3 :=
  let sa := partsIn a whitePoint
  let sb := partsIn b whitePoint
  let sum := fun (f : Vec3 → ℚ) => v.1 * sa.1 * f a.1 + v.2.1 * sa.2.1 * f a.2.1 + v.2.2 * sa.2.2 * f a.2.2
  let w := partsIn b (sum (·.1), sum (·.2.1), sum (·.2.2))
  (w.1 / sb.1, w.2.1 / sb.2.1, w.2.2 / sb.2.2)

/-- Channel k of entry i of a host LUT (R170). -/
def lutEntry (luts : List (Nat × Bytes)) (sel i k : Nat) : Nat :=
  match Assoc.find id sel luts with
  | some b => leValue ((b.drop (8 * i + 2 * k)).take 2)
  | none => (Config.emptyLut sel i k).toNat

/-! ### The LUTs that the device fills (R169) -/

/-- One, in the fixed point that the transfer functions are taken in. -/
abbrev fixOne : Nat := 2 ^ 64

/-- The integer square root below a power of 2, from its highest bit down. -/
def rootBelow : Nat → Nat → Nat → Nat
  | 0, _, r => r
  | k + 1, n, r => if (r + 2 ^ k) * (r + 2 ^ k) ≤ n then rootBelow k n (r + 2 ^ k) else rootBelow k n r

/-- The square root of a number in fixed point. -/
def fixRoot (x : Nat) : Nat := rootBelow 72 (x * fixOne) 0

/-- A number in fixed point to the power of an n-bit binary fraction: a root for each bit. -/
def fixFraction : Nat → Nat → Nat → Nat
  | 0, _, _ => fixOne
  | n + 1, e, x =>
    let r := fixRoot x
    (if 2 ^ n ≤ e then r else fixOne) * fixFraction n (e % 2 ^ n) r / fixOne

/-- A number in fixed point to a whole power. -/
def fixWhole : Nat → Nat → Nat
  | 0, _ => fixOne
  | n + 1, x => x * fixWhole n x / fixOne

/-- A number in fixed point to the power a / b. -/
def fixPow (x a b : Nat) : Nat := fixWhole (a / b) x * fixFraction 32 (a % b * 2 ^ 32 / b) x / fixOne

/-- A decimal in fixed point: a / b. -/
def fix (a b : Nat) : Nat := a * fixOne / b

/-- The base of natural logarithms in fixed point. -/
def fixE : Nat := fix 2718281828459045235 1000000000000000000

/-- HLG's constants a, b and c (BT.2100). -/
def hlgA : Nat := fix 17883277 100000000
def hlgB : Nat := fix 28466892 100000000
def hlgC : Nat := fix 55991073 100000000

/-- The light that an HLG signal stands for, its peak being one: BT.2100's OETF turned round. -/
def hlgLight (v : Nat) : Nat :=
  if v ≤ fixOne / 2 then v * v / fixOne / 3
  else
    let y := (v + hlgA - hlgC) * fixOne / hlgA
    (fixPow fixE y fixOne * fixOne / fixE + hlgB) / 12

/-- The largest signal, in so many bits, whose light does not exceed a light. -/
def signalBelow (light : Nat → Nat) : Nat → Nat → Nat → Nat
  | 0, _, v => v
  | k + 1, x, v =>
    let w := v + fixOne / 2 ^ 24 * 2 ^ k
    if w ≤ fixOne ∧ light w ≤ x then signalBelow light k x w else signalBelow light k x v

/-- PQ's constants c1, c2 and c3, which m1 = 1305/8192 and m2 = 2523/32 go with (BT.2100). -/
def pqC1 : Nat := fix 3424 4096
def pqC2 : Nat := fix 2413 128
def pqC3 : Nat := fix 2392 128

/-- Step 2: the light of a signal, one being the white of SDR, 10,000 cd/m² of PQ, the peak of HLG: BT.1886, PQ's EOTF, and what
HLG's OETF encodes. -/
def signalLight (tf v : Nat) : Nat :=
  match tf with
  | 1 =>
    let n := fixPow v 32 2523
    fixPow ((n - pqC1) * fixOne / (pqC2 - pqC3 * n / fixOne)) 8192 1305
  | 2 => hlgLight v
  | _ => fixPow v 12 5

/-- Step 5: the signal of a light: BT.709's OETF, PQ's EOTF turned round, HLG's OETF. -/
def lightSignal (tf x : Nat) : Nat :=
  match tf with
  | 1 =>
    let n := fixPow x 1305 8192
    fixPow ((pqC1 + pqC2 * n / fixOne) * fixOne / (fixOne + pqC3 * n / fixOne)) 2523 32
  | 2 => signalBelow hlgLight 25 x 0
  | _ => if x < fix 18 1000 then x * 9 / 2 else fix 1099 1000 * fixPow x 9 20 / fixOne - fix 99 1000

/-- The luminance of three lights under BT.2100. -/
def lightLuma (x : Nat → Nat) : Nat := (2627 * x 0 + 6780 * x 1 + 593 * x 2) / 10000

/-- Step 4: channel k of three lights under one transfer function as those under another, clipped: the white of SDR is the reference white of
203 cd/m², PQ's one 10,000, HLG's peak 1,000 behind its OOTF of gamma 1.2. -/
def lightShift (inTf outTf : Nat) (x : Nat → Nat) (k : Nat) : Nat :=
  if inTf = outTf then x k
  else
    let shown : Nat → Nat := fun j => match inTf with
      | 1 => 10000 * x j
      | 2 => 1000 * (fixPow (lightLuma x) 1 5 * x j / fixOne)
      | _ => 203 * x j
    min fixOne (match outTf with
      | 1 => shown k / 10000
      | 2 =>
        let y := fixPow (lightLuma shown / 1000) 1 6
        if y = 0 then 0 else shown k / 1000 * fixOne / y
      | _ => shown k / 203)

/-- Channel k of entry i of a LUT that the device fills: SEL 0 and 2 by the curves, SEL 1 by the change of light (log entry 212). -/
def deviceEntry (inTf outTf sel i k : Nat) : Nat :=
  let v := match sel with
    | 0 => signalLight inTf (fix i 1023)
    | 1 => lightShift inTf outTf (fun j => fix (match j with | 0 => i % 33 | 1 => i / 33 % 33 | _ => i / 1089) 32) k
    | _ => lightSignal outTf (fix i 1023)
  clip 65535 (near 10 (v * 65535 : Nat) fixOne)

/-- A value through a 1D LUT: linear between entries. -/
def lutCurve (entry : Nat → Nat → Nat → Nat) (sel k : Nat) (v : Int) : Int :=
  let x := clip 65535 v * 1023
  let e := fun i => entry sel (min 1023 i) k
  mix 8 (x % 65535) 65535 (e (x / 65535 + 1)) (e (x / 65535))

/-- Three values through a 3D LUT: tetrahedral, from the corner below along the axes in falling order of their parts. -/
def lutCube (entry : Nat → Nat → Nat → Nat) (v : Int × Int × Int) (k : Nat) : Int :=
  let axis := fun (w : Int) (step : Nat) =>
    let x := clip 65535 w * 32
    (x % 65535, x / 65535, step)
  let axes := [axis v.1 1, axis v.2.1 33, axis v.2.2 1089]
  let base := (axes.map fun a => a.2.1 * a.2.2).sum
  let sorted := axes.mergeSort fun a b => decide (b.1 ≤ a.1)
  let e := fun i => entry 1 i k
  let go := sorted.foldl (fun (s : Nat × Nat × Nat) a => (s.1 + (s.2.2 - a.1) * e s.2.1, s.2.1 + (if a.1 = 0 then 0 else a.2.2), a.1))
    (0, base, 65535)
  near 8 ((go.1 + go.2.2 * e go.2.1 : Nat) : Int) 65535

/-- The settings of the colour stage: LUT_HOST, transfer functions, colour spaces, whether source and output have 625 lines. -/
structure ColourCfg where
  host : Bool
  inTf : Nat
  outTf : Nat
  inCs : Nat
  outCs : Nat
  in625 : Bool
  out625 : Bool
  luts : List (Nat × Bytes)

/-- The six steps of the colour stage on a pixel of 12 bits (R169); the LUTs are the host's or those that the device fills (log entry
212). -/
def convertColour (c : ColourCfg) (p : Pixel) : Pixel :=
  let entry := if c.host then lutEntry c.luts else deviceEntry c.inTf c.outTf
  let curve := lutCurve entry
  let (r, g, b) := toRgb c.inCs p
  let q := fun (v : Int) => (v : ℚ) / 65535
  let back := fun (v : ℚ) => near 9 (v * 65535).num (v * 65535).den
  let (r3, g3, b3) := gamut (primaries c.inCs c.in625) (primaries c.outCs c.out625) (q (curve 0 0 r), q (curve 0 1 g), q (curve 0 2 b))
  let cube := lutCube entry (back r3, back g3, back b3)
  toYcc c.outCs 65535 12 (curve 2 0 (cube 0)) (curve 2 1 (cube 1)) (curve 2 2 (cube 2))

end Sys2Proof.Machine
end

