-- ==== Sys2Proof/Machine/Cnv.lean ====
section
/-! DEFINITION. Conversion slices: limits, output frames, LUTs, starting and stopping (R152 to R175). -/

namespace Sys2Proof.Machine

/-! ### Settings and limits (R152, R153, R156, R167) -/

/-- A cell of a slice. -/
def State.cnvCell (s : State) (n c : Nat) : CnvCell :=
  (Assoc.find Key.code ⟨pgCnv n, c, 0⟩ s.cnvCells).getD
    { shown := none, slip := none, second := false, frameNs := 0, cut := false, job := none, since := 0, fits22 := 0, fits32 := 0, fields := [], luts := [], next := [] }

/-- Write a cell of a slice. -/
def State.putCnvCell (s : State) (n c : Nat) (x : CnvCell) : State :=
  { s with cnvCells := Assoc.set Key.code ⟨pgCnv n, c, 0⟩ x s.cnvCells }

/-- Is the slice in QUAD mode? -/
def State.cnvQuad (s : State) (n : Nat) : Bool := s.flag (pgCnv n) 0 F.cnvCtrlMode

/-- Is the slice in FOLLOW? -/
def State.cnvFollow (s : State) (n : Nat) : Bool := s.flag (pgCnv n) 0 F.cnvCtrlTiming

/-- OUT_TB of a slice. -/
def State.cnvTb (s : State) (n : Nat) : Nat := s.get (pgCnv n) 0 F.cnvCtrlOutTb

/-- The cells in use: cell 0 in SINGLE, the enabled ones in QUAD. -/
def State.cnvCellsOn (s : State) (n : Nat) : List Nat :=
  if s.cnvQuad n then [0, 1, 2, 3].filter fun c => s.flag (pgCnv n) c F.cnvCellCtrlEn else [0]

/-- The output rate of a cell reading a source: OUT_TB's, or the source's under FOLLOW. -/
def State.cnvRate (s : State) (n src : Nat) : Nat :=
  if s.cnvFollow n then s.get pgFlow src F.flowwinCtx1Rate else (s.tb (s.cnvTb n)).rate

/-- Pixels per second of a format, times the denominator of its rate. -/
def pixelRate (struct rate : Nat) : Nat := fmtWidth struct * fmtHeight struct * rateNum rate

/-- Does a pixel rate exceed a limit? -/
def pixelsOver (struct rate limit : Nat) : Bool := decide (limit * rateDen rate < pixelRate struct rate)

/-- Bits per pixel: two samples for 4:2:2, three for 4:4:4, one and a half for 4:2:0. -/
def pixelBits (sampling depth : Nat) : Nat := samplingWords sampling * depthBits depth / 2

/-- Bits per second of returned video, rounded up. -/
def returnBits (struct rate sampling depth : Nat) : Nat :=
  ceilDiv (pixelRate struct rate * pixelBits sampling depth) (rateDen rate)

/-- The most returned video of one slice or compositor. -/
abbrev returnLimit : Nat := 12000000000

/-- The settings of a cell that a commit would leave, or the active ones. -/
abbrev Getter := Field → Nat

/-- A rectangle's width on an axis: 0 stands for the whole. -/
def fullOr (v whole : Nat) : Nat := if v = 0 then whole else v

/-- Is a scale ratio outside 1/4 to 16? -/
def ratioBad (out src : Nat) : Bool := decide (4 * out < src ∨ 16 * src < out)

/-- A cell's rectangles: in the source from (cx, cy) cw by ch, in the output from (dx, dy) dw by dh. -/
structure CnvRects where
  cx : Nat
  cy : Nat
  cw : Nat
  ch : Nat
  dx : Nat
  dy : Nat
  dw : Nat
  dh : Nat

/-- The rectangles of a cell that reads a source; a size of 0 takes the whole axis (R167). -/
def cnvRects (get : Getter) (srcStruct : Nat) : CnvRects :=
  let out := get F.cnvOutFmtStruct
  { cx := if get F.cnvCropWhW = 0 then 0 else get F.cnvCropXyX
    cy := if get F.cnvCropWhH = 0 then 0 else get F.cnvCropXyY
    cw := fullOr (get F.cnvCropWhW) (fmtWidth srcStruct)
    ch := fullOr (get F.cnvCropWhH) (fmtHeight srcStruct)
    dx := if get F.cnvDstWhW = 0 then 0 else get F.cnvDstXyX
    dy := if get F.cnvDstWhH = 0 then 0 else get F.cnvDstXyY
    dw := fullOr (get F.cnvDstWhW) (fmtWidth out)
    dh := fullOr (get F.cnvDstWhH) (fmtHeight out) }

/-- Does DST lie outside the output's picture? -/
def dstBad (get : Getter) : Bool :=
  let r := cnvRects get 0
  decide (fmtWidth (get F.cnvOutFmtStruct) < r.dx + r.dw ∨ fmtHeight (get F.cnvOutFmtStruct) < r.dy + r.dh)

/-- Does CROP fit the source? -/
def cropFits (get : Getter) (srcStruct : Nat) : Bool :=
  let r := cnvRects get srcStruct
  decide (r.cx + r.cw ≤ fmtWidth srcStruct ∧ r.cy + r.ch ≤ fmtHeight srcStruct)

/-- Does CROP not fit the source, or is a scale ratio illegal (R167)? -/
def cnvScaleBad (get : Getter) (srcStruct : Nat) : Bool :=
  let r := cnvRects get srcStruct
  !cropFits get srcStruct || ratioBad r.dw r.cw || (!fmtInterlaced (get F.cnvOutFmtStruct) && ratioBad r.dh r.ch)

/-- The error for which the settings of a slice are refused: FRC_CFG, CAPACITY, SCALE_RANGE; `get` reads a cell's
settings. A cell whose source is no ingress flow is judged by its output alone. -/
def State.cnvRefusal (s : State) (n : Nat) (get : Nat → Getter) : Option Nat :=
  let cells := s.cnvCellsOn n
  let limit := if s.cnvQuad n then 124416000 else 497664000
  let src := fun c => get c F.cnvSrcFlow
  let inSt := fun c => s.get pgFlow (src c) F.flowwinCtx1Struct
  let inRt := fun c => s.get pgFlow (src c) F.flowwinCtx1Rate
  let outSt := fun c => get c F.cnvOutFmtStruct
  let known := fun c => s.isIngress (src c)
  if s.cnvFollow n && (s.cnvQuad n || cells.any fun c => decide (get c F.cnvFrcMode ≠ 0)) then some 18
  else if cells.any (fun c => decide (outSt c = 6) || pixelsOver (outSt c) (s.cnvRate n (src c)) limit ||
      (known c && (decide (inSt c = 6) || pixelsOver (inSt c) (inRt c) limit))) then some 16
  else if returnLimit < cells.foldl (fun a c =>
      a + returnBits (outSt c) (s.cnvRate n (src c)) (get c F.cnvOutFmtSampling) (get c F.cnvOutFmtDepth)) 0 then some 16
  else if cells.any (fun c => dstBad (get c) || (known c && cnvScaleBad (get c) (inSt c))) then some 17
  else none

/-- The active settings of a cell. -/
def State.cnvGet (s : State) (n c : Nat) : Getter := fun f => s.get (pgCnv n) c f

/-! ### Delay (R164) -/

/-- Whole nanoseconds of k input periods and 12 output lines. -/
def cnvDelayNs (k inRate half outStruct outRate : Nat) : Nat :=
  let a := k * rateDen inRate * 1000000000
  let b := rateNum inRate * half
  let c := 12 * rateDen outRate * 1000000000
  let d := rateNum outRate * fmtLines outStruct
  (a * d + c * b) / (b * d)

/-- D of a cell from its active settings; under LOCKED with FRC OFF each frame measures it. -/
def State.cnvDelay (s : State) (n c : Nat) : Nat :=
  let g := s.cnvGet n c
  let src := g F.cnvSrcFlow
  let st := s.get pgFlow src F.flowwinCtx1Struct
  let rt := s.get pgFlow src F.flowwinCtx1Rate
  let ma := decide (g F.cnvDeintMode = 0)
  let half := if fmtInterlaced st then 2 else 1
  let k := if g F.cnvFrcMode = 0 then (if fmtInterlaced st ∧ ma = true then 1 else 0)
    else if fmtInterlaced st ∧ ma = true then 3 else 2
  cnvDelayNs k rt half (g F.cnvOutFmtStruct) (s.cnvRate n src)

/-- DELAY_NS of the cells in use shows D. -/
def State.cnvShowDelay (s : State) (n : Nat) : State :=
  (s.cnvCellsOn n).foldl (fun s c => s.put (pgCnv n) c F.cnvDelayNsNs (s.cnvDelay n c)) s

/-! ### Producing (R154, R155, R159) -/

/-- The returned flows of a cell, video and audio. -/
def State.cnvFlows (s : State) (n c : Nat) : List Nat :=
  (s.flowOn kindCnv n c false).toList ++ (s.flowOn kindCnv n (0x20 + c) false).toList

/-- A cell starts or stops producing. -/
def State.cnvProducing (s : State) (n c : Nat) (on : Bool) : State :=
  let p := pgCnv n
  let s1 := (s.put p c F.cnvCellStatusProducing (ofBool on)).putStat p (16 + c) on
  let s2 := if on then s1
    else (s1.cnvFlows n c).foldl (fun s f => (s.dropPartial f).putRun f { (s.dropPartial f).run f with producing := false }) s1
  if s.flag p c F.cnvCellStatusProducing = on then s2 else s2.raise p 16

/-- The status bits that say why a cell produces nothing. -/
def State.cnvMarks (s : State) (n c : Nat) (missing mismatch crop wait : Bool) : State :=
  let p := pgCnv n
  (((s.put p c F.cnvCellStatusFsMissing (ofBool missing)).put p c F.cnvCellStatusRateMismatch (ofBool mismatch)).put p c
    F.cnvCellStatusCropErr (ofBool crop)).put p c F.cnvCellStatusWaiting (ofBool wait)

/-- A cell produces nothing: the audio it returns falls silent. -/
def State.cnvSilent (s : State) (n c : Nat) : State :=
  match s.flowOn kindCnv n (0x20 + c) false with
  | some f => s.hear f .silent false
  | none => s

/-- A cell that produces nothing: its audio is silent, and what it showed last is no measure of a slip when it produces again. -/
def State.cnvIdle (s : State) (n c : Nat) (missing mismatch crop wait : Bool) : State :=
  let s1 := ((s.cnvMarks n c missing mismatch crop wait).cnvProducing n c false).cnvSilent n c
  s1.putCnvCell n c { s1.cnvCell n c with second := false, shown := none, slip := none, job := none }

/-! ### The source's pictures (R161, R162) -/

/-- A field of the source, or a progressive frame, that is complete: its buffer, whether it is the second field, when its first active
line began. -/
structure SrcField where
  buf : FsBuffer
  second : Bool
  startNs : Nat

/-- The complete fields or frames that a store holds, oldest first: a first field is complete when the second has begun. -/
def srcFields (st : FrameStore) (inter : Bool) (half now since : Nat) : List SrcField :=
  (st.buffers.reverse.filter fun b => decide (since ≤ b.begunNs)).flatMap fun b =>
    let first : SrcField := ⟨b, false, b.begunNs⟩
    if !inter then (if b.ready now then [first] else [])
    else if b.ready now then [first, ⟨b, true, b.secondNs.getD (b.begunNs + half)⟩]
    else match b.secondNs with
      | some t => if t ≤ now then [first] else []
      | none => []

/-- The fields or frames that have begun by an instant, oldest first. -/
def begunFields (st : FrameStore) (at_ since : Nat) : List SrcField :=
  (st.buffers.reverse.filter fun b => decide (since ≤ b.begunNs ∧ b.begunNs ≤ at_)).flatMap fun b =>
    ⟨b, false, b.begunNs⟩ :: ((b.secondNs.filter fun t => decide (t ≤ at_)).map fun t => (⟨b, true, t⟩ : SrcField)).toList

/-- What the cadence detection has noted of a field. -/
def CnvCell.noted (x : CnvCell) (f : SrcField) : Option CellField :=
  x.fields.find? fun y => decide (y.seq = f.buf.seq ∧ y.second = f.second)

/-- The cadence that was declared with a field. -/
def CnvCell.cadenceOf (x : CnvCell) (f : SrcField) : Nat := ((x.noted f).map CellField.cadence).getD 0

/-- Fields of one original picture together, in their order: while a cadence is declared, those from one that begins a picture on
(R162); else each field alone. -/
def CnvCell.originals (x : CnvCell) (l : List SrcField) : List (List SrcField) :=
  (l.foldl (fun gs f => match gs with
    | (h :: g) :: t =>
      if x.cadenceOf f ≠ 0 ∧ x.cadenceOf h ≠ 0 ∧ ((x.noted f).map CellField.starts).getD true = false then (h :: g ++ [f]) :: t
      else [f] :: gs
    | _ => [f] :: gs) []).reverse

/-- The detection takes a field that it has not seen (R162): the cadence, the cell, after ten fields in a row that fit, or one that
does not. -/
def CnvCell.note (on : Bool) (x : Nat × CnvCell) (f : FieldNote) : Nat × CnvCell :=
  let (cad, c) := x
  if c.fields.any fun y => decide (y.seq = f.seq ∧ y.second = f.second) then x
  else
    let a := if on && f.fits22 then c.fits22 + 1 else 0
    let b := if on && f.fits32 then c.fits32 + 1 else 0
    let cad' := if (cad = 1 ∧ a ≠ 0) ∨ (cad = 2 ∧ b ≠ 0) then cad else if 10 ≤ a then 1 else if 10 ≤ b then 2 else 0
    (cad', { c with fits22 := a, fits32 := b, fields := (⟨f.seq, f.second, cad', f.starts⟩ :: c.fields).take 64 })

/-- The picture of a field or a progressive frame in the format of its flow; an errored line is the buffer's before (R115, R160). -/
def State.fieldPicture (s : State) (src : Nat) (st : FrameStore) (f : SrcField) : Picture :=
  let struct := s.get pgFlow src F.flowwinCtx1Struct
  let first := (fmtFirstActive struct).getD (ofBool f.second) 1
  unpackPicture (s.get pgFlow src F.flowwinCtx1Sampling) (s.get pgFlow src F.flowwinCtx1Depth) fun l =>
    (storeLine st s.now f.buf.seq (first + l)).getD []

/-- The progressive picture of field i under a DEINT mode (R161); the woven pair is the two fields of its frame, or with the field
before where the frame's second is still to come. -/
def State.modePicture (s : State) (src mode : Nat) (st : FrameStore) (l : List SrcField) (i : Nat) (f : SrcField) : Picture :=
  let pic := s.fieldPicture src st
  let prev := if i = 0 then none else l[i - 1]?
  let next := l[i + 1]?
  let pair := if f.second then prev else match next with
    | some g => if g.buf.seq = f.buf.seq then some g else prev
    | none => prev
  let woven := match pair with
    | some g => if f.second then weave (pic g) (pic f) else weave (pic f) (pic g)
    | none => bob (pic f) f.second
  if mode = 1 then bob (pic f) f.second
  else if mode = 2 then woven
  else adaptive (prev.map pic) (pic f) (next.map pic) f.second woven

/-- An input picture of a cell: the fields it is formed from, when it begins, the frame number of its first, whether of a declared
cadence, the picture. -/
structure InPicture where
  fields : List (Nat × Bool)
  startNs : Nat
  frame : Nat
  cadence : Bool
  pic : Picture

/-- The input pictures of a cell that are formed from fields or frames, oldest first (R161 to R163): progressive frames, deinterlaced
fields, or original pictures woven from their fields. Rate conversion with MOTION_ADAPTIVE waits for the field after. -/
def State.picturesOf (s : State) (n c src : Nat) (st : FrameStore) (l : List SrcField) : List InPicture :=
  let g := s.cnvGet n c
  let x := s.cnvCell n c
  let inter := fmtInterlaced (s.get pgFlow src F.flowwinCtx1Struct)
  let pics := (x.originals l).filterMap fun grp =>
    match grp with
    | [] => none
    | f :: _ =>
      let i := l.findIdx fun y => decide (y.buf.seq = f.buf.seq ∧ y.second = f.second)
      let first := grp.find? fun y => !y.second
      let second := grp.find? fun y => y.second
      let waits := decide (g F.cnvFrcMode ≠ 0 ∧ g F.cnvDeintMode = 0 ∧ l.length = i + 1)
      let pic := match first, second with
        | some a, some b => some (weave (s.fieldPicture src st a) (s.fieldPicture src st b))
        | _, _ => if waits then none else some (s.modePicture src (g F.cnvDeintMode) st l i f)
      pic.map fun p => { fields := grp.map fun y => (y.buf.seq, y.second), startNs := f.startNs, frame := f.buf.frame
                         cadence := decide (x.cadenceOf f ≠ 0), pic := p }
  if inter then pics
  else l.map fun f => { fields := [(f.buf.seq, false)], startNs := f.startNs, frame := f.buf.frame, cadence := false
                        pic := s.fieldPicture src st f }

/-- The input pictures of a rate-converting cell: those that are complete. -/
def State.cnvPictures (s : State) (n c src : Nat) (st : FrameStore) : List InPicture :=
  let rate := s.get pgFlow src F.flowwinCtx1Rate
  s.picturesOf n c src st (srcFields st (fmtInterlaced (s.get pgFlow src F.flowwinCtx1Struct)) (rateDen rate * 500000000 / rateNum rate)
    s.now (s.cnvCell n c).since)

/-! ### The choice of pictures (R158, R159, R163, R165) -/

/-- The newest buffer whose write began early enough: the cell forms its output behind the writer (R156, R158, R164). -/
def pickBuffer (st : FrameStore) (now : Nat) (early : Int) : Option FsBuffer :=
  st.buffers.find? fun b => decide ((b.begunNs : Int) + early ≤ now)

/-- The threshold after a slip: a line period further or nearer until the source phase has moved by more than a line. -/
def slipThreshold (base line : Int) (frame limit : Nat) (slip : Option (Bool × Int)) (phase : Int) : Int :=
  match slip with
  | none => base
  | some (rep, ph) => if limit < (wrapPhase frame (phase - ph)).natAbs then base else if rep then base - line else base + line

/-- Nanoseconds of one line of a format. -/
def lineNs (struct rate : Nat) : Nat := nsOf struct rate (fmtSamples struct rate)

/-- What an output frame or field is formed from: pictures A and B and the phase between them as a fraction, and the buffer that a cell
without rate conversion shows. -/
structure CnvChoice where
  a : InPicture
  b : InPicture
  num : Nat
  den : Nat
  shows : Option FsBuffer

/-- Pictures A and B and the phase for a source time: none where either is not complete. The last original picture of a cadence stands
alone until the next is complete (log entry 157). -/
def choosePictures : List InPicture → Int → Option CnvChoice
  | a :: b :: t, at_ =>
    if (a.startNs : Int) ≤ at_ ∧ at_ < b.startNs then some ⟨a, b, (at_ - a.startNs).toNat, b.startNs - a.startNs, none⟩
    else choosePictures (b :: t) at_
  | [a], at_ => if a.cadence = true ∧ (a.startNs : Int) ≤ at_ then some ⟨a, a, 0, 1, none⟩ else none
  | [], _ => none

/-- The picture of a buffer that a frame, or its second field, shows without rate conversion, as it stands at an instant: of an interlaced
source, that of the second field where that has begun. -/
def State.cnvOf (s : State) (n c src at_ : Nat) (second : Bool) (st : FrameStore) (b : FsBuffer) : Option CnvChoice :=
  let l := s.picturesOf n c src st (begunFields st at_ (s.cnvCell n c).since)
  let own := fun (k : Bool) => l.find? fun p => decide ((b.seq, k) ∈ p.fields)
  ((if second then (own true).orElse fun _ => own false else own false)).map fun p => ⟨p, p, 0, 1, some b⟩

/-- The phase of a source against a cell's output frame, in samples of the output (R91). -/
def State.cnvPhase (s : State) (n c src : Nat) : Int :=
  let os := s.cnvGet n c F.cnvOutFmtStruct
  let rt := s.cnvRate n src
  wrapPhase (fmtFrameSamples os rt) (samplesBetween os rt (s.lineOneNs src) s.now)

/-- The buffer of a frame-synchronising cell (R158): its threshold is 12 output lines, and the field that MOTION_ADAPTIVE needs beside
them (R161). -/
def State.cnvPick (s : State) (n c src : Nat) (st : FrameStore) : Option FsBuffer :=
  let os := s.cnvGet n c F.cnvOutFmtStruct
  let rt := s.cnvRate n src
  pickBuffer st s.now (slipThreshold (s.cnvDelay n c : Nat) (lineNs os rt) (fmtFrameSamples os rt) (fmtSamples os rt)
    (s.cnvCell n c).slip (s.cnvPhase n c src))

/-- What an output frame or field shows; the second field of a frame shows the buffer of the first, and where its source is lost the
newest picture: the frame in progress is finished (R159). -/
def State.cnvInputs (s : State) (n c src : Nat) (st : FrameStore) : Option CnvChoice :=
  let x := s.cnvCell n c
  if s.cnvGet n c F.cnvFrcMode = 0 ∨ s.cnvFollow n = true then
    let b := if x.second then x.shown.bind fun k => st.buffers.find? fun b => decide (b.seq = k)
      else if s.cnvFollow n then pickBuffer st s.now (s.cnvDelay n c)
      else s.cnvPick n c src st
    (b.filter fun b => decide (x.since ≤ b.begunNs)).bind (s.cnvOf n c src s.now x.second st)
  else
    let l := s.cnvPictures n c src st
    match choosePictures l ((s.now : Int) - s.cnvDelay n c) with
    | some ch => some ch
    | none => if x.second then l.getLast?.map fun p => ⟨p, p, 0, 1, none⟩ else none

/-- The choice in a pair: the shadow takes the lead's pictures and phase (R305). -/
def State.cnvChosen (s : State) (n c src : Nat) (st : FrameStore) : Option CnvChoice :=
  let own := s.cnvInputs n c src st
  match s.decided (pgCnv n) c with
  | some [fa, ga, fb, gb, num, den] =>
    let l := s.cnvPictures n c src st
    let pic := fun f g => l.find? fun p => decide (p.frame = f) && p.fields.any fun y => decide (ofBool y.2 = g)
    match pic fa ga, pic fb gb with
    | some a, some b => some ⟨a, b, num, den, (own.bind CnvChoice.shows).bind fun _ => st.ofFrame s.now fa⟩
    | _, _ => own
  | _ => own

/-- A choice as the lead tells it. -/
def CnvChoice.told (x : CnvChoice) : List Nat :=
  let second := fun (p : InPicture) => ofBool ((p.fields.head?.map Prod.snd).getD false)
  [x.a.frame, second x.a, x.b.frame, second x.b, x.num, x.den]

/-- The phase in units of 1/256, rounded down (R165). -/
def CnvChoice.phase (x : CnvChoice) : Nat := x.num * 256 / x.den

/-- A cell counts a slip. -/
def State.cnvSlip (s : State) (n c : Nat) (rep : Bool) (k : Nat) : State :=
  (s.bumpBy (pgCnv n) c (if rep then F.cnvSlipCntRepeat else F.cnvSlipCntDrop) k).raise (pgCnv n) 17

/-- A frame begins with a buffer: repeats and drops of a frame-synchronising cell are counted, and D is what it is in this frame
(R158, R164). -/
def State.cnvShow (s : State) (n c src : Nat) (b : FsBuffer) : State :=
  let x := s.cnvCell n c
  let next := fun (slip : Option (Bool × Int)) => { x with shown := some b.seq, slip := slip }
  let s0 := s.put (pgCnv n) c F.cnvDelayNsNs (s.now - b.begunNs)
  let slipped := fun rep => next (some (rep, s.cnvPhase n c src))
  if s.cnvFollow n then s.putCnvCell n c (next none)
  else match x.shown with
    | none => s0.putCnvCell n c (next none)
    | some old =>
      if b.seq = old then (s0.cnvSlip n c true 1).putCnvCell n c (slipped true)
      else if old + 1 < b.seq then (s0.cnvSlip n c false (b.seq - old - 1)).putCnvCell n c (slipped false)
      else
        let os := s.cnvGet n c F.cnvOutFmtStruct
        let rt := s.cnvRate n src
        s0.putCnvCell n c (next (slipStays (fmtFrameSamples os rt) (fmtSamples os rt) x.slip (s.cnvPhase n c src)))

/-! ### The output picture (R160, R163, R166 to R169) -/

/-- Does every stage but the choice of picture pass its input unchanged (R160)? -/
def State.cnvPasses (s : State) (n c src : Nat) : Bool :=
  let g := s.cnvGet n c
  let st := s.get pgFlow src F.flowwinCtx1Struct
  let r := cnvRects g st
  !fmtInterlaced st && decide (g F.cnvOutFmtStruct = st ∧ g F.cnvOutFmtSampling = s.get pgFlow src F.flowwinCtx1Sampling ∧
    g F.cnvOutFmtDepth = s.get pgFlow src F.flowwinCtx1Depth ∧ g F.cnvClrBypass = 1 ∧
    r.cw = fmtWidth st ∧ r.ch = fmtHeight st ∧ r.dw = fmtWidth st ∧ r.dh = fmtHeight st)

/-- Does a pixel of the output lie in DST? -/
def CnvRects.inside (r : CnvRects) (x y : Nat) : Bool := decide (r.dx ≤ x ∧ x < r.dx + r.dw ∧ r.dy ≤ y ∧ y < r.dy + r.dh)

/-- The colour stage of a cell: none with BYPASS. -/
def State.cnvColour (s : State) (n c src : Nat) : Option ColourCfg :=
  let g := s.cnvGet n c
  if g F.cnvClrBypass = 1 then none
  else some { host := decide (g F.cnvClrLutHost = 1), inTf := g F.cnvClrInTf, outTf := g F.cnvClrOutTf, inCs := g F.cnvClrInCs
              outCs := g F.cnvClrOutCs, in625 := decide (s.get pgFlow src F.flowwinCtx1Struct = 3)
              out625 := decide (g F.cnvOutFmtStruct = 3), luts := (s.cnvCell n c).luts }

/-- The match confidence of a block falls below CONF_MIN. -/
def blockLow (x : CnvFrame) (least bx by_ : Nat) : Bool :=
  match x.blocks.find? fun b => decide (b.1 = bx ∧ b.2.1 = by_) with
  | some b => decide (b.2.2 < least)
  | none => false

/-- The source picture that an output frame or field is formed from (R163, R166); a scene cut is formed by DROP_REPEAT. -/
def State.cnvMixed (s : State) (n c : Nat) (x : CnvFrame) (ch : CnvChoice) (cut : Bool) : Picture :=
  let mode := if cut then 1 else s.cnvGet n c F.cnvFrcMode
  if mode = 2 then blend ch.num ch.den ch.a.pic ch.b.pic
  else if mode = 3 then compensate (blockLow x (s.cnvGet n c F.cnvFrcConfMin)) ch.num ch.den ch.a.pic ch.b.pic
  else if mode = 1 ∧ ch.den ≤ 2 * ch.num then ch.b.pic else ch.a.pic

/-- The output's picture: the source picture cropped, scaled and placed, in the output's colours, FILL around it (R160, R167). -/
def State.cnvPlaced (s : State) (n c src : Nat) (p : Picture) : Picture :=
  let g := s.cnvGet n c
  let r := cnvRects g (s.get pgFlow src F.flowwinCtx1Struct)
  let q := scalePicture 10 8 (g F.cnvScaleFilter) 12 p r.cx r.cy r.cw r.ch r.dw r.dh
  fun x y =>
    if r.inside x y then
      match s.cnvColour n c src with
      | some k => convertColour k (q (x - r.dx) (y - r.dy))
      | none => q (x - r.dx) (y - r.dy)
    else ⟨4 * g F.cnvFillY, 4 * g F.cnvFillCb, 4 * g F.cnvFillCr⟩

/-- An active line of the output. -/
def State.cnvLine (s : State) (n c src : Nat) (st : FrameStore) (x : CnvFrame) (ch : CnvChoice) (cut : Bool) (line : Nat) : Bytes :=
  let g := s.cnvGet n c
  let os := g F.cnvOutFmtStruct
  let r := cnvRects g (s.get pgFlow src F.flowwinCtx1Struct)
  let mode := if cut then 1 else g F.cnvFrcMode
  if s.cnvPasses n c src && decide (mode ≤ 1) then
    let p := if mode = 1 ∧ ch.den ≤ 2 * ch.num then ch.b else ch.a
    (p.fields.head?.bind fun y => storeLine st s.now y.1 line).getD []
  else match rasterPicture os line with
    | none => []
    | some (l, second) =>
      let whole := s.cnvPlaced n c src (s.cnvMixed n c x ch cut)
      let row := fun v => if fmtInterlaced os then 2 * v + ofBool second else v
      let p : Picture := fun u v => if fmtInterlaced os && r.inside u (row v) then fieldRows whole u (row v) else whole u (row v)
      packRow 12 (g F.cnvOutFmtSampling) (g F.cnvOutFmtDepth) (fmtWidth os) p (fun u v => !r.inside u (row v)) l

/-- A returned video flow of the cell's active format and rate (R155). -/
def State.cnvReturn (s : State) (n c src : Nat) : Option Nat :=
  match s.flowOn kindCnv n c false with
  | some f =>
    let g := s.cnvGet n c
    if s.flowType f = typeVideo ∧ s.get pgFlow f F.flowwinCtx1Struct = g F.cnvOutFmtStruct ∧
        s.get pgFlow f F.flowwinCtx1Sampling = g F.cnvOutFmtSampling ∧
        s.get pgFlow f F.flowwinCtx1Depth = g F.cnvOutFmtDepth ∧ s.get pgFlow f F.flowwinCtx1Rate = s.cnvRate n src
    then some f else none
  | none => none

/-- The active lines of a frame, or of one of its fields. -/
def fieldLines (struct : Nat) (second : Bool) : List Nat :=
  (List.range (fmtLines struct + 1)).filter fun l => decide ((rasterPicture struct l).map Prod.snd = some second)

/-- A returned flow produces lines of a frame that began its line 1 at an instant, each at its own instant (R21). -/
def State.produceLines (s : State) (f struct rate startNs : Nat) (l : List Nat) (line : Nat → Bytes) : State :=
  l.foldl (fun (s : State) l => s.produceLineAt (startNs + nsOf struct rate ((l - 1) * fmtSamples struct rate)) f l false (line l)) s

/-- Rows of a field or frame that its buffer holds, from the top. -/
def SrcField.rows (st : FrameStore) (struct : Nat) (f : SrcField) : Nat :=
  (fieldLines struct f.second).findIdx fun l =>
    !((st.buffers.find? fun b => decide (b.seq = f.buf.seq)).map FsBuffer.lines |>.getD []).any fun e => decide (e.1 = l)

/-- Rows of the picture of a choice that have come: of an interlaced source two with each row of its last field, with MOTION_ADAPTIVE
of the field after it (R161). -/
def State.rowsCome (s : State) (n c src at_ : Nat) (st : FrameStore) (ch : CnvChoice) : Nat :=
  let struct := s.get pgFlow src F.flowwinCtx1Struct
  let l := begunFields st at_ (s.cnvCell n c).since
  let i := l.findIdx fun y => decide (some (y.buf.seq, y.second) = ch.a.fields.getLast?)
  if !fmtInterlaced struct then (l[i]?.map (SrcField.rows st struct)).getD 0
  else
    let lead := if s.cnvGet n c F.cnvDeintMode = 0 ∧ ch.a.cadence = false then i + 1 else i
    2 * (l[lead]?.map (SrcField.rows st struct)).getD 0

/-- The rows of the source's picture that an output line is formed from, from the top: its own and those that the filter reaches below
it (R168). -/
def State.rowsNeeded (s : State) (n c src line : Nat) : Nat :=
  let os := s.cnvGet n c F.cnvOutFmtStruct
  let r := cnvRects (s.cnvGet n c) (s.get pgFlow src F.flowwinCtx1Struct)
  match rasterPicture os line with
  | none => 0
  | some (l, second) =>
    let y := if fmtInterlaced os then 2 * l + ofBool second else l
    if y < r.dy ∨ r.dy + r.dh ≤ y then 0
    else r.cy + min r.ch (ceilDiv ((y - r.dy + 1) * r.ch) (max 1 r.dh) + 4 * max 1 (ceilDiv r.ch (max 1 r.dh)))

/-- A cell forms the output lines whose source rows have come, or all that are left of its frame (`all`); a source whose buffer was cut
short leaves the newest complete one for the rest (R159). -/
def State.cnvAdvance (s : State) (n c : Nat) (all : Bool) : State :=
  let x := s.cnvCell n c
  match x.job with
  | none => s
  | some j =>
    let done := s.putCnvCell n c { x with job := none }
    match (s.run j.src).store, s.cnvReturn n c j.src with
    | some st, some f =>
      match (st.buffers.find? fun b => decide (b.seq = j.seq)).orElse fun _ => st.buffers.find? fun b => b.ready s.now with
      | none => done
      | some b =>
        match s.cnvOf n c j.src j.atNs j.second st b with
        | none => done
        | some ch =>
          let os := s.cnvGet n c F.cnvOutFmtStruct
          let have_ := s.rowsCome n c j.src j.atNs st ch
          let left := (fieldLines os j.second).filter fun l => decide (j.next ≤ l)
          let now := left.takeWhile fun l => all || b.ready s.now || decide (s.rowsNeeded n c j.src l ≤ have_)
          let s1 := s.produceLines f os (s.cnvRate n j.src) x.frameNs now fun l => s.cnvLine n c j.src st ⟨[], []⟩ ch false l
          match left.drop now.length with
          | l :: _ => s1.putCnvCell n c { s1.cnvCell n c with job := some { j with next := l } }
          | [] =>
            let s2 := s1.putCnvCell n c { s1.cnvCell n c with job := none }
            if fmtInterlaced os && !j.second then s2 else s2.aliveFrame f
    | _, _ => done

/-- What sources have written since goes on into the frames that cells form (R164). -/
def State.cnvFeed (s : State) : State :=
  (s.cnvCells.filter fun e => e.2.job.isSome).foldl (fun s e => s.cnvAdvance (e.1.page - pgCnv 0) e.1.cell false) s

/-- The cadence detection of a cell takes what it found of new fields (R162). -/
def State.cnvCadence (s : State) (n c src : Nat) (x : CnvFrame) : State :=
  let p := pgCnv n
  let was := s.get p c F.cnvCellStatusCadence
  let inter := fmtInterlaced (s.get pgFlow src F.flowwinCtx1Struct)
  let on := inter && decide (s.cnvGet n c F.cnvDeintCadenceEn = 1)
  let (cad, y) := (if inter then x.fields else []).foldl (CnvCell.note on) (if on then was else 0, s.cnvCell n c)
  let s1 := (s.putCnvCell n c y).put p c F.cnvCellStatusCadence cad
  if cad = was then s1 else s1.raise p 20

/-- The motion estimator's blocks of a source picture. -/
def blockCount (struct : Nat) : Nat := ceilDiv (fmtWidth struct) 8 * ceilDiv (fmtHeight struct) 8

/-- The blocks of a source picture below CONF_MIN (R166). -/
def lowBlocks (x : CnvFrame) (struct least : Nat) : Nat :=
  (((x.blocks.map fun b => (b.1, b.2.1)).eraseDups).filter fun b =>
    decide (8 * b.1 < fmtWidth struct ∧ 8 * b.2 < fmtHeight struct) && blockLow x least b.1 b.2).length

/-- The blocks of low confidence are reported; too many are a scene cut of the whole output frame, judged at its start (R166). -/
def State.cnvScene (s : State) (n c src : Nat) (x : CnvFrame) : Bool × State :=
  let p := pgCnv n
  let g := s.cnvGet n c
  let st := s.get pgFlow src F.flowwinCtx1Struct
  if g F.cnvFrcMode ≠ 3 then (false, s)
  else if (s.cnvCell n c).second then ((s.cnvCell n c).cut, s)
  else
    let k := lowBlocks x st (g F.cnvFrcConfMin)
    let s1 := s.put p c F.cnvRcStatLowconf (min 1023 (k * 1024 / blockCount st))
    if g F.cnvFrcScenePct * blockCount st < 100 * k then (true, (s1.bump p c F.cnvRcStatSceneCuts).raise p 18) else (false, s1)

/-- The audio a cell returns follows the picture: it is the source's bound audio from the buffer shown, or D late to the nearest sample
(R172). -/
def State.cnvHear (s : State) (n c src : Nat) (shows : Option FsBuffer) : State :=
  match s.flowOn kindCnv n (0x20 + c) false with
  | none => s
  | some f =>
    let hz := srateHz (s.flowSrate f)
    let late := (s.cnvDelay n c * hz + 500000000) / 1000000000 * 1000000000 / hz
    let path : AudioPath :=
      if !(s.flag (pgCnv n) c F.cnvCellCtrlAudEn && s.flag pgFlow src F.flowwinCtx5AfEn) then .silent
      else match shows, s.cnvFollow n with
        | some b, false => .stored src b.seq s.now
        | _, _ => .late src late
    (s.hear f path false).checkFit f

/-- A cell forms an output frame, or the second field of one, from its pictures. -/
def State.cnvProduce (s : State) (n c src : Nat) (st : FrameStore) (ch : CnvChoice) (x : CnvFrame) : State :=
  let p := pgCnv n
  let second := (s.cnvCell n c).second
  let os := s.cnvGet n c F.cnvOutFmtStruct
  let rt := s.cnvRate n src
  let (cut, s1) := s.cnvScene n c src x
  let s2 := if second then s1
    else (s1.putFrame48 p c F.cnvSrcTagLoFrameLo F.cnvSrcTagHiFrameHi ch.a.frame).put p c F.cnvSrcTagHiPhase ch.phase
  let s3 := (s2.cnvMarks n c false false false false).cnvProducing n c true
  let s4 := if second then s3 else match ch.shows with
    | some b => (s3.cnvShow n c src b).cnvHear n c src (some b)
    | none => s3.cnvHear n c src none
  let start := if second then (s4.cnvCell n c).frameNs else s4.now
  let job : Option CnvJob := ch.shows.map fun b => { src := src, seq := b.seq, atNs := s4.now, second := second, next := 0 }
  let s5 := s4.putCnvCell n c { s4.cnvCell n c with
    second := fmtInterlaced os && !second, frameNs := start, cut := cut, job := job }
  match s5.cnvReturn n c src with
  | some f =>
    let s6 := s5.putRun f { s5.run f with line := 1, lineNs := start }
    if job.isSome then s6.cnvAdvance n c false
    else
      let s7 := s6.produceLines f os rt start (fieldLines os second) fun l => s.cnvLine n c src st x ch cut l
      if fmtInterlaced os && !second then s7 else s7.aliveFrame f
  | none => s5

/-- Has a source been lost: declared, or with no new complete buffer for two line periods over a frame (R159)? -/
def State.cnvLost (s : State) (src : Nat) (st : FrameStore) : Bool :=
  let struct := s.get pgFlow src F.flowwinCtx1Struct
  let rate := s.get pgFlow src F.flowwinCtx1Rate
  !(s.run src).producing ||
  (match st.buffers.find? fun b => b.ready s.now with
   | some b => decide (b.endNs + nsOf struct rate (fmtFrameSamples struct rate) + s.linesNs src 2 < s.now)
   | none => false)

/-- A cell stops for want of its source: only what comes after counts when it returns (log entry 220). -/
def State.cnvLose (s : State) (n c : Nat) : State :=
  let x := s.cnvCell n c
  let s1 := if s.flag (pgCnv n) c F.cnvCellStatusProducing then s.putCnvCell n c { x with since := s.now } else s
  s1.cnvIdle n c false false false false

/-- An output frame boundary of a cell of a running slice, or that of a second field, which finishes the frame (R158, R159, R163). -/
def State.cnvFrame (s0 : State) (n c : Nat) (x : CnvFrame) : State :=
  let src := s0.cnvGet n c F.cnvSrcFlow
  let st := s0.get pgFlow src F.flowwinCtx1Struct
  match (if s0.isIngress src then (s0.run src).store else none) with
  | none => s0.cnvIdle n c true false false false
  | some store =>
    let s := s0.cnvCadence n c src x
    let locked := !s.cnvFollow n && decide (s.cnvGet n c F.cnvFrcMode = 0)
    let go := fun (ch : CnvChoice) => (s.share (pgCnv n) c ch.told).cnvProduce n c src store ch x
    if (s.cnvCell n c).second then
      match s.cnvChosen n c src store with
      | some ch => go ch
      | none => s.cnvIdle n c false false false true
    else if locked && decide (s.get pgFlow src F.flowwinCtx1Rate ≠ s.cnvRate n src) then s.cnvIdle n c false true false false
    else if !cropFits (s.cnvGet n c) st then s.cnvIdle n c false false true false
    else if (s.cnvRefusal n fun k => s.cnvGet n k).isSome then s.cnvIdle n c false false false false
    else if s.cnvLost src store then s.cnvLose n c
    else match s.cnvChosen n c src store with
      | some ch => go ch
      | none => s.cnvIdle n c false false false true

/-! ### Starting and stopping (R173) -/

/-- A slice asks for its power. -/
def State.cnvAsk (s : State) (n : Nat) : State := ((s.postPower (pgCnv n) .slice).1).putReady (pgCnv n) false causeWaitPower

/-- Loaded LUTs become active (R171). -/
def State.cnvLuts (s : State) (n : Nat) : State :=
  [0, 1, 2, 3].foldl (fun s c =>
    let x := s.cnvCell n c
    s.putCnvCell n c { x with luts := x.next.foldl (fun l e => Tab.put e.1 e.2 l) x.luts, next := [] }) s

/-- A slice has stopped; it is READY again with its next grant. -/
def State.cnvStopped (s : State) (n : Nat) : State :=
  let p := pgCnv n
  let s1 := [0, 1, 2, 3].foldl (fun s c => s.cnvIdle n c false false false false) s
  (((((s1.releasePower p .slice).putRunning p false).putReady p false causeWaitPower).stopCommitOr p 0 (s1.cnvRefusal n fun c f => s1.getShadow p c f)).thaw p 0).cnvLuts n

/-- A slice is told to stop: at the end of the output frame in progress, at once where no cell produces. -/
def State.cnvStop (s : State) (n : Nat) : State :=
  let p := pgCnv n
  if s.running p then
    if [0, 1, 2, 3].any fun c => s.flag p c F.cnvCellStatusProducing then s else s.cnvStopped n
  else s.withdrawPower p .slice |>.releasePower p .slice

/-- A write of CNV CTRL. -/
def State.writeCnvCtrl (s : State) (n w : Nat) : State :=
  let p := pgCnv n
  let was := s.flag p 0 F.cnvCtrlEn
  let s1 := (s.writeBut p 0 (s.running p) w 0x080 [F.cnvCtrlEn]).put p 0 F.cnvCtrlEn (bits w 0 1)
  if was && !bit w 0 then s1.cnvStop n
  else if bit w 0 && !s1.running p && s1.acts p && !s1.powerSought p .slice was then s1.cnvAsk n
  else s1

/-- CNV_START (R173): a write of CTRL with EN set. -/
def execCnvStart (m : Fin 8) (n : Fin 16) (w : Word) (s : State) : Host.Outcome State Fault Refusal :=
  let w' := withBit w.toNat 0
  .next (s.write m (pgCnv n) 0x080 w' fun s => s.writeCnvCtrl n w')

/-- CNV_STOP (R173): a write of CTRL with EN clear. -/
def execCnvStop (m : Fin 8) (n : Fin 16) (w : Word) (s : State) : Host.Outcome State Fault Refusal :=
  let w' := withoutBit w.toNat 0
  .next (s.write m (pgCnv n) 0x080 w' fun s => s.writeCnvCtrl n w')

/-- The pipeline of a slice that holds its grant is powered and loaded. -/
def State.cnvPipeline (s : State) (n : Nat) : State :=
  let p := pgCnv n
  if s.holds p .slice && s.flag p 0 F.cnvCtrlEn && !s.running p then
    ((s.putRunning p true).putReady p true causeNone).cnvShowDelay n
  else s

/-- CNV_PIPELINE_READY (R173). -/
def execCnvPipelineReady (n : Fin 16) (s : State) : Host.Outcome State Fault Refusal := .next (s.cnvPipeline n)

/-- May a cell work: it is in use, and no fault stops it; in SINGLE a fault of any of the ganged cells does (R175)? -/
def State.cnvWorks (s : State) (n c : Nat) : Bool :=
  decide (c ∈ s.cnvCellsOn n) &&
    (if s.cnvQuad n then decide ((n, c) ∉ s.cnvFaulted) else s.cnvFaulted.all fun x => decide (x.1 ≠ n))

/-- CNV_OUTPUT_FRAME (R165): an output frame boundary of a cell, of an interlaced output also that of the second field. A cell not in
use produces nothing; a slice whose EN is 0 stops at a frame's end. -/
def execCnvOutputFrame (n : Fin 16) (cell : Fin 4) (x : CnvFrame) (s : State) : Host.Outcome State Fault Refusal :=
  let p := pgCnv n
  .next (if !s.running p then s
    else
      let s1 := s.cnvAdvance n cell true
      if !s1.flag p 0 F.cnvCtrlEn && !(s1.cnvCell n cell).second then s1.cnvStopped n
      else if s1.cnvWorks n cell then (s1.cnvFrame n cell x).cnvFeed
      else s1.cnvIdle n cell false false false false)

/-- A cell is reset, in QUAD alone: it stops producing at once (R175). -/
def State.cnvCellReset (s : State) (n c : Nat) : State :=
  if s.cnvQuad n then
    let s1 := { s with cnvFaulted := s.cnvFaulted.filter fun x => decide (x ≠ (n, c)) }
    s1.cnvIdle n c false false false false
  else s

/-- A pipeline cell faults: it produces nothing until it is reset (R175). -/
def State.cnvCellFault (s : State) (n c : Nat) : State :=
  ({ s with cnvFaulted := if (n, c) ∈ s.cnvFaulted then s.cnvFaulted else (n, c) :: s.cnvFaulted }).cnvIdle n
    (if s.cnvQuad n then c else 0) false false false false

/-- A write of CELL_CTRL: its fields, then RESET; a cell switched off is idle. -/
def State.writeCellCtrl (s : State) (n w : Nat) : State :=
  let p := pgCnv n
  let c := s.get p 0 F.cnvCellIndexCell
  let s1 := s.writeFields p c (s.running p) w (fieldsAt p 0x0C0)
  let s2 := if s1.cnvQuad n && !bit w 0 then s1.cnvIdle n c false false false false else s1
  if bit w 31 then s2.cnvCellReset n c else s2

/-- CNV_CELL_RESET (R175): a write of CELL_CTRL with RESET that leaves its other bits as they are. -/
def execCnvCellReset (m : Fin 8) (n : Fin 16) (s : State) : Host.Outcome State Fault Refusal :=
  let p := pgCnv n
  let c := s.get p 0 F.cnvCellIndexCell
  let w := 2 ^ 31 + s.getLast p c F.cnvCellCtrlAudEn * 2 + s.get p c F.cnvCellCtrlEn
  .next (s.write m p 0x0C0 w fun s => s.writeCellCtrl n w)

/-! ### Commits (R153, R157, R171) -/

/-- OFFSET of a slice in nanoseconds: samples of its output (R157). -/
def State.cnvOffsetNs (s : State) (n : Nat) : Nat :=
  nsOf (s.get (pgCnv n) ((s.cnvCellsOn n).headD 0) F.cnvOutFmtStruct) (s.tb (s.cnvTb n)).rate (s.get (pgCnv n) 0 F.cnvOffsetSamples)

/-- The OUT_TB frame whose output frame boundary comes next. -/
def State.cnvNextFrame (s : State) (n : Nat) : Nat :=
  let t := s.tb (s.cnvTb n)
  if s.now < t.startNs + s.cnvOffsetNs n then t.frame else (t.frame + 1) % frameModulus

/-- The capture instant of a slice: a commit that meets a load in progress stays pending, with LUT_LATE where it named a
frame. -/
def State.cnvCapture (s : State) (n : Nat) : State :=
  let p := pgCnv n
  let u := s.unit p 0
  if (Assoc.find id n s.lutLoads).isSome then
    let hit := s.commitPending p 0 && (match u.frame with | some f => decide (f ≤ s.cnvNextFrame n) | none => false)
    let s1 := s.putUnit p 0 { u with frozen := true }
    if hit then s1.setErr p 19 else s1
  else s.capture p 0 (s.cnvNextFrame n)

/-- A cell whose commit names another source measures no slip from the one before. -/
def State.cnvResource (s0 s : State) (n : Nat) : State :=
  [0, 1, 2, 3].foldl (fun s c =>
    if s.cnvGet n c F.cnvSrcFlow = s0.cnvGet n c F.cnvSrcFlow then s
    else s.putCnvCell n c { s.cnvCell n c with shown := none, slip := none }) s

/-- The commit point of a slice (R157): its output frame boundary; the frame before is formed to its end under the old settings. -/
def State.cnvCommitPoint (s : State) (n : Nat) : State :=
  let p := pgCnv n
  let s0 := [0, 1, 2, 3].foldl (fun s c => s.cnvAdvance n c true) s
  if s.running p && !s.flag p 0 F.cnvCtrlEn then s0.cnvStopped n
  else if (s.unit p 0).captured then
    match s.cnvRefusal n (fun c f => s.getShadow p c f) with
    | some e => (s.refuseCommit p 0 e).thaw p 0
    | none => ((s0.cnvResource (s0.commitPoint p 0) n).cnvLuts n).cnvShowDelay n
  else s.thaw p 0

/-! ### LUTs (R170, R171) -/

/-- Bytes of a LUT. -/
def lutBytes (sel : Nat) : Nat := if sel = 1 then 287496 else 8192

/-- Bytes that a device read gets from working SRAM or HBM: none elsewhere. -/
def State.fetchBytes (s : State) (a n : Nat) : Option Bytes :=
  match (s.place a).bind targetOf, (s.place (a + n - 1)).bind targetOf with
  | some .sram, some .sram => s.readBytes a n
  | some .hbm, some .hbm => s.readBytes a n
  | _, _ => none

/-- A write of LUT_OP. -/
def State.writeLutOp (s : State) (n w : Nat) : State :=
  let p := pgCnv n
  let sel := bits w 28 2
  if bits w 30 2 ≠ 1 ∨ sel = 3 then s.setErr p errBadValue
  else if (Assoc.find id n s.lutLoads).isSome then s.put p 0 F.cnvLutStatusCode 2
  else
    let a := s.addr40 p 0 F.cnvLutSrcLoAddr F.cnvLutSrcHiAddr
    let x : LutLoad := { cell := s.get p 0 F.cnvCellIndexCell, sel := sel, bytes := s.fetchBytes a (lutBytes sel) }
    ({ s with lutLoads := Tab.put n x s.lutLoads } : State).put p 0 F.cnvLutStatusBusy 1

/-- LUT_LOAD (R170): a write of LUT_OP with OP = LOAD. -/
def execLutLoad (m : Fin 8) (n : Fin 16) (w : Word) (s : State) : Host.Outcome State Fault Refusal :=
  let w' := w.toNat % 2 ^ 30 + 2 ^ 30
  .next (s.write m (pgCnv n) 0x08C w' fun s => s.writeLutOp n w')

/-- A load completes. -/
def State.lutDone (s : State) (n : Nat) : State :=
  let p := pgCnv n
  match Assoc.find id n s.lutLoads with
  | none => s
  | some x =>
    let s1 := ({ s with lutLoads := Tab.del n s.lutLoads } : State).put p 0 F.cnvLutStatusBusy 0
    let s2 := match x.bytes with
      | some b =>
        let y := s1.cnvCell n x.cell
        (s1.putCnvCell n x.cell { y with next := Tab.put x.sel b y.next }).put p 0 F.cnvLutStatusCode 0
      | none => s1.put p 0 F.cnvLutStatusCode 1
    (if s2.running p then s2 else s2.cnvLuts n).raise p 19

/-- LUT_LOAD_DONE (R170). -/
def execLutLoadDone (n : Fin 16) (s : State) : Host.Outcome State Fault Refusal := .next (s.lutDone n)

/-! ### Reset (R174) -/

/-- What an engine reset of a slice takes: picture history, so that only what comes after counts, loads, grants; the active LUTs come
back from their copy in HBM but under INERT. -/
def State.cnvClear (s : State) (n : Nat) (keep : Bool) : State :=
  let p := pgCnv n
  let s1 := [0, 1, 2, 3].foldl (fun s c => s.cnvIdle n c false false false false) (s.dropPower p)
  let s2 : State := { s1 with
    lutLoads := Tab.del n s1.lutLoads
    cnvFaulted := s1.cnvFaulted.filter fun x => decide (x.1 ≠ n) }
  [0, 1, 2, 3].foldl (fun s c =>
    let x := s.cnvCell n c
    s.putCnvCell n c { x with since := s.now, fits22 := 0, fits32 := 0, fields := [], luts := if keep then x.luts else [], next := [] }) s2

end Sys2Proof.Machine
end

