-- ==== Sys2Proof/Machine/Bez.lean ====
section
/-! DEFINITION. The Bezel: binding, sealed messages, what the compositors draw of it (R198 to R206). -/

namespace Sys2Proof.Machine

/-- A Bezel cell that has taken nothing. -/
def BezCell.cold : BezCell := { own := none, partner := none, gen := 0, image := [], waiting := [], op := none, quiet := 0 }

/-- The Bezel cell of a compositor. -/
def State.bezCell (s : State) (c : Nat) : BezCell := Tab.at BezCell.cold s.bez c

/-- Write a Bezel cell. -/
def State.putBez (s : State) (c : Nat) (x : BezCell) : State := { s with bez := Tab.put c x s.bez }

/-- CELL_STATUS.STATE codes. -/
abbrev bezUnbound : Nat := 0
abbrev bezBound : Nat := 1
abbrev bezKeyLost : Nat := 2

/-- The state of a cell. -/
def State.bezState (s : State) (c : Nat) : Nat := s.get pgBez c F.bezCellStatusState

/-- Does a slot hold a loaded DECRYPT-only key? -/
def State.decryptSlot (s : State) (n : Nat) : Bool :=
  decide ((s.keySlot n).state = slotValid ∧ (s.keySlot n).attr = attrDecrypt)

/-- CELL_STATUS.VISIBLE: the Bezel of a bound cell is shown. -/
def State.bezShow (s : State) (c : Nat) : State :=
  s.put pgBez c F.bezCellStatusVisible (ofBool (s.flag pgBez c F.bezStateViewVisible && decide (s.bezState c ≠ bezUnbound)))

/-! ### Binding (R199) -/

/-- A write of CELL_KEY at the selected cell. -/
def State.writeCellKey (s : State) (w : Nat) : State :=
  let c := s.get pgBez 0 F.bezCellIndexCell
  if s.bezState c ≠ bezUnbound then s.setErr pgBez 16
  else if bit w 31 then
    if s.decryptSlot (bits w 0 7) then
      let s1 := ((s.put pgBez c F.bezCellKeyBind 1).put pgBez c F.bezCellKeySlot (bits w 0 7)).put pgBez c
        F.bezCellStatusState bezBound
      (s1.putBez c { s1.bezCell c with gen := (s.keySlot (bits w 0 7)).gen }).bezShow c
    else s.setErr pgBez errBadValue
  else s.put pgBez c F.bezCellKeySlot (bits w 0 7)

/-- BEZEL_BIND (R199): a write of CELL_KEY with BIND set. -/
def execBezelBind (m : Fin 8) (w : Word) (s : State) : Host.Outcome State Fault Refusal :=
  let w' := withBit w.toNat 31
  .next (s.write m pgBez 0x0C0 w' fun s => s.writeCellKey w')

/-! ### Messages (R200 to R203) -/

/-- RESULT codes. -/
abbrev bezOk : Nat := 0
abbrev bezBusy : Nat := 1
abbrev bezIsUnbound : Nat := 2
abbrev bezOrphaned : Nat := 3
abbrev bezBadFormat : Nat := 4
abbrev bezAliveRepeat : Nat := 5
abbrev bezReadFail : Nat := 6
abbrev bezAuthFail : Nat := 7
abbrev bezBadPayload : Nat := 8

/-- A message is refused: RESULT, and the count. -/
def State.bezRefuse (s : State) (c code : Nat) : State :=
  ((s.put pgBez c F.bezResultCode code).put pgBez c F.bezResultAliveSkip 0).bump pgBez c F.bezCntRefused

/-- MSG_GO at a cell: the checks that need no message, then the message is read as it stands. -/
def State.bezGo (s : State) (c : Nat) : State :=
  let x := s.bezCell c
  if x.op.isSome || x.waiting.any fun y => decide (y.kind = 1) then s.bezRefuse c bezBusy
  else if s.bezState c = bezUnbound then s.bezRefuse c bezIsUnbound
  else if s.bezState c = bezKeyLost then s.bezRefuse c bezOrphaned
  else
    let a := s.addr40 pgBez c F.bezMsgSrcLoAddr F.bezMsgSrcHiAddr
    let len := s.get pgBez c F.bezMsgLenBytes
    let o : BezOp := { head := s.fetchBytes a 32, rest := s.fetchBytes (a + 32) (len - 32), len := len }
    let s1 := (s.putBez c { x with op := some o, own := none, partner := none }).put pgBez c F.bezCellStatusBusy 1
    if s.role = roleLead ∧ s.pairing = 5 then s1.ordinary (.mirrorBezel c (o.head.getD [] ++ o.rest.getD [])) else s1

/-- A message that the lead copied to this shadow is verified here too (R304). -/
def State.bezCopied (s : State) (c : Nat) (b : Bytes) : State :=
  let o : BezOp := { head := some (b.take 32), rest := some (b.drop 32), len := b.length }
  (s.putBez c { s.bezCell c with op := some o, own := none }).put pgBez c F.bezCellStatusBusy 1

/-- BEZEL_MSG_GO (R202): a write of MSG_GO at the selected cell. -/
def execBezelMsgGo (m : Fin 8) (s : State) : Host.Outcome State Fault Refusal :=
  .next (s.write m pgBez 0x0D0 1 fun s => s.bezGo (s.get pgBez 0 F.bezCellIndexCell))

/-- Is the head of a message well formed for a cell and a MSG_LEN (R200, R201)? -/
def bezHeadOk (c len : Nat) (h : Bytes) : Bool :=
  let kind := leValue ((h.drop 3).take 1)
  let n := leValue ((h.drop 4).take 4)
  decide (leValue (h.take 2) = 1 ∧ leValue ((h.drop 2).take 1) = c ∧ 1 ≤ kind ∧ kind ≤ 3 ∧ len = n + 48 ∧
    (h.drop 28).take 4 = zeros 4 ∧ (if kind = 1 then 20 ≤ n ∧ n ≤ 4194320 else n = 16))

/-- Is a decrypted payload one that R201 and R202 allow? -/
def State.bezPayloadOk (s : State) (kind : Nat) (b : Bytes) : Bool :=
  if kind = 1 then
    let w := leValue (b.take 2)
    let h := leValue ((b.drop 2).take 2)
    decide (1 ≤ w ∧ w ≤ 16384 ∧ 1 ≤ h ∧ h ≤ 2160 ∧ (b.drop 4).take 12 = zeros 12 ∧ b.length = 16 + w * h * 4)
  else if kind = 2 then decide ((b.drop 10).take 6 = zeros 6)
  else decide (leValue (b.take 1) < 128 ∧ (b.drop 1).take 15 = zeros 15) && s.decryptSlot (leValue (b.take 1))

/-- LAST_ALIVE of a cell. -/
def State.bezAlive (s : State) (c : Nat) : Nat :=
  s.get pgBez c F.bezLastAliveHiAlive * 2 ^ 32 + s.get pgBez c F.bezLastAliveLoAlive

/-- The verdict on a message: a refusal code, or its TYPE, its ALIVE and its plaintext. -/
def State.bezVerdict (s : State) (c : Nat) (o : BezOp) : Nat ⊕ (Nat × Nat × Bytes) :=
  match o.head with
  | none => .inl bezReadFail
  | some h =>
    let kind := leValue ((h.drop 3).take 1)
    let alive := leValue ((h.drop 8).take 8)
    if !bezHeadOk c o.len h then .inl bezBadFormat
    else if alive ≤ s.bezAlive c then .inl bezAliveRepeat
    else match o.rest with
      | none => .inl bezReadFail
      | some r => match s.usableKey (s.get pgBez c F.bezCellKeySlot) attrDecrypt (s.bezCell c).gen with
        | none => .inl bezOrphaned
        | some k =>
          let n := o.len - 48
          match gcmOpen k ((h.drop 16).take 12) h (r.take n) ((r.drop n).take 16) with
          | none => .inl bezAuthFail
          | some p => if s.bezPayloadOk kind p then .inr (kind, alive, p) else .inl bezBadPayload

/-! ### Application (R203, R204, R205) -/

/-- A cell whose slot no longer holds the key it was bound to becomes KEY_LOST; a message in verification is refused
(R205). -/
def State.bezSweepOne (s : State) (c : Nat) : State :=
  if s.bezState c = bezBound ∧
      (s.usableKey (s.get pgBez c F.bezCellKeySlot) attrDecrypt (s.bezCell c).gen).isNone = true then
    let s1 := ((s.put pgBez c F.bezCellStatusState bezKeyLost).raise pgBez 18).fault fltKeyLost respNone 0 pgBez c 0
    if (s1.bezCell c).op.isSome then
      (((s1.putBez c { s1.bezCell c with op := none }).put pgBez c F.bezCellStatusBusy 0).bezRefuse c bezOrphaned).raise pgBez 16
    else s1
  else s

/-- One accepted message takes effect; a REKEY to a slot that has lost its key since leaves the cell KEY_LOST (R205). -/
def State.bezApplyOne (c : Nat) (s : State) (y : BezMsg) : State :=
  let b := y.payload
  let v := fun i n => leValue ((b.drop i).take n)
  if y.kind = 1 then
    (((s.putBez c { s.bezCell c with image := b.drop 16 }).put pgBez c F.bezImageWhW (v 0 2)).put pgBez c F.bezImageWhH
      (v 2 2)).put pgBez c F.bezCellStatusImagePending 0
  else if y.kind = 2 then
    let s1 := ((s.put pgBez c F.bezStateXyX (v 0 2)).put pgBez c F.bezStateXyY (v 2 2)).put pgBez c F.bezStateViewViewW (v 4 2)
    let s2 := ((s1.put pgBez c F.bezScroll (v 6 2)).put pgBez c F.bezStateViewAlpha (v 8 1)).put pgBez c
      F.bezStateViewVisible (bits (v 9 1) 0 1)
    let s3 := s2.put pgBez c F.bezStateViewWrap (bits (v 9 1) 1 1)
    (if bit (v 9 1) 2 then s3.put pgBez c F.bezOffset 0 else s3).bezShow c
  else
    ((((s.put pgBez c F.bezCellKeySlot (v 0 1)).put pgBez c F.bezCellStatusState bezBound).putBez c
      { s.bezCell c with gen := y.gen }).bezShow c).bezSweepOne c

/-- Accepted messages take effect together, in order of acceptance; those not captured wait unless the compositor is
stopped. The application is recorded in the compositor's flip record of cell 7. -/
def State.bezApply (s : State) (c : Nat) (all : Bool) (frame : Nat) (stamp : Option Nat) : State :=
  let x := s.bezCell c
  let go := x.waiting.filter fun y => all || y.captured
  if go.isEmpty then s
  else
    let s1 := s.putBez c { x with waiting := x.waiting.filter fun y => !(all || y.captured) }
    let s2 := (go.foldl (State.bezApplyOne c) s1).putFrame48 pgBez c F.bezApplyFrameLoFrame F.bezApplyFrameHiFrame frame
    let p := pgCpo c
    let s3 := (s2.putFrame48 p 7 F.cpoLFlipFrameLoFrame F.cpoLFlipFrameHiFrame frame).putFrame48 p 7
      F.cpoLRelFrameLoFrame F.cpoLRelFrameHiFrame ((frame + frameModulus - 1) % frameModulus)
    (s3.putStamp p 7 stamp F.cpoLFlipSLoSec F.cpoLFlipSHiSec F.cpoLFlipSHiTsValid F.cpoLFlipNsNs).raise pgBez 17

/-- An accepted message applies at once while its compositor is stopped; no raster frame carries that application, so the
frame recorded is a free value. -/
def State.bezApplyStopped (s : State) (c : Nat) : State :=
  let (v, s1) := s.draw
  s1.bezApply c true (v % frameModulus) none

/-- An accepted message waits for its commit point. -/
def State.bezAccept (s : State) (c : Nat) (y : BezMsg) : State :=
  let x := s.bezCell c
  let s1 := s.putBez c { x with waiting := x.waiting ++ [y], quiet := 0 }
  let s2 := if y.kind = 1 then s1.put pgBez c F.bezCellStatusImagePending 1 else s1
  if s2.running (pgCpo c) then s2 else s2.bezApplyStopped c

/-- Does a message need both twins' acceptance (R304)? -/
def State.bezPaired (s : State) : Bool := decide (s.role ≠ roleNone ∧ s.pairing = 5)

/-- Both twins' results of a message are known: it waits for its commit point where both accepted it; where they differ
neither applies it and a CONFIG_UPSET fault is recorded (R304). -/
def State.bezSettle (s : State) (c : Nat) : State :=
  let x := s.bezCell c
  match x.own, x.partner with
  | some own, some partner =>
    let s1 := s.putBez c { x with own := none, partner := none }
    match own, partner with
    | some y, true => s1.bezAccept c y
    | none, false => s1
    | _, _ => s1.fault fltConfigUpset respNone 0 pgBez c 0
  | _, _ => s

/-- This twin's result: it settles at once outside a masking pair, else the partner learns it. -/
def State.bezOwn (s : State) (c : Nat) (y : Option BezMsg) : State :=
  if s.bezPaired then
    ((s.putBez c { s.bezCell c with own := some y }).express (.decision pgBez c [ofBool y.isSome])).bezSettle c
  else match y with
    | some m => s.bezAccept c m
    | none => s

/-- The partner's result of a message (R304). -/
def State.bezPartner (s : State) (c : Nat) (ok : Bool) : State :=
  if s.bezPaired then (s.putBez c { s.bezCell c with partner := some ok }).bezSettle c else s

/-- A verification ends. -/
def State.bezVerify (s : State) (c : Nat) : State :=
  let x := s.bezCell c
  match x.op with
  | none => s
  | some o =>
    let s1 := (s.putBez c { x with op := none }).put pgBez c F.bezCellStatusBusy 0
    match s1.bezVerdict c o with
    | .inl code => ((s1.bezRefuse c code).raise pgBez 16).bezOwn c none
    | .inr (kind, alive, b) =>
      let skip := decide (s1.bezAlive c + 1 < alive)
      let y : BezMsg := { kind := kind, payload := b, gen := (s1.keySlot (leValue (b.take 1))).gen, captured := false }
      let s3 := ((s1.put pgBez c F.bezLastAliveLoAlive (alive % 2 ^ 32)).put pgBez c F.bezLastAliveHiAlive (alive / 2 ^ 32)).put
        pgBez c F.bezResultCode bezOk
      let s4 := ((s3.put pgBez c F.bezResultAliveSkip (ofBool skip)).bump pgBez c F.bezCntAccepted).put pgBez c
        F.bezCellStatusStale 0
      (s4.raise pgBez 16).bezOwn c (some y)

/-- BEZEL_VERIFY_DONE (R203). -/
def execBezelVerifyDone (cell : Fin 16) (s : State) : Host.Outcome State Fault Refusal := .next (s.bezVerify cell)

/-- The capture instant of a compositor's commit point: what was accepted before it will apply there. -/
def State.bezCapture (s : State) (c : Nat) : State :=
  let x := s.bezCell c
  s.putBez c { x with waiting := x.waiting.map fun y => { y with captured := true } }

/-- A frame start of a compositor: the crawl goes on (R204), and STALE counts. -/
def State.bezFrame (s : State) (c : Nat) : State :=
  let x := s.bezCell c
  let n := s.get pgBez c F.bezStaleFrames
  let off := (s.get pgBez c F.bezOffset : Int) + signedOf 16 (s.get pgBez c F.bezScroll)
  let s1 := (s.put pgBez c F.bezOffset (off % 2 ^ 32).toNat).putBez c { x with quiet := x.quiet + 1 }
  if n ≠ 0 ∧ n ≤ x.quiet + 1 ∧ s.flag pgBez c F.bezCellStatusStale = false then
    (s1.put pgBez c F.bezCellStatusStale 1).raise pgBez 19
  else s1

/-- Every cell after a change of the key slots. -/
def State.bezSweep (s : State) : State := (List.range 16).foldl State.bezSweepOne s

/-! ### What is drawn (R198, R204) -/

/-- Where a pixel of a picture draws on a Bezel's image, within the view window: an offset in pixels (R204). -/
def State.bezAt (s : State) (c x y : Nat) : Option Nat :=
  let g := fun f => s.get pgBez c f
  let row := (y : Int) - signedOf 16 (g F.bezStateXyY)
  let col := (x : Int) - signedOf 16 (g F.bezStateXyX)
  let w := g F.bezImageWhW
  let view := g F.bezStateViewViewW
  let image := (16 * col + signedOf 32 (g F.bezOffset)) / 16
  let image' := if g F.bezStateViewWrap = 1 then image % (w : Int) else image
  if 0 ≤ row ∧ row < g F.bezImageWhH ∧ 0 ≤ col ∧ (view = 0 ∨ col < view) ∧ 0 ≤ image' ∧ image' < w then some (row.toNat * w + image'.toNat)
  else none

/-- Does a visible Bezel cover any of a picture line? -/
def State.bezShows (s : State) (c y : Nat) : Bool :=
  let row := (y : Int) - signedOf 16 (s.get pgBez c F.bezStateXyY)
  s.flag pgBez c F.bezCellStatusVisible && decide (0 ≤ row ∧ row < s.get pgBez c F.bezImageWhH)

/-! ### Reset (R206) -/

/-- An engine reset of BEZ: messages in verification are abandoned, RESULT reads none yet; accepted messages that wait, bindings,
LAST_ALIVE, buffers, states and crawls stay. -/
def State.bezReset (s : State) : State :=
  (List.range 16).foldl (fun s c =>
    let image := (s.bezCell c).waiting.any fun y => decide (y.kind = 1)
    ((((s.putBez c { s.bezCell c with op := none }).put pgBez c F.bezCellStatusBusy 0).put pgBez c
      F.bezCellStatusImagePending (ofBool image)).put pgBez c F.bezResultCode 15).put pgBez c F.bezResultAliveSkip 0) s

end Sys2Proof.Machine
end

