-- ==== Sys2Proof/Machine/Gylos.lean ====
section
/-! DEFINITION. The block layer of Gylos lanes: record streams, link encryption, sending and receiving blocks (R261 to R268,
R277, R283, R294 to R297). -/

namespace Sys2Proof.Machine

/-! ### Keys of a fabric port (R294) -/

/-- The slot and valid fields of a key set. -/
def fabKeyFields : Bool → Nat → Field × Field
  | false, 0 => (F.fabKeyTxSlot0, F.fabKeyTxV0)
  | false, _ => (F.fabKeyTxSlot1, F.fabKeyTxV1)
  | true, 0 => (F.fabKeyRxSlot0, F.fabKeyRxV0)
  | true, _ => (F.fabKeyRxSlot1, F.fabKeyRxV1)

/-- The attribute a direction needs. -/
def fabAttr (rx : Bool) : Nat := if rx then attrDecrypt else attrEncrypt

/-- Is a key set valid on a port? -/
def State.fabValid (s : State) (p : Nat) (rx : Bool) (set : Nat) : Bool := s.flag p 0 (fabKeyFields rx set).2

/-- The key of a set: none where no valid field names a slot that still holds the key it named when it was written. -/
def State.fabKey (s : State) (p : Nat) (rx : Bool) (set : Nat) : Option Bytes :=
  if s.fabValid p rx set then
    s.usableKey (s.get p 0 (fabKeyFields rx set).1) (fabAttr rx)
      ((Assoc.find Key.code ⟨p, ofBool rx, set⟩ s.fabGens).getD 0)
  else none

/-- STATE codes of a port (R275, R297). -/
abbrev fabOff : Nat := 0
abbrev fabWaitPower : Nat := 1
abbrev fabTraining : Nat := 2
abbrev fabUp : Nat := 3
abbrev fabDown : Nat := 4
abbrev fabKeyLost : Nat := 5

/-- STATE of a port. -/
def State.fabState (s : State) (p : Nat) : Nat := s.get p 0 F.fabPortStatusState

/-- The device ID and whether it is set. -/
def State.deviceId (s : State) : Nat := s.get (pgFab 0) 0 F.fabFidId
/-- Is FID valid? -/
def State.deviceIdSet (s : State) : Bool := s.flag (pgFab 0) 0 F.fabFidValid

/-! ### Lanes of a port -/

/-- LANES_UP of a page. -/
def State.lanesMask (s : State) (p : Nat) : Nat := (s.upLanes p).foldl (fun n l => n + 2 ^ l) 0

/-! ### Link delay (R287) -/

/-- A lane that has measured nothing. -/
def DelayRun.cold : DelayRun := ⟨0, none, [], 0⟩

/-- The delay exchanges of a lane. -/
def State.delayRun (s : State) (p l : Nat) : DelayRun := (Assoc.find Key.code ⟨p, l, 0⟩ s.fabDelays).getD DelayRun.cold

/-- Write the delay exchanges of a lane. -/
def State.putDelay (s : State) (p l : Nat) (x : DelayRun) : State :=
  { s with fabDelays := Assoc.set Key.code ⟨p, l, 0⟩ x s.fabDelays }

/-- d_in of a lane in picoseconds: the mean of (t4 - t1) - (t3 - t2) over the last exchanges, halved, plus half of
LINK_ASYM. -/
def State.delayIn (s : State) (p l : Nat) : Int :=
  let r := (s.delayRun p l).results
  let n : Int := r.length
  if r.isEmpty then 0
  else (r.foldl (· + ·) 0 + n * signedOf 32 (s.get p 0 F.fabLinkAsymPs)) / (2 * n)

/-- LINK_DELAY shows d_in of the lowest UP lane. -/
def State.showDelay (s : State) (p : Nat) : State :=
  let v : Int := match s.lowestUp p with
    | some l => s.delayIn p l
    | none => 0
  s.put p 0 F.fabLinkDelayPs (v % 2 ^ 32).toNat

/-- A port's state follows its lanes: UP while one is UP, DOWN while none is, once training has ended, be it with four lanes DOWN; a
change of STATE or LANES_UP sets PORT_CHANGE (R275). -/
def State.fabSync (s : State) (p : Nat) : State :=
  let mask := s.lanesMask p
  let st := s.fabState p
  let next := if st = fabOff ∨ st = fabKeyLost then st
    else if mask ≠ 0 then fabUp
    else if st = fabUp ∨ st = fabTraining ∧ ([0, 1, 2, 3].all fun l => decide (s.laneState p l = laneDown)) then fabDown
    else st
  let s1 := ((s.put p 0 F.fabPortStatusState next).put p 0 F.fabPortStatusLanesUp mask).showDelay p
  if next = st ∧ mask = s.get p 0 F.fabPortStatusLanesUp then s1 else s1.raise p 16

/-- What a change of a Gylos lane brings with it: a fabric port follows; a lane that is not UP has completed no
exchange, and a scan of it ends. -/
def State.gylChanged (s : State) (p l : Nat) : State :=
  let s1 := if s.laneState p l = laneUp then s
    else (s.putDelay p l { s.delayRun p l with done := 0, sent := none }).eyeDown p l
  if pageType p = 0x043 then s1.fabSync p else s1

/-! ### Record streams (R277) -/

/-- The record stream of a kind on a lane. -/
def State.fabStream (s : State) (p l k : Nat) : List FabItem := (Assoc.find Key.code ⟨p, l, k⟩ s.fabStreams).getD []

/-- Write a record stream. -/
def State.putStream (s : State) (p l k : Nat) (x : List FabItem) : State :=
  { s with fabStreams := Assoc.set Key.code ⟨p, l, k⟩ x s.fabStreams }

/-- Bytes that wait in a stream. -/
def streamBytes (l : List FabItem) : Nat := l.foldl (fun n x => n + x.bytes.length) 0

/-- What a block takes from a stream: its bytes, where its first record header begins, and what is left. A record with a
routing header begins only at byte 1. Where the block ends short, its padding header begins there. -/
def fillBlock (cap : Nat) : Bytes → Option Nat → List FabItem → Bytes × Option Nat × List FabItem
  | acc, ptr, [] => (acc, ptr <|> (if acc.length < cap then some (acc.length + 1) else none), [])
  | acc, ptr, x :: t =>
    if acc.length = cap then (acc, ptr, x :: t)
    else if x.fresh && x.rte && !acc.isEmpty then (acc, ptr <|> some (acc.length + 1), x :: t)
    else
      let ptr' := ptr <|> (if x.fresh then some (acc.length + 1) else none)
      let n := cap - acc.length
      if n < x.bytes.length then
        (acc ++ x.bytes.take n, ptr', { x with bytes := x.bytes.drop n, fresh := false } :: t)
      else fillBlock cap (acc ++ x.bytes) ptr' t

/-- Does a port encrypt? -/
def State.fabEncrypts (s : State) (p : Nat) : Bool := decide (pageType p = 0x043) && s.flag p 0 F.fabCtrlEnc

/-- The next block of a record stream. -/
def State.streamBlock (s : State) (p l k : Nat) : Option (TxBlock × State) :=
  let items := s.fabStream p l k
  match items with
  | [] => none
  | x :: _ =>
    let cap := if s.fabEncrypts p then 103 else 127
    let (b, ptr, rest) := fillBlock cap [] none items
    some (⟨k, x.fresh && x.rte, false, padPayload (BitVec.ofNat 8 (ptr.getD 0xFF) :: b)⟩, s.putStream p l k rest)

/-! ### Link encryption (R294 to R296) -/

/-- The nonce of a block: the sender's device ID and port, its lane, BC. -/
def blockIv (dev port lane bc : Nat) : Bytes := leBytes 2 dev ++ leBytes 1 port ++ leBytes 1 lane ++ leBytes 8 bc

/-- The data authenticated beside a block: its header with SEQ and REPLAY 0, then BC. -/
def blockAad (kind : Nat) (first : Bool) (bc : Nat) : Bytes := beBytes 4 (blkHeader kind 0 first true false) ++ leBytes 8 bc

/-- Blocks that a port with encryption encrypts: VIDEO, DATA, and CONTROL of FEVT and FEVT_ACK. -/
def sealedKind (kind : Nat) (payload : Bytes) : Bool :=
  decide (kind = blkVideo ∨ kind = blkData) ||
    decide (kind = blkControl ∧ (payload.headD 0 = 0x20 ∨ payload.headD 0 = 0x21))

/-- A block counter of a lane and set. -/
def State.fabCounter (s : State) (p l set : Nat) : Nat := (Assoc.find Key.code ⟨p, l, set⟩ s.fabBc).getD 0

/-- Encrypt a block: none while no valid transmit slot is in use, or in KEY_LOST. -/
def State.sealBlock (s : State) (p l : Nat) (b : TxBlock) : Option (TxBlock × State) :=
  let set := s.get p 0 F.fabCtrlTxSet
  if s.fabState p = fabKeyLost then none
  else match s.fabKey p false set with
    | none => none
    | some k =>
      let n := s.fabCounter p l set
      let bc := set * 2 ^ 63 + n
      let (c, t) := gcmSeal k (blockIv s.deviceId (p - pgFab 0) l bc) (blockAad b.kind b.first bc) (b.payload.take 104)
      some ({ b with enc := true, payload := leBytes 8 bc ++ c ++ t },
        { s with fabBc := Assoc.set Key.code ⟨p, l, set⟩ ((n + 1) % 2 ^ 63) s.fabBc })

/-- Count a block that fails authentication. -/
def State.authFail (s : State) (p : Nat) : State := (s.bump p 0 F.fabCnt1AuthFail).raise p 18

/-- A receive window that has accepted nothing. -/
def FabWindow.cold : FabWindow := ⟨none, []⟩

/-- Does a window take a counter: no more than 255 below the highest, and not accepted before? -/
def FabWindow.takes (w : FabWindow) (n : Nat) : Bool :=
  match w.high with
  | none => true
  | some h => decide (h < n + 256) && decide (n ∉ w.seen)

/-- A window that has taken a counter. -/
def FabWindow.add (w : FabWindow) (n : Nat) : FabWindow :=
  let h := max n (w.high.getD 0)
  ⟨some h, (n :: w.seen).filter fun x => decide (h < x + 256)⟩

/-- What becomes of a received block's payload on a fabric port: dropped, errored by a failed tag, or its plaintext. -/
inductive OpenResult where
  | drop | errored | plain (b : Bytes)
  deriving DecidableEq, Repr

/-- Decrypt and judge a received block (R296, R297). -/
def State.openBlock (s : State) (p l : Nat) (b : RxBlock) : OpenResult × State :=
  if pageType p ≠ 0x043 then (.plain b.payload, s)
  else if bit b.header 18 then
    if s.fabState p = fabKeyLost then (.drop, s)
    else
      let bc := leValue (b.payload.take 8)
      let set := bc / 2 ^ 63
      let n := bc % 2 ^ 63
      let w := (Assoc.find Key.code ⟨p, l, set⟩ s.fabWindows).getD FabWindow.cold
      match s.fabKey p true set with
      | none => (.drop, s.authFail p)
      | some k =>
        if !w.takes n then (.drop, s.authFail p)
        else
          let dev := s.get p 0 F.fabNeighbourDev
          let port := s.get p 0 F.fabNeighbourPort
          match gcmOpen k (blockIv dev port l bc) (blockAad b.kind (bit b.header 19) bc) ((b.payload.drop 8).take 104)
              (b.payload.drop 112) with
          | none => (.errored, s.authFail p)
          | some x => (.plain x, { s with fabWindows := Assoc.set Key.code ⟨p, l, set⟩ (w.add n) s.fabWindows })
  else if s.flag p 0 F.fabCtrlEncReq && sealedKind b.kind b.payload then (.drop, s.authFail p)
  else (.plain b.payload, s)

/-! ### Sending (R262 to R265, R283) -/

/-- The instant at which the count of a timebase, with what its rate has gained and a slew has corrected, began a line, in
picoseconds. -/
def Timebase.linePs (t0 : Timebase) (now line : Nat) : Nat :=
  let t := t0.settle now
  t.startNs * 1000 + (line - 1) * fmtSamples t.struct t.rate * rateDen t.rate * 1000000000000 / fmtClock t.struct t.rate

/-- A stamp of the device-wide counter in picoseconds: the model's clock gives its nanosecond, what lies below is free (R287, log
entry 207). -/
def State.stampPs (s : State) : Nat × State :=
  let (v, s1) := s.draw
  (s.now * 1000 + v % 1000, s1)

/-- The length of a timebase's frame in picoseconds. -/
def Timebase.framePs (t : Timebase) : Nat :=
  fmtFrameSamples t.struct t.rate * rateDen t.rate * 1000000000000 / fmtClock t.struct t.rate

/-- How long after the start of a line a stamp lies, the line being one of the frame in progress or the last of the frame before it. -/
def Timebase.residence (t : Timebase) (now line stamp : Nat) : Nat :=
  let at_ := t.linePs now line
  if at_ ≤ stamp then stamp - at_ else if stamp + t.framePs / 2 < at_ then stamp + t.framePs - at_ else 0

/-- Bytes of a payload from a place on are replaced. -/
def stampAt (b : Bytes) (off : Nat) (x : Bytes) : Bytes := b.take off ++ x ++ b.drop (off + x.length)

/-- What a block takes as it passes the ball of a port's lane: a DELAY_REQ is stamped t1, a DELAY_RESP carries its t3, a BEACON how long
after its line's sample 0 it departs (R287, R288). -/
def State.stampBlock (s : State) (p l : Nat) (b : TxBlock) : TxBlock × State :=
  let k := b.payload.headD 0
  if pageType p ≠ 0x043 then (b, s)
  else if b.kind = blkBeacon then
    let t := s.tb ((b.payload.getD 1 0).toNat % 4)
    let (n, s1) := s.stampPs
    ({ b with payload := stampAt b.payload 16 (leBytes 4 (t.residence s.now (leValue ((b.payload.drop 6).take 2)) n)) }, s1)
  else if b.kind = blkControl ∧ k = 0x11 then
    let (n, s1) := s.stampPs
    (b, s1.putDelay p l { s1.delayRun p l with sent := some (leValue ((b.payload.drop 2).take 2), n) })
  else if b.kind = blkControl ∧ k = 0x12 then
    let (n, s1) := s.stampPs
    ({ b with payload := stampAt b.payload 16 (leBytes 8 n) }, s1)
  else (b, s)

/-- Send a block that was taken from a queue or a stream, `s` being the state before and `s0` the one after it was taken: sealed where the
port encrypts, an IDLE block in its place where it cannot be. Where it would bring the slack beyond its limit, a VIDEO block is
discarded and an IDLE block sent, another one waits (R265, R294). -/
def State.sendTaken (s s0 : State) (p l : Nat) (b : TxBlock) : State :=
  let sealed := if s0.fabEncrypts p && sealedKind b.kind b.payload then s0.sealBlock p l b else some (b, s0)
  match sealed with
  | none => s0.sendInstead p l (s0.gyl p l).tx
  | some (x, s1) =>
    let tx := (s1.gyl p l).tx
    let (y, s2) := s1.stampBlock p l x
    if !tx.over y false then s2.sendBlock p l tx y (if y.kind = blkData ∨ y.kind = blkControl then .new else .no)
    else if x.kind = blkVideo then (s1.bumpSat p l F.laneGylCntStuffDrop).sendInstead p l tx
    else s.sendIdle p l (s.gyl p l).tx

/-- The next block of a lane, by the precedence of R283: lane messages, replays, BEACON, other CONTROL, DATA, VIDEO, IDLE. -/
def State.sendNext (s : State) (p l : Nat) : State :=
  let tx := (s.gyl p l).tx
  match tx.link with
  | m :: rest =>
    let b : TxBlock := ⟨blkControl, false, false, padPayload m⟩
    if tx.over b false then s.sendIdle p l tx else s.sendBlock p l { tx with link := rest } b .no
  | [] =>
    match tx.replay with
    | e :: rest =>
      if tx.over e.block true then s.sendIdle p l tx else s.sendBlock p l { tx with replay := rest } e.block (.resent e.origin)
    | [] =>
      match pickBlock tx.queue with
      | some (b, rest) => s.sendTaken (s.putGyl p l { s.gyl p l with tx := { tx with queue := rest } }) p l b
      | none =>
        match s.streamBlock p l blkData with
        | some (b, s1) => s.sendTaken s1 p l b
        | none =>
          match s.streamBlock p l blkVideo with
          | some (b, s1) => s.sendTaken s1 p l b
          | none => s.sendIdle p l tx

/-! ### Receiving (R266, R267, R277, R296) -/

/-- The record that a header begins: its bytes in all, and the record where its LINE is not 0 (R278, R279). -/
def recordOf (enc : Bool) (b : Bytes) : Nat × Option SegRecord :=
  let w0 := leValue (b.take 8)
  let w1 := leValue ((b.drop 8).take 8)
  let rt := leValue ((b.drop 16).take 8)
  let rte := bit w0 4
  let head := if rte then 24 else 16
  let n := bits w0 8 8 + 1
  (head + (n + 7) / 8 * 8,
    if bits w0 25 13 = 0 then none
    else some
      { srcDev := BitVec.ofNat 14 (bits w0 50 14), srcFlow := Fin.ofNat 4096 (bits w0 38 12), line := bits w0 25 13
        seg := bits w0 17 8, ty := bits w0 6 2, last := bit w0 5, next := Fin.ofNat 8 (bits w0 1 3)
        hops := Fin.ofNat 8 (bits w1 28 3), ports := BitVec.ofNat 28 w1, lineSeal := BitVec.ofNat 32 (w1 / 2 ^ 32)
        route := if rte then some (BitVec.ofNat 14 (rt / 2 ^ 50), Fin.ofNat 4 (rt / 2 ^ 48), BitVec.ofNat 48 rt) else none
        data := (b.drop head).take n, errored := false, enc := enc })

/-- The whole records of a stretch of a record stream that begins with a header, and what is left of the next one: none behind a
padding header. -/
def recordsOf (enc : Bool) : Nat → Bytes → List SegRecord × Option Bytes
  | 0, b => ([], some b)
  | k + 1, b =>
    if b.length < 16 then ([], some b)
    else match recordOf enc b with
      | (_, none) => ([], none)
      | (n, some r) =>
        if b.length < n then ([], some b)
        else
          let (l, rest) := recordsOf enc k (b.drop n)
          (r :: l, rest)

/-- A record header takes 16 bytes, so a block begins no more than 8 records. -/
abbrev recordsInBlock : Nat := 9

/-- The payload of a VIDEO or DATA block goes on with its record stream: what comes before the first header of the block ends the record
begun, the records that begin in it follow. -/
def State.takeStream (s : State) (p l k : Nat) (enc : Bool) (x : Bytes) : State × List SegRecord :=
  let ptr := (x.headD 0).toNat
  let body := x.drop 1
  let (head, tail) := if ptr = 0xFF then (body, none) else (body.take (ptr - 1), some (body.drop (ptr - 1)))
  let (old, left) := match Assoc.find Key.code ⟨p, l, k⟩ s.fabParts with
    | some part => recordsOf enc recordsInBlock (part ++ head)
    | none => ([], none)
  let (new, rest) := match tail with
    | some b => recordsOf enc recordsInBlock b
    | none => ([], left)
  (match rest with
    | some b => { s with fabParts := Assoc.set Key.code ⟨p, l, k⟩ b s.fabParts }
    | none => s.dropPart p l k,
   old ++ new)

/-- Does a CONTROL block go beyond its lane: of a kind of R286, and no replay of a delay exchange? -/
def controlKnown (kind : Nat) (replay : Bool) : Bool :=
  decide (kind ∈ [0x10, 0x20, 0x21] ∨ 0x40 ≤ kind ∧ kind < 0x80) || (decide (kind = 0x11 ∨ kind = 0x12) && !replay)

/-- Forward a block whose follower has validated, with the records that end in it. Lane messages are consumed; DATA and CONTROL blocks
are discarded until a replay starts; a fabric port decrypts. -/
def State.forwardBlock (s : State) (p l : Nat) (b : RxBlock) : State × List SegRecord :=
  let pay := b.payload
  let b0 := pay.headD 0
  if b.kind = blkControl ∧ b0 = 1 ∧ bit b.header 18 = false then (s.linkNak p l (pay.getD 2 0).toNat, [])
  else if b.kind = blkControl ∧ b0 = 2 ∧ bit b.header 18 = false then (s.linkReplay p l (decide (pay.getD 3 0 = 1)), [])
  else if (b.kind = blkData ∨ b.kind = blkControl) ∧ (s.gyl p l).rx.nak.isSome then (s, [])
  else if b.kind = blkIdle then (s, [])
  else match s.openBlock p l b with
    | (.plain x, s1) =>
      if b.kind = blkControl ∧ controlKnown (x.headD 0).toNat (bit b.header 17) = false then (s1, [])
      else
        let s2 := s1.emit (.forward p l b.kind x)
        if pageType p = 0x043 ∧ (b.kind = blkVideo ∨ b.kind = blkData) then s2.takeStream p l b.kind (bit b.header 18) x
        else (s2, [])
    | (.errored, s1) => (s1.erroredBlock p l b.kind (bits b.header 20 8), [])
    | (.drop, s1) => (s1.dropPart p l b.kind, [])

/-- Is an unmasked header valid, whatever its SEQ (R266)? -/
def headerOk (h : Nat) : Bool :=
  decide (bits h 0 16 = blkMark) && !bit h 16 && decide (1 ≤ bits h 28 4 ∧ bits h 28 4 ≤ 5)

/-- The 132 bytes of a block off the line, whether a stuffing violation falls in it or it is not a block long, and the run of identical
bits behind it (R264). -/
def GylRx.take (rx : GylRx) (b : GylosBlock) : Bytes × Bool × Bool × Nat :=
  let r := destuffed rx.runBit rx.runLen b.bits
  (bitBytes 132 r.1, r.2.1 || decide (r.1.length ≠ 1056), r.2.2)

/-- A block arrives (R264, R266, R267): it is destuffed, its header is unmasked and judged, then the block before it is forwarded or both
are errored. The records that it completes come with it. -/
def State.receiveBlock (s : State) (p l : Nat) (b : GylosBlock) : State × List SegRecord :=
  let g := s.gyl p l
  let (bytes, bad, runBit, runLen) := g.rx.take b
  let rx : GylRx := { g.rx with runBit := runBit, runLen := runLen, violations := g.rx.violations + (destuffed g.rx.runBit g.rx.runLen b.bits).2.1.toNat }
  let h := beValue (bytes.take 4) ^^^ rx.crc
  let seq := bits h 20 8
  let pay := scramble seq (bytes.drop 4)
  let crc := crc32c bytes
  let next := (rx.seq + 1) % 256
  if !rx.aligned then
    let n := if headerOk h then (if decide (rx.streak = 0) || decide (seq = next) then rx.streak + 1 else 1) else 0
    let rx1 := { rx with streak := n, seq := seq, crc := crc, prev := some ⟨bits h 28 4, h, pay, bad⟩ }
    (if 3 ≤ n then (s.putGyl p l { g with rx := { rx1 with aligned := true, fails := 0 } }).putLane p l laneUp
    else s.putGyl p l { g with rx := rx1 }, [])
  else if headerOk h && decide (seq = next) then
    let s1 := s.putGyl p l { g with
      rx := { rx with seq := seq, crc := crc, fails := 0, prev := some ⟨bits h 28 4, h, pay, bad⟩ } }
    match rx.prev with
    | some x => if x.bad then (s1.erroredBlock p l x.kind rx.seq, []) else s1.forwardBlock p l x
    | none => (s1, [])
  else
    let s1 := s.putGyl p l { g with rx := { rx with seq := next, crc := crc, fails := rx.fails + 1, prev := none } }
    let s2 := s1.headerFails p l rx.prev rx.seq
    (if 8 ≤ rx.fails + 1 then s2.gylLoss p l true else s2, [])

/-- GYLOS_BLOCK_SEND (R262): the next block of a lane of a running port. -/
def execGylosBlockSend (page : Fin 4096) (lane : Fin 4) (s : State) : Host.Outcome State Fault Refusal :=
  .next (if isGylos page && decide (s.laneState page lane ≠ laneOff) then s.sendNext page lane else s)

/-- The signal of a lane that is DOWN returns with a block: the lane aligns again, or adapts anew where its signal was absent for more
than 1 ms (R269, R270). -/
def State.gylReturn (s : State) (p l : Nat) : State :=
  if s.now ≤ (s.gyl p l).rx.lostNs + 1000000 then s.putLane p l laneAligning else (s.laneRequest p l).laneSignal p l

/-- LINK_NAK_TIMEOUT (R268): no LINK_REPLAY came 1 µs after the NAK, which goes again. -/
def execLinkNakTimeout (page : Fin 4096) (lane : Fin 4) (s : State) : Host.Outcome State Fault Refusal :=
  .next (match isGylos page, (s.gyl page lane).rx.nak with
    | true, some seq =>
      if (s.gyl page lane).rx.nakNs + 1000 ≤ s.now then (s.sendNak page lane seq).gylChanged page lane else s
    | _, _ => s)

/-- GYLOS_LANE_LOSS (R269): an UP lane is lost; with its signal gone it reads DOWN, else it aligns again. A lane that aligns is lost only
where its signal goes. -/
def execGylosLaneLoss (page : Fin 4096) (lane : Fin 4) (signal : Bool) (s : State) : Host.Outcome State Fault Refusal :=
  .next (if isGylos page && decide (s.laneState page lane = laneUp ∨ s.laneState page lane = laneAligning ∧ signal = false) then
    (s.gylLoss page lane signal).gylChanged page lane
  else s)

end Sys2Proof.Machine
end

