-- ==== Sys2Proof/Machine/Deflate.lean ====
section
/-! DEFINITION. Decompression: DEFLATE (RFC 1951), zlib framing (RFC 1950), the curd of R184. -/

namespace Sys2Proof.Machine

/-! ### Bits -/

/-- How inflating ends before its end: the input ends, the stream is malformed, or the output passes its limit. -/
inductive InflateEnd where
  | short | bad | full
  deriving DecidableEq, Repr

/-- The bits of bytes, bit 0 first. -/
def bitsOf (l : Bytes) : List Bool := l.flatMap (byteBits true)

/-- A number of n bits, lowest bit first, and the bits behind it. -/
def takeBits : Nat → List Bool → Option (Nat × List Bool)
  | 0, l => some (0, l)
  | _ + 1, [] => none
  | n + 1, b :: t => (takeBits n t).map fun r => (ofBool b + 2 * r.1, r.2)

/-! ### Prefix codes -/

/-- A prefix code: how many symbols have each length from 1 upward, and the symbols by length and value. -/
structure PrefixCode where
  counts : List Nat
  symbols : List Nat
  deriving DecidableEq, Repr

/-- Is a set of code lengths over-subscribed: more codes of some length than are left? -/
def overSubscribed : Nat → List Nat → Bool
  | _, [] => false
  | left, n :: t => decide (2 * left < n) || overSubscribed (2 * left - n) t

/-- The prefix code of a list of lengths by symbol: none where it is over-subscribed. -/
def PrefixCode.ofLengths (l : List Nat) : Option PrefixCode :=
  let by_ := fun k => (l.zipIdx.filter fun e => decide (e.1 = k)).map Prod.snd
  let counts := (List.range 15).map fun k => (by_ (k + 1)).length
  if overSubscribed 1 counts then none
  else some ⟨counts, (List.range 15).flatMap fun k => by_ (k + 1)⟩

/-- Decode one symbol: `code` is the bits so far, `first` the first code of the length, `index` its symbol's place. -/
def symbolFrom (symbols : List Nat) : List Nat → Nat → Nat → Nat → List Bool → InflateEnd ⊕ (Nat × List Bool)
  | [], _, _, _, _ => .inl .bad
  | _ :: _, _, _, _, [] => .inl .short
  | n :: counts, code, first, index, b :: t =>
    let c := code + ofBool b
    if c < first + n then (match symbols[index + (c - first)]? with | some s => .inr (s, t) | none => .inl .bad)
    else symbolFrom symbols counts (2 * c) (2 * (first + n)) (index + n) t

/-- The next symbol of a prefix code. -/
def PrefixCode.next (c : PrefixCode) (l : List Bool) : InflateEnd ⊕ (Nat × List Bool) := symbolFrom c.symbols c.counts 0 0 0 l

/-! ### Lengths and distances -/

/-- Base and extra bits of the length symbols from 257. -/
def lengthTable : List (Nat × Nat) :=
  [(3, 0), (4, 0), (5, 0), (6, 0), (7, 0), (8, 0), (9, 0), (10, 0), (11, 1), (13, 1), (15, 1), (17, 1), (19, 2), (23, 2),
   (27, 2), (31, 2), (35, 3), (43, 3), (51, 3), (59, 3), (67, 4), (83, 4), (99, 4), (115, 4), (131, 5), (163, 5), (195, 5),
   (227, 5), (258, 0)]

/-- Base and extra bits of the distance symbols. -/
def distanceTable : List (Nat × Nat) :=
  [(1, 0), (2, 0), (3, 0), (4, 0), (5, 1), (7, 1), (9, 2), (13, 2), (17, 3), (25, 3), (33, 4), (49, 4), (65, 5), (97, 5),
   (129, 6), (193, 6), (257, 7), (385, 7), (513, 8), (769, 8), (1025, 9), (1537, 9), (2049, 10), (3073, 10), (4097, 11),
   (6145, 11), (8193, 12), (12289, 12), (16385, 13), (24577, 13)]

/-- A value from a table entry and its extra bits. -/
def extended (t : List (Nat × Nat)) (k : Nat) (l : List Bool) : InflateEnd ⊕ (Nat × List Bool) :=
  match t[k]? with
  | some (base, n) => match takeBits n l with
    | some r => .inr (base + r.1, r.2)
    | none => .inl .short
  | none => .inl .bad

/-- Copy bytes from a distance back; the output is held newest first. -/
def copyBack (dist : Nat) : Nat → Bytes → Option Bytes
  | 0, out => some out
  | n + 1, out =>
    match out[dist - 1]? with
    | some b => copyBack dist n (b :: out)
    | none => none

/-! ### Blocks -/

/-- The symbols of a compressed block; each takes a bit at least. -/
def inflateCodes (lit dist : PrefixCode) (limit : Nat) : Nat → List Bool → Bytes → InflateEnd ⊕ (List Bool × Bytes)
  | 0, _, _ => .inl .short
  | fuel + 1, l, out =>
    match lit.next l with
    | .inl e => .inl e
    | .inr (s, l1) =>
      if s < 256 then
        if limit ≤ out.length then .inl .full else inflateCodes lit dist limit fuel l1 (BitVec.ofNat 8 s :: out)
      else if s = 256 then .inr (l1, out)
      else match extended lengthTable (s - 257) l1 with
        | .inl e => .inl e
        | .inr (n, l2) => match dist.next l2 with
          | .inl e => .inl e
          | .inr (d, l3) => match extended distanceTable d l3 with
            | .inl e => .inl e
            | .inr (back, l4) =>
              if out.length < back then .inl .bad
              else if limit < out.length + n then .inl .full
              else match copyBack back n out with
                | some out' => inflateCodes lit dist limit fuel l4 out'
                | none => .inl .bad

/-- The code lengths of a dynamic block, newest first. -/
def readLengths (c : PrefixCode) : Nat → Nat → List Bool → List Nat → InflateEnd ⊕ (List Bool × List Nat)
  | 0, _, _, _ => .inl .bad
  | fuel + 1, want, l, acc =>
    if acc.length = want then .inr (l, acc.reverse)
    else if want < acc.length then .inl .bad
    else
      match c.next l with
      | .inl e => .inl e
      | .inr (s, l1) =>
        if s < 16 then readLengths c fuel want l1 (s :: acc)
        else
          let (k, base) := if s = 16 then (2, 3) else if s = 17 then (3, 3) else (7, 11)
          match takeBits k l1, (if s = 16 then acc.head? else some 0) with
          | some (n, l2), some v => readLengths c fuel want l2 (List.replicate (base + n) v ++ acc)
          | none, _ => .inl .short
          | _, none => .inl .bad

/-- The order in which a dynamic block gives the lengths of its length code. -/
def lengthOrder : List Nat := [16, 17, 18, 0, 8, 7, 9, 6, 10, 5, 11, 4, 12, 3, 13, 2, 14, 1, 15]

/-- So many three-bit numbers. -/
def takeThrees : Nat → List Bool → Option (List Nat × List Bool)
  | 0, l => some ([], l)
  | n + 1, l =>
    match takeBits 3 l with
    | some (v, l1) => (takeThrees n l1).map fun r => (v :: r.1, r.2)
    | none => none

/-- The codes of a dynamic block. -/
def dynamicCodes (l : List Bool) : InflateEnd ⊕ (List Bool × PrefixCode × PrefixCode) :=
  match takeBits 14 l with
  | none => .inl .short
  | some (h, l1) =>
    let hlit := h % 32 + 257
    let hdist := h / 32 % 32 + 1
    let hclen := h / 1024 + 4
    if 286 < hlit ∨ 30 < hdist then .inl .bad
    else match takeThrees hclen l1 with
      | none => .inl .short
      | some (v, l2) =>
        let pairs := lengthOrder.zip v
        let lens := (List.range 19).map fun k => ((pairs.find? fun e => decide (e.1 = k)).map Prod.snd).getD 0
        match PrefixCode.ofLengths lens with
        | none => .inl .bad
        | some c => match readLengths c 400 (hlit + hdist) l2 [] with
          | .inl e => .inl e
          | .inr (l3, all) =>
            match PrefixCode.ofLengths (all.take hlit), PrefixCode.ofLengths (all.drop hlit) with
            | some a, some b => .inr (l3, a, b)
            | _, _ => .inl .bad

/-- The codes of a fixed block. -/
def fixedLit : PrefixCode :=
  (PrefixCode.ofLengths (List.replicate 144 8 ++ List.replicate 112 9 ++ List.replicate 24 7 ++ List.replicate 8 8)).getD ⟨[], []⟩
/-- The distance code of a fixed block. -/
def fixedDist : PrefixCode := (PrefixCode.ofLengths (List.replicate 30 5)).getD ⟨[], []⟩

/-- So many whole bytes of the input. -/
def takeBytes : Nat → List Bool → Option (Bytes × List Bool)
  | 0, l => some ([], l)
  | n + 1, l =>
    match takeBits 8 l with
    | some (v, l1) => (takeBytes n l1).map fun r => (BitVec.ofNat 8 v :: r.1, r.2)
    | none => none

/-- A stored block: from the next byte boundary. The input is whole bytes, so what is left tells where it lies. -/
def storedBlock (limit : Nat) (l : List Bool) (out : Bytes) : InflateEnd ⊕ (List Bool × Bytes) :=
  match takeBits 32 (l.drop (l.length % 8)) with
  | none => .inl .short
  | some (h, l1) =>
    let n := h % 65536
    if n + h / 65536 ≠ 65535 then .inl .bad
    else match takeBytes n l1 with
      | none => .inl .short
      | some (b, l2) => if limit < out.length + n then .inl .full else .inr (l2, b.reverse ++ out)

/-- Blocks up to the last; each takes three bits at least. -/
def inflateBlocks (limit : Nat) : Nat → List Bool → Bytes → InflateEnd ⊕ (List Bool × Bytes)
  | 0, _, _ => .inl .short
  | fuel + 1, l, out =>
    match takeBits 3 l with
    | none => .inl .short
    | some (h, l1) =>
      let body : InflateEnd ⊕ (List Bool × Bytes) := match h / 2 with
        | 0 => storedBlock limit l1 out
        | 1 => inflateCodes fixedLit fixedDist limit (l1.length + 1) l1 out
        | 2 => match dynamicCodes l1 with
          | .inl e => .inl e
          | .inr (l2, a, b) => inflateCodes a b limit (l2.length + 1) l2 out
        | _ => .inl .bad
      match body with
      | .inl e => .inl e
      | .inr (l2, out') => if h % 2 = 1 then .inr (l2, out') else inflateBlocks limit fuel l2 out'

/-- Inflate a DEFLATE stream: the output, and the input bytes taken. -/
def inflate (limit : Nat) (b : Bytes) : InflateEnd ⊕ (Bytes × Nat) :=
  let l := bitsOf b
  match inflateBlocks limit (l.length + 1) l [] with
  | .inl e => .inl e
  | .inr (rest, out) => .inr (out.reverse, b.length - rest.length / 8)

/-! ### zlib (RFC 1950) -/

/-- What unpacking a zlib stream gives (R390): the output, its Adler-32 and where the trailer ended; or the completion code. -/
def unzlib (limit : Nat) (b : Bytes) : Nat ⊕ (Bytes × Nat × Nat) :=
  match b with
  | cmf :: flg :: t =>
    let c := cmf.toNat
    let f := flg.toNat
    if c % 16 ≠ 8 ∨ 7 < c / 16 ∨ (c * 256 + f) % 31 ≠ 0 ∨ f.testBit 5 = true then .inl 4
    else match inflate limit t with
      | .inl .short => .inl 5
      | .inl .bad => .inl 4
      | .inl .full => .inl 2
      | .inr (out, n) =>
        let tr := (t.drop n).take 4
        if tr.length < 4 then .inl 5
        else if beValue tr ≠ adler32 out then .inl 3
        else .inr (out, adler32 out, n + 6)
  | _ => .inl 5

/-! ### Curds (R184, R185) -/

/-- Raw tile bytes of a curd and bytes of its slot. -/
def curdRaw (wide : Bool) : Nat := if wide then 2048 else 1024
/-- Bytes of a curd's slot. -/
def curdSlot (wide : Bool) : Nat := if wide then 2112 else 1088

/-- The raw tile of a curd in its slot: none where the curd is bad. -/
def curdTile (wide : Bool) (slot : Bytes) : Option Bytes :=
  let raw := curdRaw wide
  let h := leValue (slot.take 4)
  let len := h % 2 ^ 16
  let body := (slot.drop 8).take len
  let tile : Option Bytes :=
    if h.testBit 31 then (if len = raw then some body else none)
    else if len = 0 ∨ raw ≤ len then none
    else match inflate raw body with
      | .inr (out, _) => if out.length = raw then some out else none
      | .inl _ => none
  match tile with
  | some t => if crc32c t = leValue ((slot.drop 4).take 4) then some t else none
  | none => none

end Sys2Proof.Machine
end

