-- ==== Sys2Proof/Machine/Cpo.lean ====
section
/-! DEFINITION. Compositors: limits, layers, commits, flips, leases, output lines, starting and stopping (R176 to R196, R207
to R209). -/

namespace Sys2Proof.Machine

/-! ### Layers and their settings -/

/-- A layer that shows nothing. -/
def LayerRun.idle : LayerRun :=
  { shows := none, ready := false, pick := none, shown := none, slip := none, flipDue := false, lastRead := none, readyNow := false
    pickNow := none, bits := 0 }

/-- A layer of a compositor. -/
def State.layer (s : State) (n c : Nat) : LayerRun := (Assoc.find Key.code ⟨pgCpo n, c, 0⟩ s.layers).getD LayerRun.idle

/-- Write a layer. -/
def State.putLayer (s : State) (n c : Nat) (x : LayerRun) : State :=
  { s with layers := Assoc.set Key.code ⟨pgCpo n, c, 0⟩ x s.layers }

/-- The settings of a layer that its picture depends on. -/
def layerCfg : List Field :=
  [F.cpoLCtrlAlpha, F.cpoLCtrlPixfmt, F.cpoLCtrlLayout, F.cpoLCtrlPremult, F.cpoLCtrlFilter, F.cpoLCtrlPredecimateAuto,
   F.cpoLSrcFlow, F.cpoLBaseLoAddr, F.cpoLBaseHiAddr, F.cpoLStrideBytes, F.cpoLSizeW, F.cpoLSizeH, F.cpoLCropXyX,
   F.cpoLCropXyY, F.cpoLCropWhW, F.cpoLCropWhH, F.cpoLDstXyX, F.cpoLDstXyY, F.cpoLDstWhW, F.cpoLDstWhH, F.cpoLFillY,
   F.cpoLFillCb, F.cpoLFillCr]

/-- A setting with which a layer is shown. -/
def LayerShow.get (x : LayerShow) : Getter := fun f =>
  (((layerCfg.zip x.cfg).find? fun e => decide (e.1 = f)).map Prod.snd).getD 0

/-- The active settings of a cell. -/
def State.cpoGet (s : State) (n c : Nat) : Getter := fun f => s.get (pgCpo n) c f

/-- The settings that a commit of a cell would leave. -/
def State.cpoShadow (s : State) (n c : Nat) : Getter := fun f => s.getShadow (pgCpo n) c f

/-- V layers are cells 0 to 3, G layers 4 to 6. -/
def isV (c : Nat) : Bool := decide (c < 4)

/-- Is a layer enabled? -/
def layerOn (g : Getter) : Bool := decide (g F.cpoLCtrlEn = 1)

/-! ### Surfaces (R182 to R184) -/

/-- Bytes of a pixel of PIXFMT. -/
def pixelBytes (fmt : Nat) : Nat := if fmt = 2 then 8 else 4

/-- Is a surface tiled? -/
def isTiled (g : Getter) : Bool := decide (g F.cpoLCtrlLayout = 1)

/-- Are a surface's pixels of eight bytes? -/
def isWide (g : Getter) : Bool := decide (pixelBytes (g F.cpoLCtrlPixfmt) = 8)

/-- A surface's first byte. -/
def surfaceBase (g : Getter) : Nat := g F.cpoLBaseHiAddr * 2 ^ 32 + g F.cpoLBaseLoAddr * 64

/-- Bytes between the rows of a linear surface. -/
def surfaceStride (g : Getter) : Nat := g F.cpoLStrideBytes * 64

/-- The rectangle of a surface or a source that a layer shows: left, top, width, height. -/
def cropRect (g : Getter) (w h : Nat) : Nat × Nat × Nat × Nat :=
  (if g F.cpoLCropWhW = 0 then 0 else g F.cpoLCropXyX, if g F.cpoLCropWhH = 0 then 0 else g F.cpoLCropXyY,
    fullOr (g F.cpoLCropWhW) w, fullOr (g F.cpoLCropWhH) h)

/-- The rectangle of a G layer. -/
def surfaceRect (g : Getter) : Nat × Nat × Nat × Nat := cropRect g (g F.cpoLSizeW) (g F.cpoLSizeH)

/-- Curds across a surface. -/
def curdsAcross (g : Getter) : Nat := ceilDiv (g F.cpoLSizeW) 32

/-- Curds that a span of so many pixels from a start touches, for curds of a size. -/
def curdsIn (start span size : Nat) : Nat := if span = 0 then 0 else (start + span - 1) / size + 1 - start / size

/-- Is a G layer's rectangle outside its surface, or an enabled layer's surface no surface (R183)? -/
def surfaceBad (g : Getter) : Bool :=
  let (x, y, w, h) := surfaceRect g
  decide (g F.cpoLSizeW < x + w ∨ g F.cpoLSizeH < y + h) ||
    (layerOn g && decide (g F.cpoLSizeW = 0 ∨ 16384 < g F.cpoLSizeW ∨ g F.cpoLSizeH = 0 ∨ 16384 < g F.cpoLSizeH))

/-! ### Limits (R177, R178, R180, R181) -/

/-- The source format of a V layer: structure, sampling, depth; none where it names no ingress flow. -/
def State.layerFormat (s : State) (g : Getter) : Option (Nat × Nat × Nat) :=
  let f := g F.cpoLSrcFlow
  if s.isIngress f then
    some (s.get pgFlow f F.flowwinCtx1Struct, s.get pgFlow f F.flowwinCtx1Sampling, s.get pgFlow f F.flowwinCtx1Depth)
  else none

/-- Bits that a layer fetches for one frame (R178). -/
def State.layerBits (s : State) (c : Nat) (g : Getter) : Nat :=
  if !layerOn g then 0
  else if isV c then
    match s.layerFormat g with
    | some (st, sa, de) =>
      let (_, _, w, h) := cropRect g (fmtWidth st) (fmtHeight st)
      w * h * pixelBits sa de
    | none => 0
  else
    let (x, y, w, h) := surfaceRect g
    if isTiled g then curdsIn x w 32 * curdsIn y h 8 * curdSlot (isWide g) * 8
    else w * h * 8 * pixelBytes (g F.cpoLCtrlPixfmt)

/-- The fetch allowance of a compositor. -/
abbrev fetchLimit : Nat := 72000000000

/-- Is a fetch of so many bits a frame above the allowance? -/
def fetchOver (rate bitsSum : Nat) : Bool := decide (fetchLimit * rateDen rate < bitsSum * rateNum rate)

/-- Bits of the line buffer. -/
abbrev lineBufferBits : Nat := 147456

/-- Bits of a cropped line at a decimation (R180). -/
def lineNeed (w sampling depth factor : Nat) : Nat :=
  ceilDiv w factor * (if sampling = 1 then 3 else 2) * depthBits depth

/-- The decimation of a V layer: 1, 2 or 4; none where the line does not fit (R181). -/
def decimation (w sampling depth : Nat) (auto : Bool) : Option Nat :=
  (if auto then [1, 2, 4] else [1]).find? fun k => decide (lineNeed w sampling depth k ≤ lineBufferBits)

/-- The width of a V layer's source rectangle with its sampling and depth, and its height. -/
def State.layerSpan (s : State) (g : Getter) : Option (Nat × Nat × Nat × Nat) :=
  (s.layerFormat g).map fun (st, sa, de) =>
    let (_, _, w, h) := cropRect g (fmtWidth st) (fmtHeight st)
    (w, h, sa, de)

/-- The decimation in force of a V layer: 1 where it has no source. -/
def State.layerFactor (s : State) (g : Getter) : Option Nat :=
  match s.layerSpan g with
  | some (w, _, sa, de) => decimation w sa de (decide (g F.cpoLCtrlPredecimateAuto = 1))
  | none => some 1

/-- Is a V layer's line too long for its buffer? -/
def State.layerShort (s : State) (c : Nat) (g : Getter) : Bool := layerOn g && isV c && (s.layerFactor g).isNone

/-- Is a ratio of a V layer outside its range on an output of a structure (R180)? -/
def State.layerScaleBad (s : State) (c struct : Nat) (g : Getter) : Bool :=
  layerOn g && isV c &&
  (match s.layerSpan g with
   | some (w, h, _, _) =>
     let k := (s.layerFactor g).getD 1
     ratioBad (fullOr (g F.cpoLDstWhW) (fmtWidth struct)) (ceilDiv w k) ||
       ratioBad (fullOr (g F.cpoLDstWhH) (fmtHeight struct)) h
   | none => false)

/-- Bits a frame of all layers; `get` gives each cell's settings. -/
def State.cpoBits (s : State) (get : Nat → Getter) : Nat :=
  (List.range 7).foldl (fun a c => a + s.layerBits c (get c)) 0

/-- FETCH: whole Mbit/s of each layer, summed (R178, log entry 23). -/
def State.cpoFetch (s : State) (rate : Nat) (get : Nat → Getter) : Nat :=
  (List.range 7).foldl (fun a c => a + s.layerBits c (get c) * rateNum rate / rateDen rate / 1000000) 0

/-- Is the format of an output beyond R177? -/
def outputOver (struct rate sampling depth : Nat) : Bool :=
  decide (struct = 6) || pixelsOver struct rate 497664000 ||
    decide (returnLimit < returnBits struct rate sampling depth)

/-- Does ORDER_MAP name cells 0 to 6 once each? -/
def orderOk (w : Nat) : Bool :=
  let l := (List.range 7).map fun k => bits w (3 * k) 3
  (List.range 7).all fun c => decide (c ∈ l)

/-- Does a change from one fetch to another break the allowance? -/
def fetchBreaks (rate0 bits0 rate1 bits1 : Nat) : Bool :=
  fetchOver rate1 bits1 && decide (bits0 * rateNum rate0 * rateDen rate1 < bits1 * rateNum rate1 * rateDen rate0)

/-- The error for which a header commit is refused (R190, R216). -/
def State.cpoHeaderRefusal (s : State) (n : Nat) : Option Nat :=
  let p := pgCpo n
  let now := s.cpoGet n
  let g := s.cpoShadow n 0
  let st := g F.rstFormatStruct
  let rt := g F.rstFormatRate
  let sum := s.cpoBits now
  if s.rasterRefused p 0 then some 24
  else if outputOver st rt (g F.cpoOutFmtSampling) (g F.cpoOutFmtDepth) then some 16
  else if fetchBreaks (s.get p 0 F.rstFormatRate) sum rt sum then some 18
  else if (List.range 4).any fun c =>
      s.layerScaleBad c st (now c) && !s.layerScaleBad c (s.get p 0 F.rstFormatStruct) (now c) then some 20
  else if !orderOk (g F.cpoOrderMapPos) then some 17
  else none

/-- The error for which a layer's commit is refused (R190) (log entry 222). -/
def State.cpoLayerRefusal (s : State) (n c : Nat) : Option Nat :=
  let p := pgCpo n
  let rt := s.get p 0 F.rstFormatRate
  let g := s.cpoShadow n c
  let next := fun k => if k = c then g else s.cpoGet n k
  if fetchBreaks rt (s.cpoBits (s.cpoGet n)) rt (s.cpoBits next) then some 18
  else if s.layerShort c g then some 19
  else if s.layerScaleBad c (s.get p 0 F.rstFormatStruct) g then some 20
  else if !isV c && surfaceBad g then some 21
  else none

/-! ### Readiness (R179, R191) -/

/-- The buffer that a V layer selects for a frame that starts at an instant. -/
def State.layerPick (s : State) (n c : Nat) (g : Getter) (start : Nat) : Option FsBuffer :=
  let r := s.raster (pgCpo n) 0
  let src := g F.cpoLSrcFlow
  let x := s.layer n c
  let same := decide (src = s.get (pgCpo n) c F.cpoLSrcFlow)
  match (if s.isIngress src && (s.run src).producing then (s.run src).store else none) with
  | none => none
  | some st =>
    let line : Nat := lineNs r.struct r.rate
    let frame := fmtFrameSamples r.struct r.rate
    let phase := wrapPhase frame (samplesBetween r.struct r.rate (s.lineOneNs src) start)
    let thr := slipThreshold (8 * line : Nat) line frame (fmtSamples r.struct r.rate) (if same then x.slip else none) phase
    match st.buffers.find? fun b => b.ready start && decide ((b.begunNs : Int) + thr ≤ start) with
    | none => none
    | some b =>
      let newer := match (if same then x.shown else none) with
        | some k => decide (k < b.seq)
        | none => true
      if decide (r.mode = modeContent) && !newer then none else some b

/-- Has a G layer's fence been reached: L_FENCE less L_WAIT, as a signed 32-bit difference, is not negative? -/
def fenceReached (fence wait : Nat) : Bool := decide ((fence + 2 ^ 32 - wait) % 2 ^ 32 < 2 ^ 31)

/-- The settings that a layer will have at the coming commit point. -/
def State.layerNext (s : State) (n c : Nat) : Getter :=
  if (s.unit (pgCpo n) (c + 1)).captured then s.cpoShadow n c else s.cpoGet n c

/-- The settings that a layer would have at a capture instant now (R192): those of a commit that waits for it. -/
def State.layerComing (s : State) (n c : Nat) : Getter :=
  let u := s.unit (pgCpo n) (c + 1)
  let due := match u.frame with | some f => decide (f ≤ s.rasterNext (pgCpo n) 0) | none => true
  if s.commitPending (pgCpo n) (c + 1) && (u.captured || due) then s.cpoShadow n c else s.cpoGet n c

/-- Readiness of a layer under settings for a frame that starts at an instant, and the buffer of a V layer. -/
def State.layerReady (s : State) (n c : Nat) (g : Getter) (start : Nat) : Bool × Option Nat :=
  if isV c then
    let b := s.layerPick n c g start
    (b.isSome, b.map fun x => x.seq)
  else (decide (g F.cpoLCtrlFenceEn = 0) || fenceReached (s.get (pgCpo n) c F.cpoLFenceValue) (g F.cpoLWaitFence), none)

/-- Record every layer's readiness for the frame that starts at an instant; in a pair the lead's (R305). -/
def State.cpoReadiness (s : State) (n start : Nat) : State :=
  (List.range 7).foldl (fun s c =>
    let g := s.layerNext n c
    let (ok, pick) := s.layerReady n c g start
    let st := (s.run (g F.cpoLSrcFlow)).store
    let frame := pick.bind fun k => (st.bind fun x => x.buffers.find? fun b => decide (b.seq = k)).map fun b => b.frame
    let (ok', pick') := match s.decided (pgCpo n) c with
      | some [r] => (decide (r = 1), none)
      | some [r, f] => (decide (r = 1), (st.bind fun x => x.ofFrame s.now f).map fun b => b.seq)
      | _ => (ok, pick)
    let (okNow, pickNow) := s.layerReady n c (s.cpoGet n c) start
    (s.share (pgCpo n) c (ofBool ok :: frame.toList)).putLayer n c { s.layer n c with
      ready := ok', pick := pick', readyNow := okNow, pickNow := pickNow }) s

/-- The capture instant of a compositor's commit point: header and layer commits, Bezel messages, readiness (R188, R191,
R203). -/
def State.cpoCapture (s : State) (n : Nat) : State :=
  let p := pgCpo n
  let r := s.raster p 0
  let next := s.rasterNext p 0
  let s1 := (List.range 8).foldl (fun s u => s.capture p u next) s
  (s1.bezCapture n).cpoReadiness n (s.now + nsOf r.struct r.rate r.lastLine)

/-- Are all enabled REQUIRED layers ready for a frame that would start one line from now (R192, R221)? -/
def State.requiredReady (s : State) (n : Nat) : Bool :=
  let r := s.raster (pgCpo n) 0
  (List.range 7).all fun c =>
    let g := s.layerComing n c
    !(layerOn g && decide (g F.cpoLCtrlRequired = 1)) || (s.layerReady n c g (s.now + lineNs r.struct r.rate)).1

/-- Has the source of a V layer no frame store (R179)? -/
def State.layerStoreless (s : State) (g : Getter) (c : Nat) : Bool :=
  isV c && s.isIngress (g F.cpoLSrcFlow) && (s.run (g F.cpoLSrcFlow)).store.isNone

/-! ### Leases (R195) -/

/-- The range that a surface's lease covers, outward to 4 KiB. -/
def leaseRange (g : Getter) : Nat × Nat :=
  let a := surfaceBase g
  let n := if isTiled g then curdsAcross g * ceilDiv (g F.cpoLSizeH) 8 * curdSlot (isWide g)
    else g F.cpoLSizeH * surfaceStride g
  let lo := a / 4096 * 4096
  (lo, ceilDiv (a + n) 4096 * 4096 - lo)

/-- A cell's lease follows what its layer reads: a surface, or nothing. -/
def State.leaseFollow (s : State) (n c : Nat) : State :=
  let rest := s.leases.filter fun l => decide (l.cpo ≠ n ∨ l.cell ≠ c)
  match (s.layer n c).shows with
  | some x =>
    if x.fill || isV c then ({ s with leases := rest } : State).put (pgCpo n) c F.cpoLStatusLeased 0
    else
      let (a, k) := leaseRange x.get
      ({ s with leases := rest ++ [{ cpo := n, cell := c, base := a, size := k }] } : State).put (pgCpo n) c F.cpoLStatusLeased 1
  | none => ({ s with leases := rest } : State).put (pgCpo n) c F.cpoLStatusLeased 0

/-- A compositor's leases are released. -/
def State.leaseDrop (s : State) (n : Nat) : State :=
  (List.range 7).foldl (fun s c => s.put (pgCpo n) c F.cpoLStatusLeased 0)
    { s with leases := s.leases.filter fun l => decide (l.cpo ≠ n) }

/-! ### Frame starts (R181, R192 to R194) -/

/-- Write one of the status bits of R181; whether it changed. -/
def State.putOver (s : State) (n c : Nat) (f : Field) (v : Bool) : State :=
  let was := s.flag (pgCpo n) c f
  let s1 := s.put (pgCpo n) c f (ofBool v)
  if was = v then s1 else s1.raise (pgCpo n) 21

/-- The V layers, in order, whose sources have grown since their commit and do not fit the allowance beside the others (R181, log
entry 24). -/
def State.fetchOverCells (s : State) (n : Nat) : List Nat :=
  let g := s.cpoGet n
  let rt := s.get (pgCpo n) 0 F.rstFormatRate
  let grows := fun c => isV c && decide ((s.layer n c).bits < s.layerBits c (g c))
  let fixed := (List.range 7).foldl (fun a c => if grows c then a else a + s.layerBits c (g c)) 0
  ((List.range 4).foldl (fun (a : Nat × List Nat) c =>
    if grows c then
      (if fetchOver rt (a.1 + s.layerBits c (g c)) && decide (s.layerBits c (g c) ≠ 0) then (a.1, c :: a.2)
       else (a.1 + s.layerBits c (g c), a.2))
    else a) (fixed, [])).2

/-- The checks of R181 at a frame start: SCALE_OVER and FETCH_OVER end where every check passes. -/
def State.cpoChecks (s : State) (n : Nat) : State :=
  let p := pgCpo n
  let grown := s.fetchOverCells n
  let st := s.get p 0 F.rstFormatStruct
  (List.range 4).foldl (fun s c =>
    let g := s.cpoGet n c
    let k := if layerOn g then (s.layerFactor g).getD 1 else 1
    let short := s.layerShort c g
    let scale := s.layerScaleBad c st g
    let fetch := decide (c ∈ grown)
    let any_ := short || scale || fetch
    let s1 := (s.putOver n c F.cpoLStatusLbShort short).putOver n c F.cpoLStatusScaleOver
      (any_ && (scale || s.flag p c F.cpoLStatusScaleOver))
    let s2 := (s1.putOver n c F.cpoLStatusFetchOver (any_ && (fetch || s.flag p c F.cpoLStatusFetchOver))).putOver n c
      F.cpoLStatusLbDecimated (decide (k ≠ 1))
    s2.put p c F.cpoLStatusDecimate (k / 2)) s

/-- Is a layer transparent whatever its content: faulted, or over a limit? -/
def State.layerBarred (s : State) (n c : Nat) : Bool :=
  let p := pgCpo n
  s.flag p c F.cpoLStatusFaulted || s.flag p c F.cpoLStatusLbShort || s.flag p c F.cpoLStatusScaleOver ||
    s.flag p c F.cpoLStatusFetchOver

/-- A layer's slips (R179). -/
def State.layerSlip (s : State) (n c : Nat) (src seq : Nat) : State :=
  let p := pgCpo n
  let r := s.raster p 0
  let x := s.layer n c
  let phase := wrapPhase (fmtFrameSamples r.struct r.rate) (samplesBetween r.struct r.rate (s.lineOneNs src) s.now)
  match x.shown with
  | none => s.putLayer n c { x with shown := some seq, slip := none }
  | some old =>
    if seq = old then
      ((s.putLayer n c { x with slip := some (true, phase) }).bump p c F.cpoLSlipRepeat).raise p 20
    else if old + 1 < seq then
      ((s.putLayer n c { x with shown := some seq, slip := some (false, phase) }).bumpBy p c F.cpoLSlipDrop (seq - old - 1)).raise p 20
    else
      s.putLayer n c { x with
        shown := some seq, slip := slipStays (fmtFrameSamples r.struct r.rate) (fmtSamples r.struct r.rate) x.slip phase }

/-- The frame that a V layer reads from a buffer of its source's store, an errored line from the buffer before (R115). -/
def State.layerFrame (s : State) (g : Getter) (pick : Option Nat) : Option (FsBuffer × Nat × Nat × Nat) :=
  match pick, s.layerFormat g, (s.run (g F.cpoLSrcFlow)).store with
  | some k, some fmt, some st =>
    (st.buffers.find? fun b => decide (b.seq = k)).map fun b =>
      ({ b with lines := b.lines.filterMap fun l => (storeLine st s.now k l.1).map fun v => (l.1, false, v) }, fmt)
  | _, _, _ => none

/-- The flip record of a cell (R193); where the commit replaced nothing that was read, REL_FRAME is a free value. -/
def State.layerFlip (s : State) (n c : Nat) : State :=
  let p := pgCpo n
  let r := s.raster p 0
  let x := s.layer n c
  let (v, s0) := s.draw
  let s1 := match x.lastRead with
    | some k => s.putFrame48 p c F.cpoLRelFrameLoFrame F.cpoLRelFrameHiFrame k
    | none => s0.putFrame48 p c F.cpoLRelFrameLoFrame F.cpoLRelFrameHiFrame (v % frameModulus)
  let s2 := (s1.putFrame48 p c F.cpoLFlipFrameLoFrame F.cpoLFlipFrameHiFrame r.frame).putStamp p c (s.taiNs r.tb r.activeNs)
    F.cpoLFlipSLoSec F.cpoLFlipSHiSec F.cpoLFlipSHiTsValid F.cpoLFlipNsNs
  ((s2.putLayer n c { x with flipDue := false }).bump p c F.cpoLStatusFlipSeq).raise p 16

/-- What a layer shows in the frame that begins (R192). -/
def State.layerStart (s : State) (n c : Nat) : State :=
  let p := pgCpo n
  let g := s.cpoGet n c
  let x := s.layer n c
  let cfg := layerCfg.map g
  if !layerOn g then
    (s.putLayer n c { x with shows := none, flipDue := false, shown := none, slip := none }).put p c F.cpoLStatusNotReady 0
  else if s.layerBarred n c then
    let s1 := (s.putLayer n c { x with shows := none }).put p c F.cpoLStatusNotReady (ofBool !x.ready)
    if x.ready then s1 else s1.raise p 17
  else if x.ready then
    let s1 := match x.pick with
      | some k => s.layerSlip n c (g F.cpoLSrcFlow) k
      | none => s
    let s2 := if x.flipDue then s1.layerFlip n c else s1
    (s2.putLayer n c { s2.layer n c with shows := some ⟨cfg, s.layerFrame g x.pick, false⟩, lastRead := some (s.raster p 0).frame }).put p c
      F.cpoLStatusNotReady 0
  else
    let pol := g F.cpoLCtrlNotready
    let shows := if pol = 1 then none else if pol = 2 then some ⟨cfg, none, true⟩ else x.shows
    let read := match shows with
      | some y => if y.fill then x.lastRead else some (s.raster p 0).frame
      | none => x.lastRead
    ((s.putLayer n c { x with shows := shows, lastRead := read }).put p c F.cpoLStatusNotReady 1).raise p 17

/-- SHOWING of a cell. -/
def State.putShowing (s : State) (n c : Nat) (v : Bool) : State :=
  (s.put (pgCpo n) c F.cpoLStatusShowing (ofBool v)).putStat (pgCpo n) (16 + c) v

/-- A commit of a layer applies: the flip is due, and a new source has shown nothing. -/
def State.layerCommitted (s : State) (n c : Nat) : State :=
  let p := pgCpo n
  let old := s.get p c F.cpoLSrcFlow
  let s1 := s.commitPoint p (c + 1)
  let x := { s1.layer n c with flipDue := true, bits := s1.layerBits c (s1.cpoGet n c) }
  s1.putLayer n c (if s1.get p c F.cpoLSrcFlow = old then x else { x with shown := none, slip := none })

/-- The commits of a commit point, in the order of R190. -/
def State.cpoCommits (s : State) (n : Nat) : State :=
  let p := pgCpo n
  let s1 := if (s.unit p 0).captured then
      (match s.cpoHeaderRefusal n with
       | some e => (s.refuseCommit p 0 e).thaw p 0
       | none => s.commitPoint p 0)
    else s.thaw p 0
  (List.range 7).foldl (fun s c =>
    if (s.unit p (c + 1)).captured then
      match s.cpoLayerRefusal n c with
      | some e =>
        let s2 := (s.refuseCommit p (c + 1) e).thaw p (c + 1)
        s2.putLayer n c { s2.layer n c with ready := (s2.layer n c).readyNow, pick := (s2.layer n c).pickNow }
      | none => s.layerCommitted n c
    else s.thaw p (c + 1)) s1

/-- Does a commit point apply a header commit, or a message of the Bezel? -/
def State.cpoChanging (s : State) (n : Nat) : Bool :=
  ((s.unit (pgCpo n) 0).captured && (s.cpoHeaderRefusal n).isNone) || (s.bezCell n).waiting.any fun y => y.captured

/-- The audio returned follows the frame that V layer AUD_LAYER shows; a frame in which the layer is not ready is a repeat of the last
one's, concealed like a slip (R207); an absent layer is silent. -/
def State.cpoAudio (s : State) (n : Nat) : State :=
  let p := pgCpo n
  let c := s.get p 0 F.cpoCtrlAudLayer
  match s.flowOn kindCpo n 0x20 false with
  | none => s
  | some f =>
    let x := s.layer n c
    let on := s.flag p 0 F.cpoCtrlAudEn && layerOn (s.cpoGet n c) && !s.layerBarred n c
    let seen := (x.shows.bind LayerShow.frame).map fun b => b.1.seq
    let path : AudioPath := match (if on then seen.orElse fun _ => x.shown else none) with
      | some k => .stored (((x.shows.map fun y => y.get F.cpoLSrcFlow)).getD (s.cpoGet n c F.cpoLSrcFlow)) k s.now
      | none => .silent
    (s.hear f path false).checkFit f

/-- The commit point of a compositor: commits, the raster's settings, the Bezel, the layers of the frame (R188 to R194). -/
def State.cpoCommitPoint (s : State) (n : Nat) : State :=
  let p := pgCpo n
  let r := s.raster p 0
  let flips := fun (x : State) => (List.range 7).map fun c => x.get p c F.cpoLStatusFlipSeq
  let s1 := ((s.cpoCommits n).rasterSettings p 0)
  let s2 := (s1.bezApply n false r.frame (s1.taiNs r.tb r.activeNs)).bezFrame n
  let s3 := s2.cpoChecks n
  let s4 := (List.range 7).foldl (fun s c => (s.layerStart n c).leaseFollow n c) s3
  let s5 := (List.range 7).foldl (fun s c => s.putShowing n c (s.layer n c).shows.isSome) s4
  let s6 := s5.putShowing n 7 (s5.flag pgBez n F.bezCellStatusVisible && !s5.flag p 7 F.cpoLStatusFaulted)
  (if s.cpoChanging n || decide (flips s6 ≠ flips s) then s6.rasterFlip p 0 else s6).cpoAudio n

/-- CPO_COMMIT_POINT (R190), after the raster's frame has begun. -/
def execCpoCommitPoint (n : Fin 16) (s : State) : Host.Outcome State Fault Refusal :=
  .next (if (s.raster (pgCpo n) 0).running && !(s.raster (pgCpo n) 0).waiting then s.cpoCommitPoint n else s)

/-! ### Output lines (R185, R186, R226) -/

/-- The picture line, from the top of the frame, of a raster line. -/
def frameLine (struct line : Nat) : Option Nat :=
  (rasterPicture struct line).map fun x => if fmtInterlaced struct then 2 * x.1 + ofBool x.2 else x.1

/-- What a layer puts over a pixel of 16 bits: its colour, the weight of that colour and its alpha, of 65,535 (R186). -/
structure Blend where
  colour : Pixel
  weight : Nat
  alpha : Nat

/-- A pixel over which a layer lies. -/
def Blend.over (b : Option Blend) (c : Pixel) : Pixel :=
  match b with
  | none => c
  | some b => .of fun k => clip 65535 (near 10 ((b.weight * b.colour.comp k + (65535 - b.alpha) * c.comp k : Nat) : Int) 65535)

/-- A straight or premultiplied colour with its pixel alpha, of 65,535, at a global alpha. -/
def Blend.of (global : Nat) (premult : Bool) (alpha : Nat) (c : Pixel) : Blend :=
  let a := (near 11 ((alpha * global : Nat) : Int) 255).toNat
  ⟨c, if premult then global * 257 else a, a⟩

/-- A colour given in ten bits, as a pixel of 16. -/
def tenBits (y cb cr : Nat) : Pixel := ⟨64 * y, 64 * cb, 64 * cr⟩

/-- A pixel word of PIXFMT as alpha and a colour of 16 bits under a matrix (R182). -/
def surfacePixel (fmt cs w : Nat) : Nat × Pixel :=
  match fmt with
  | 1 => (bits w 30 2 * 21845, toYcc cs 1023 16 (bits w 20 10) (bits w 10 10) (bits w 0 10))
  | 2 => ((near 12 ((bits w 52 12 * 65535 : Nat) : Int) 4095).toNat, ⟨16 * bits w 36 12, 16 * bits w 20 12, 16 * bits w 4 12⟩)
  | _ => (bits w 24 8 * 257, toYcc cs 255 16 (bits w 16 8) (bits w 8 8) (bits w 0 8))

/-- What a layer has for a line: nothing, no data in time, or data, and how many bad curds were found. -/
inductive LayerLine where
  | clear
  | late
  | data (bad : Nat)
  deriving DecidableEq, Repr

/-- The raw tile of a curd in memory: the layer reads its header and as many bytes as LENGTH names, in units of 64; none where it cannot
read them, no tile where the curd is bad (R184, R185). -/
def State.curdAt (s : State) (g : Getter) (ty tx : Nat) : Option (Option Bytes) :=
  let a := surfaceBase g + (ty * curdsAcross g + tx) * curdSlot (isWide g)
  match s.fetchBytes a 64 with
  | none => none
  | some h =>
    let len := leValue (h.take 2)
    if curdRaw (isWide g) < len then some none
    else (s.fetchBytes a (inUnits (8 + len))).map fun b => curdTile (isWide g) b

/-- The curds of a row of curds that a span touches are read: the bad ones, none where one is not to be had. -/
def State.curdsBad (s : State) (g : Getter) (ty tx : Nat) : Nat → Option Nat
  | 0 => some 0
  | k + 1 =>
    match s.curdAt g ty tx, s.curdsBad g ty (tx + 1) k with
    | some t, some bad => some (if t.isNone then bad + 1 else bad)
    | _, _ => none

/-- Where a layer lies on its output: left, top, width, height; a V layer's W or H of 0 takes the whole axis. -/
def State.layerRect (s : State) (n c : Nat) (g : Getter) : Nat × Nat × Nat × Nat :=
  let st := (s.raster (pgCpo n) 0).struct
  let whole := fun (w x : Nat) => if isV c && decide (w = 0) then 0 else x
  (whole (g F.cpoLDstWhW) (g F.cpoLDstXyX), whole (g F.cpoLDstWhH) (g F.cpoLDstXyY),
    if isV c then fullOr (g F.cpoLDstWhW) (fmtWidth st) else (surfaceRect g).2.2.1,
    if isV c then fullOr (g F.cpoLDstWhH) (fmtHeight st) else (surfaceRect g).2.2.2)

/-- What a layer has for a picture line. -/
def State.layerLine (s : State) (n c y : Nat) (x : LayerShow) : LayerLine :=
  let g := x.get
  let (_, dy, _, h) := s.layerRect n c g
  if y < dy ∨ dy + h ≤ y then .clear
  else if x.fill then .data 0
  else if isV c then (if x.frame.isSome then .data 0 else .clear)
  else
    let (cx, cy, w, _) := surfaceRect g
    let row := y - dy + cy
    if isTiled g then
      match s.curdsBad g (row / 8) (cx / 32) (curdsIn cx w 32) with
      | some bad => .data (if row % 8 = 0 ∨ y = dy then bad else 0)
      | none => .late
    else
      let k := pixelBytes (g F.cpoLCtrlPixfmt)
      match s.fetchBytes (surfaceBase g + row * surfaceStride g + cx * k) (w * k) with
      | some _ => .data 0
      | none => .late

/-- The picture of a frame of a structure, a sampling and a depth; of an interlaced one its fields are woven (R179). -/
def framePicture (b : FsBuffer) (struct sampling depth : Nat) : Picture :=
  let field := fun second => unpackPicture sampling depth fun l =>
    ((b.lines.find? fun e => decide (e.1 = (fmtFirstActive struct).getD second 1 + l)).map fun e => e.2.2).getD []
  if fmtInterlaced struct then weave (field 0) (field 1) else field 0

/-- The mean of so many pixels side by side, the last one repeated beyond a width (R181). -/
def decimated (k w : Nat) (p : Picture) : Picture := fun x y =>
  if k = 1 then p x y
  else .of fun i => (near 13 (((List.range k).map fun j => (p (min (w - 1) (k * x + j)) y).comp i).sum : Nat) k).toNat

/-- The pixels of a V layer over its destination, at 16 bits: cropped, averaged, scaled (R180, R181) (log entry 221). -/
def layerPicture (g : Getter) (x : FsBuffer × Nat × Nat × Nat) (dw dh : Nat) : Picture :=
  let (b, st, sa, de) := x
  let (cx, cy, w, h) := cropRect g (fmtWidth st) (fmtHeight st)
  let k := (decimation w sa de (decide (g F.cpoLCtrlPredecimateAuto = 1))).getD 1
  let p : Picture := fun u v => framePicture b st sa de (cx + u) (cy + v)
  let q := scalePicture 8 6 (g F.cpoLCtrlFilter) 12 (decimated k w p) 0 0 (ceilDiv w k) h dw dh
  fun u v => .of fun i => 16 * (q u v).comp i

/-- What a G layer has at a place of its surface: a pixel, or none in a bad curd (R183 to R185). -/
def State.surfaceAt (s : State) (g : Getter) (cs x y : Nat) : Option (Nat × Pixel) :=
  let k := pixelBytes (g F.cpoLCtrlPixfmt)
  let pixel := fun (b : Bytes) => surfacePixel (g F.cpoLCtrlPixfmt) cs (leValue b)
  if isTiled g then
    match s.curdAt g (y / 8) (x / 32) with
    | some (some t) => some (pixel ((t.drop ((32 * (y % 8) + x % 32) * k)).take k))
    | _ => none
  else (s.fetchBytes (surfaceBase g + y * surfaceStride g + x * k) k).map pixel

/-- What a layer puts over a pixel of the output (R186). -/
def State.layerPixel (s : State) (n c : Nat) (x : LayerShow) : Nat → Nat → Option Blend := fun u v =>
  let g := x.get
  let (dx, dy, w, h) := s.layerRect n c g
  let alpha := g F.cpoLCtrlAlpha
  let fill := Blend.of alpha false 65535 (tenBits (g F.cpoLFillY) (g F.cpoLFillCb) (g F.cpoLFillCr))
  if u < dx ∨ dx + w ≤ u ∨ v < dy ∨ dy + h ≤ v then none
  else if x.fill then some fill
  else if isV c then x.frame.map fun b => Blend.of alpha false 65535 (layerPicture g b w h (u - dx) (v - dy))
  else
    let (cx, cy, _, _) := surfaceRect g
    match s.surfaceAt g (s.get (pgCpo n) 0 F.cpoOutFmtCs) (u - dx + cx) (v - dy + cy) with
    | some (a, p) => some (Blend.of alpha (decide (g F.cpoLCtrlPremult = 1)) a p)
    | none => if isTiled g then some fill else none

/-- What a Bezel puts over a pixel of the output (R204); nothing once cell 7 has faulted (R209). -/
def State.bezPixel (s : State) (n : Nat) : Nat → Nat → Option Blend := fun u v =>
  if s.flag pgBez n F.bezCellStatusVisible && !s.flag (pgCpo n) 7 F.cpoLStatusFaulted then
    (s.bezAt n u v).map fun i =>
      let (a, p) := surfacePixel 0 (s.get (pgCpo n) 0 F.cpoOutFmtCs) (leValue (((s.bezCell n).image.drop (4 * i)).take 4))
      Blend.of (s.get pgBez n F.bezStateViewAlpha) false a p
  else none

/-- The cells from the bottom up (R187). -/
def State.cpoOrder (s : State) (n : Nat) : List Nat :=
  let p := pgCpo n
  if s.flag p 0 F.cpoCtrlOrder then (List.range 7).map fun k => bits (s.get p 0 F.cpoOrderMapPos) (3 * k) 3 else List.range 7

/-- A layer has no data for a line: it is transparent to the end of the frame (R226). -/
def State.layerUnderrun (s : State) (n c : Nat) : State :=
  let p := pgCpo n
  if c ∈ (s.raster p 0).underran then s else (s.underrun p 0 c).bump p c F.cpoLCntUnderrun

/-- Bad curds of a layer are counted (R185). -/
def State.curdErrors (s : State) (n c bad : Nat) : State :=
  let p := pgCpo n
  if bad = 0 then s else (s.put p c F.cpoLCntCurdErr (s.get p c F.cpoLCntCurdErr + bad)).raise p 18

/-- The layers that have data for a picture line, from the bottom up; those that should and have none underrun, a faulted one is
transparent at once (R209). -/
def State.lineParts (s : State) (n y : Nat) : List Nat → List (Nat → Nat → Option Blend) × State
  | [] => ([], s)
  | c :: t =>
    match (s.layer n c).shows with
    | none => s.lineParts n y t
    | some x =>
      if decide (c ∈ (s.raster (pgCpo n) 0).underran) || s.flag (pgCpo n) c F.cpoLStatusFaulted then s.lineParts n y t
      else match s.layerLine n c y x with
        | .clear => s.lineParts n y t
        | .late => (s.layerUnderrun n c).lineParts n y t
        | .data bad =>
          let (r, s1) := (s.curdErrors n c bad).lineParts n y t
          (s.layerPixel n c x :: r, s1)

/-- The returned video flow where its format is the active output's and it names the raster's timebase (R177). -/
def State.cpoReturn (s : State) (n : Nat) : Option Nat :=
  let p := pgCpo n
  let r := s.raster p 0
  match s.flowOn kindCpo n 0 false with
  | some f =>
    if s.flowType f = typeVideo ∧ s.get pgFlow f F.flowwinCtx1Struct = r.struct ∧ s.get pgFlow f F.flowwinCtx1Rate = r.rate ∧
        s.get pgFlow f F.flowwinCtx1Sampling = s.get p 0 F.cpoOutFmtSampling ∧
        s.get pgFlow f F.flowwinCtx1Depth = s.get p 0 F.cpoOutFmtDepth ∧ s.get pgFlow f F.flowwinCtx0Tb = r.tb
    then some f else none
  | none => none

/-- The output picture line of a raster line: black in the first frame of a format, BG where nothing lies over it; the Bezel lies above
either (R198). -/
def State.cpoPicture (s : State) (n y : Nat) : Bytes × State :=
  let p := pgCpo n
  let r := s.raster p 0
  let g := s.cpoGet n 0
  let sampling := g F.cpoOutFmtSampling
  let depth := g F.cpoOutFmtDepth
  let inter := fmtInterlaced r.struct
  let second := inter && decide (y % 2 = 1)
  let row := if inter then y / 2 else y
  let flat := colourLine r.struct sampling depth
  let (by_, bcb, bcr) := if r.black then (64, 512, 512) else (g F.cpoBgY, g F.cpoBgCb, g F.cpoBgCr)
  let (parts, s1) := if r.black then ([], s) else s.lineParts n y (s.cpoOrder n)
  match parts ++ (if s.bezShows n y then [s.bezPixel n] else []) with
  | [] => (flat by_ bcb bcr (decide (row % 2 = 1)), s1)
  | l =>
    let p : Picture := fun u v => l.foldl (fun c b => Blend.over (b u (if inter then 2 * v + ofBool second else v)) c)
      (tenBits by_ bcb bcr)
    (packRow 16 sampling depth (fmtWidth r.struct) p (fun _ _ => false) row, s1)

/-- A line of a compositor's raster: the layers that have no data, then the line itself, signed and returned. -/
def State.cpoLine (s : State) (n line : Nat) (missing : List Nat) : State :=
  let p := pgCpo n
  match frameLine (s.raster p 0).struct line with
  | none => s
  | some y =>
    let s0 := (missing.filter fun c => decide (c < 7) && (s.layer n c).shows.isSome).foldl (fun s c => s.layerUnderrun n c) s
    let (b, s1) := s0.cpoPicture n y
    let r := s1.raster p 0
    let s2 := s1.putRaster p 0 { r with sig := lineSignature r.sig (s1.get p 0 F.cpoOutFmtDepth) b }
    match s2.cpoReturn n with
    | some f => s2.produceLine f line false b
    | none => s2

/-- The end of a compositor's frame: the alive state of what it returns. -/
def State.cpoAlive (s : State) (n : Nat) : State :=
  match s.cpoReturn n with
  | some f => s.aliveFrame f
  | none => s

/-! ### Starting and stopping (R208, R209) -/

/-- A compositor asks for its power. -/
def State.cpoAsk (s : State) (n : Nat) : State := ((s.postPower (pgCpo n) .compositor).1).putReady (pgCpo n) false causeWaitPower

/-- A compositor has its grant: it is READY, and its raster starts. -/
def State.cpoGranted (s : State) (n : Nat) : State :=
  let p := pgCpo n
  if s.holds p .compositor && s.flag p 0 F.cpoCtrlEn && !s.running p then
    ((s.putRunning p true).putReady p true causeNone).rasterStart p 0
  else s

/-- Every layer shows nothing. -/
def State.layersIdle (s : State) (n : Nat) : State :=
  (List.range 8).foldl (fun s c => s.putShowing n c false)
    ((List.range 7).foldl (fun s c => (s.putLayer n c LayerRun.idle).put (pgCpo n) c F.cpoLStatusNotReady 0) (s.leaseDrop n))

/-- A commit of a layer of a compositor that does not run applies at once, or is refused; its flip is due (R190, R193). -/
def State.layerCommitAtOnce (s : State) (n c : Nat) : State :=
  let p := pgCpo n
  let s1 := s.unstage p (c + 1)
  let s2 := s1.completeOr p (c + 1) (s1.cpoLayerRefusal n c)
  if (s1.cpoLayerRefusal n c).isSome then s2
  else s2.putLayer n c { s2.layer n c with flipDue := true, bits := s2.layerBits c (s2.cpoGet n c) }

/-- A compositor has stopped: commits that are pending complete, accepted Bezel messages apply. -/
def State.cpoStopped (s : State) (n : Nat) : State :=
  let p := pgCpo n
  let s1 := ((((s.rasterStop p 0).layersIdle n).releasePower p .compositor).putRunning p false).putReady p false causeWaitPower
  let s2 := (List.range 7).foldl (fun s c => ((if s.commitPending p (c + 1) then s.layerCommitAtOnce n c else s).thaw p (c + 1)))
    (((s1.stopPortFlows kindCpo n).stopCommitOr p 0 ((s1.stopPortFlows kindCpo n).cpoHeaderRefusal n)).thaw p 0)
  if (s2.bezCell n).waiting.isEmpty then s2 else s2.bezApplyStopped n

/-- A compositor is told to stop: at the end of its frame, at once where none is in progress. -/
def State.cpoStop (s : State) (n : Nat) : State :=
  let p := pgCpo n
  if s.running p then (if (s.raster p 0).waiting then s.cpoStopped n else s)
  else (s.withdrawPower p .compositor).releasePower p .compositor

/-- A write of CPO CTRL. -/
def State.writeCpoCtrl (s : State) (n w : Nat) : State :=
  let p := pgCpo n
  let was := s.flag p 0 F.cpoCtrlEn
  let s1 := (s.writeBut p 0 (s.running p) w 0x080 [F.cpoCtrlEn]).put p 0 F.cpoCtrlEn (bits w 0 1)
  if was && !bit w 0 then s1.cpoStop n
  else if bit w 0 && !s1.running p && s1.acts p && !s1.powerSought p .compositor was then s1.cpoAsk n
  else s1

/-- CPO_START (R208): a write of CTRL with EN set. -/
def execCpoStart (m : Fin 8) (n : Fin 16) (w : Word) (s : State) : Host.Outcome State Fault Refusal :=
  let w' := withBit w.toNat 0
  .next (s.write m (pgCpo n) 0x080 w' fun s => s.writeCpoCtrl n w')

/-- CPO_STOP (R208): a write of CTRL with EN clear. -/
def execCpoStop (m : Fin 8) (n : Fin 16) (w : Word) (s : State) : Host.Outcome State Fault Refusal :=
  let w' := withoutBit w.toNat 0
  .next (s.write m (pgCpo n) 0x080 w' fun s => s.writeCpoCtrl n w')

/-! ### Layer commits (R188, R189) -/

/-- Has the capture instant of a raster frame passed, on the raster's own count (R215)? On a raster that does not run the
timebase tells. -/
def State.rasterLate (s : State) (p c u frame : Nat) : Bool :=
  let r := s.raster p c
  if r.running && !r.waiting then decide (frame ≤ r.frame ∨ (frame ≤ s.rasterNext p c ∧ (s.unit p u).frozen = true))
  else s.frameLate (s.get p c F.rstCtrlTb) frame

/-- A write of L_COMMIT at a cell: AT_FRAME, CANCEL, then COMMIT. -/
def State.writeLayerCommit (s : State) (n c w : Nat) : State :=
  let p := pgCpo n
  let u := c + 1
  let s0 := s.put p c F.cpoLCommitAtFrame (bits w 1 1)
  let s1 := if bit w 5 then s0.cancelCommit p u else s0
  if !bit w 0 then s1
  else if bit w 1 then
    let f := s1.frame48 p c F.cpoLCommitFrameLoFrameLo F.cpoLCommitFrameHiFrameHi
    s1.requestAtFrame p u (s1.get p 0 F.rstCtrlTb) f 0 (s1.rasterLate p 0 u f) .layerCommit c
  else if s1.running p then s1.requestCommit p u
  else s1.layerCommitAtOnce n c

/-- A write to the cell window of cell 7 is discarded (R198). -/
def State.layerWrite (s : State) (n : Nat) (k : Nat → State) : State :=
  let c := s.get (pgCpo n) 0 F.cpoCellIndexCell
  if c = 7 then s.setErr (pgCpo n) 22 else k c

/-- LAYER_COMMIT (R189): a write of L_COMMIT with COMMIT at the selected cell. -/
def execLayerCommit (m : Fin 8) (n : Fin 16) (atFrame : Bool) (s : State) : Host.Outcome State Fault Refusal :=
  let w := 1 + 2 * ofBool atFrame
  .next (s.write m (pgCpo n) 0x234 w fun s => s.layerWrite n fun c => s.writeLayerCommit n c w)

/-- LAYER_COMMIT_CANCEL (R38): a write of L_COMMIT with CANCEL, and a new request in one write. -/
def execLayerCommitCancel (m : Fin 8) (n : Fin 16) (commit atFrame : Bool) (s : State) :
    Host.Outcome State Fault Refusal :=
  let w := 32 + ofBool commit + 2 * ofBool atFrame
  .next (s.write m (pgCpo n) 0x234 w fun s => s.layerWrite n fun c => s.writeLayerCommit n c w)

/-- What an engine reset of a compositor takes (R209): leases, layers, its grant; every fence falls below its wait. -/
def State.cpoClear (s : State) (n : Nat) : State :=
  let p := pgCpo n
  (((s.leaseDrop n).dropPower p).rasterStop p 0).layersIdle n

/-- L_FENCE of every cell is L_WAIT less one, after the settings are restored. -/
def State.fenceReset (s : State) (n : Nat) : State :=
  let p := pgCpo n
  (List.range 7).foldl (fun s c => s.put p c F.cpoLFenceValue (s.get p c F.cpoLWaitFence + (2 ^ 32 - 1))) s

end Sys2Proof.Machine
end

