-- ==== Sys2Proof/Machine/RasterCmds.lean ====
section
/-! DEFINITION. The commands of the output rasters: commits, frames, lines (R210 to R230). -/

namespace Sys2Proof.Machine

/-- The page and cell of a raster. -/
def rasterAt : RasterId → Nat × Nat
  | .sditx n => (pgSditx n, 0)
  | .ipp p c => (pgIpp p, c)
  | .cpo n => (pgCpo n, 0)

/-- Does a raster act? One that runs, but for a quad-link member's: its lead's raster stands for it. -/
def State.rasterActs (s : State) (r : RasterId) : Bool :=
  (s.raster (rasterAt r).1 (rasterAt r).2).running &&
  match r with
  | .sditx n => decide (s.txPort n = n)
  | _ => true

/-- The transmitters whose commits go with a transmitter's raster: itself, then the other members of its group (R118). -/
def State.txCommitters (s : State) (n : Nat) : List Nat := n :: (s.txWith n).filter fun k => decide (k ≠ n)

/-! ### RST_COMMIT (R210, R215) -/

/-- A write of RST_COMMIT at a raster of an IP port: AT_FRAME, CANCEL, then COMMIT. -/
def State.writeRstCommit (s : State) (p c w : Nat) : State :=
  let u := c + 1
  let s0 := s.put p c F.rstCommitAtFrame (bits w 1 1)
  let s1 := if bit w 5 then s0.cancelCommit p u else s0
  if !bit w 0 then s1
  else if bit w 1 then
    let f := s1.frame48 p c F.rstCommitFrameLoFrameLo F.rstCommitFrameHiFrameHi
    s1.requestAtFrame p u (s1.get p c F.rstCtrlTb) f 1 (s1.rasterLate p c u f) .pageCommit c
  else if s1.running p then s1.requestCommit p u
  else s1.completeOr p u (if (s1.unstage p u).rasterRefused p c then some 24 else none)

/-- RASTER_COMMIT (R215): a write of RST_COMMIT with COMMIT at the selected raster. -/
def execRasterCommit (m p : Fin 8) (atFrame : Bool) (s : State) : Host.Outcome State Fault Refusal :=
  let w := 1 + 2 * ofBool atFrame
  .next (s.write m (pgIpp p) 0x118 w fun s => s.writeRstCommit (pgIpp p) (s.get (pgIpp p) 0 F.ippRstIndexRaster) w)

/-- RASTER_COMMIT_CANCEL (R38): a write of RST_COMMIT with CANCEL, and a new request in one write. -/
def execRasterCommitCancel (m p : Fin 8) (commit atFrame : Bool) (s : State) :
    Host.Outcome State Fault Refusal :=
  let w := 32 + ofBool commit + 2 * ofBool atFrame
  .next (s.write m (pgIpp p) 0x118 w fun s => s.writeRstCommit (pgIpp p) (s.get (pgIpp p) 0 F.ippRstIndexRaster) w)

/-! ### Capture (R214) -/

/-- The capture instant of a raster. -/
def State.captureRaster (s : State) (r : RasterId) : State :=
  let (p, c) := rasterAt r
  match r with
  | .cpo n => s.cpoCapture n
  | .ipp k _ => (s.rasterCapture p c).strmCapture k c
  | .sditx n => (s.txCommitters n).foldl (fun s k => s.capture (pgSditx k) 0 (s.rasterNext p 0)) s

/-- RASTER_CAPTURE (R214): the start of the last line of a frame. -/
def execRasterCapture (r : RasterId) (s : State) : Host.Outcome State Fault Refusal :=
  .next (if s.rasterActs r && !(s.raster (rasterAt r).1 (rasterAt r).2).waiting then s.captureRaster r else s)

/-! ### Commit points (R216, R222, R224) -/

/-- The clock of a FREE raster is bad: it holds, and the owning engine reports FREQ; on IPP and CPO no clock domain of R22 is
named for that output, so the domain number is a free value. -/
def State.clockHold (s : State) (r : RasterId) : State :=
  let (p, c) := rasterAt r
  if s.flag p c F.rstStatusClkBad then s
  else
    let s1 := (s.put p c F.rstStatusClkBad 1).rasterEvent p c F.rstEventClkBad
    match r with
    | .sditx n =>
      if s1.txClockOk n || decide (s1.get p 0 F.sditxCtrlLink = 0) then s1.fault fltClock respNone 0 p fltWhole (96 + n) else s1.txClock n
    | _ =>
      let (v, s2) := s1.draw
      s2.fault fltClock respNone 0 p fltWhole (v % 365)

/-- A waiting raster begins: with its engine, or with a new format, whose first frame is black (R224, R225). -/
def State.rasterBegin (s : State) (r : RasterId) : State :=
  let (p, c) := rasterAt r
  let gap := (s.raster p c).gap
  let s1 := s.beginFrame p c
  let s2 := if gap then (s1.formatStart p c).rasterFlip p c else s1
  match r with
  | .sditx n => (s2.txGap n).txClock n
  | _ => s2

/-- The commit point of an IP raster. -/
def State.commitIpRaster (s : State) (p c : Nat) : State :=
  let u := c + 1
  if (s.unit p u).captured then
    if s.rasterRefused p c then (s.refuseCommit p u 24).thaw p u
    else ((s.commitPoint p u).rasterSettings p c).rasterFlip p c
  else s.thaw p u

/-- The commit point of one transmitter of a raster: refused for its raster settings or its LINK. -/
def State.commitTx (lead : Nat) (s : State) (n : Nat) : State :=
  let p := pgSditx n
  if (s.unit p 0).captured then
    if n = lead ∧ s.rasterRefused p 0 = true then (s.refuseCommit p 0 24).thaw p 0
    else if s.txLinkRefused n then (s.refuseCommit p 0 16).thaw p 0
    else
      let r := s.raster p 0
      let old := linkRate (s.get p 0 F.sditxCtrlLink) r.rate
      let lit := decide (s.get p 0 F.sditxCtrlLink ≠ 0)
      let s1 := s.commitPoint p 0
      let s2 := if n = lead then (s1.rasterSettings p 0).rasterFlip p 0 else s1
      let new := linkRate (s2.get p 0 F.sditxCtrlLink) (s2.raster p 0).rate
      let gap := lit && decide (s2.get p 0 F.sditxCtrlLink ≠ 0) && decide (old.1 * new.2 ≠ new.1 * old.2)
      if gap then s2.putRaster p 0 { s2.raster p 0 with regap := true, black := true } else s2
  else s.thaw p 0

/-- The commit point of a transmitter's raster. -/
def State.commitTxRaster (s : State) (n : Nat) : State :=
  let s1 := (s.txCommitters n).foldl (State.commitTx n) s
  ((s1.txStatus n).txGap n).txClock n

/-- Line 1 of a raster frame: the frame begins, and what was captured applies or is refused. -/
def State.rasterPoint (s : State) (r : RasterId) : State :=
  let (p, c) := rasterAt r
  let x := s.raster p c
  if decide (x.mode = modeFree) && !s.freeClockOk p c then s.clockHold r
  else
    let s0 := s.put p c F.rstStatusClkBad 0
    if x.waiting then s0.rasterBegin r
    else
      let s1 := s0.beginFrame p c
      match r with
      | .cpo _ => s1
      | .ipp _ _ => s1.commitIpRaster p c
      | .sditx n => s1.commitTxRaster n

/-- RASTER_COMMIT_POINT (R216). A compositor's commits follow at CPO_COMMIT_POINT. -/
def execRasterCommitPoint (r : RasterId) (s : State) : Host.Outcome State Fault Refusal :=
  .next (if s.rasterActs r then s.rasterPoint r else s)

/-- FORMAT_START (R224): a raster that waits with a new format begins. -/
def execFormatStart (r : RasterId) (s : State) : Host.Outcome State Fault Refusal :=
  .next (if s.rasterActs r && (s.raster (rasterAt r).1 (rasterAt r).2).waiting then s.rasterBegin r else s)

/-! ### Lines (R94, R212, R226) -/

/-- The egress flows that a raster carries. -/
def State.rasterFlows (s : State) (p c : Nat) : List Nat :=
  s.flows.filter fun f => s.isEgress f && decide (s.rasterOfFlow f = some (p, c))

/-- An egress that reads a frame store has no data for a line (R226). -/
def State.flowUnderrun (p c : Nat) (s : State) (f : Nat) : State :=
  if f ∈ s.rasterFlows p c ∧ (s.run f).path = .frameStore then s.underrun p c f else s

/-- The line of an IP raster adds to its signature: the tracked slot's, or black (R227). -/
def State.ipLine (s : State) (p c line : Nat) : State :=
  let pg := pgIpp p
  let r := s.raster pg c
  match s.ipTrackSlot pg c, s.trackFlow pg c with
  | some n, some f =>
    if fmtActive r.struct line then
      let sa := s.get pgFlow f F.flowwinCtx1Sampling
      let de := s.get pgFlow f F.flowwinCtx1Depth
      let k := lineBytes r.struct sa de
      let b := s.sendSamples p (strmCell 1 n) f line 0 k
      s.putRaster pg c { r with sig := lineSignature r.sig de b }
    else s
  | _, _ => s

/-- A raster begins a line: what a take left waiting shows at a switch line, then the line's data. -/
def State.rasterLine (s : State) (r : RasterId) (x : LineInput) : State :=
  let (p, c) := rasterAt r
  let s0 := s.putRaster p c { s.raster p c with line := x.line }
  let s1 := if x.line ∈ switchLines (s0.raster p c).struct then ((s0.rasterFlows p c).foldl State.showXp s0).rasterTrack p c else s0
  match r with
  | .cpo n => s1.cpoLine n x.line x.missing
  | .ipp k _ => ((x.missing.foldl (State.flowUnderrun p c) s1).paceLine k c x.line).ipLine k c x.line
  | .sditx n =>
    let s2 := x.missing.foldl (State.flowUnderrun p c) s1
    s2.txLine n x.line (x.missing ++ (s2.raster p c).underran)

/-- A raster that waits for the first frame of a new format: a transmitter sends blanking lines of that format (R224). -/
def State.rasterBlank (s : State) (r : RasterId) (x : LineInput) : State :=
  match r with
  | .sditx n => if (s.raster (pgSditx n) 0).gap then s.txBlank n x.line else s
  | _ => s

/-- RASTER_LINE_START (R212). -/
def execRasterLineStart (r : RasterId) (x : LineInput) (s : State) : Host.Outcome State Fault Refusal :=
  .next (if !s.rasterActs r then s
    else if (s.raster (rasterAt r).1 (rasterAt r).2).waiting then s.rasterBlank r x
    else if pageType (rasterAt r).1 = 0x061 then (s.rasterLine r x).cnvFeed
    else s.rasterLine r x)

/-- RASTER_LAST_ACTIVE_LINE (R218, R220). -/
def execRasterLastActiveLine (r : RasterId) (s : State) : Host.Outcome State Fault Refusal :=
  .next (if s.rasterActs r && !(s.raster (rasterAt r).1 (rasterAt r).2).waiting then s.decideLength (rasterAt r).1 (rasterAt r).2 else s)

/-- The test of a content-ready raster at a bottom-blanking line (R221): the first at which every enabled REQUIRED layer is
ready, or the one at VB_MAX, is the last line of the frame and its start the capture instant. -/
def State.contentTest (s : State) (n : Nat) : State :=
  let p := pgCpo n
  let r := s.raster p 0
  let h := fmtHeight r.struct
  if r.mode = modeContent ∧ h + s.get p 0 F.rstVbVbMin ≤ r.line then
    let ends := match s.decided p 0x200 with
      | some [k] => decide (k = r.line)
      | _ => s.requiredReady n || decide (h + s.get p 0 F.rstVbVbMax ≤ r.line)
    if ends then
      ((s.share p 0x200 [r.line]).putRaster p 0
        { r with lines := r.line, lastLine := fmtSamples r.struct r.rate }).cpoCapture n
    else s
  else s

/-- CONTENT_READY_LINE_TEST (R221). -/
def execContentReadyLineTest (r : RasterId) (s : State) : Host.Outcome State Fault Refusal :=
  .next (match r with
    | .cpo n => if s.rasterActs r && !(s.raster (rasterAt r).1 (rasterAt r).2).waiting then s.contentTest n else s
    | _ => s)

/-- The end of a raster frame; a compositor whose EN is 0 stops here. -/
def State.frameEnd (s : State) (r : RasterId) : State :=
  let (p, c) := rasterAt r
  let s1 := s.rasterFrameEnd p c
  match r with
  | .cpo n =>
    let s2 := s1.cpoAlive n
    if s2.flag p 0 F.cpoCtrlEn then s2 else s2.cpoStopped n
  | _ => s1

/-- RASTER_FRAME_END (R227). -/
def execRasterFrameEnd (r : RasterId) (s : State) : Host.Outcome State Fault Refusal :=
  .next (if s.rasterActs r && !(s.raster (rasterAt r).1 (rasterAt r).2).waiting then s.frameEnd r else s)

end Sys2Proof.Machine
end

