-- ==== Sys2Proof/Machine/Fab.lean ====
section
/-! DEFINITION. The fabric ports: start, HELLO, segment records and forwarding, delay exchanges, beacons, fabric-scheduled
events, keys (R274 to R298). -/

namespace Sys2Proof.Machine

/-! ### Identity and start (R274, R275) -/

/-- A write of FID: dropped while any port runs. -/
def State.writeFid (s : State) (w : Nat) : State :=
  if (List.range 16).any fun p => s.flag (pgFab p) 0 F.fabCtrlEn then
    (if s.deviceId = bits w 0 14 ∧ s.deviceIdSet = bit w 31 then s else s.setErr (pgFab 0) errIdleWrite)
  else (s.put (pgFab 0) 0 F.fabFidId (bits w 0 14)).put (pgFab 0) 0 F.fabFidValid (ofBool (bit w 31))

/-- Write a port's STATE; a change sets PORT_CHANGE. -/
def State.putFabState (s : State) (p st : Nat) : State :=
  let s1 := s.put p 0 F.fabPortStatusState st
  if s.fabState p = st then s1 else s1.raise p 16

/-- A port starts: it asks for power for its four lanes, or stays OFF without a device ID. Lanes that resume after a warm
reset align at once (R327). -/
def State.fabStart (s : State) (p : Nat) : State :=
  if !s.deviceIdSet then s.setErr p 17
  else if [0, 1, 2, 3].all fun l => s.laneResumes p l then
    [0, 1, 2, 3].foldl (fun s l => s.laneRequest p l) ((s.putRunning p true).putFabState p fabTraining)
  else
    let s1 := [0, 1, 2, 3].foldl (fun s l => s.putLane p l laneWaitPower) (s.putRunning p true)
    ((s1.putFabState p fabWaitPower).postPower p .fabric).1

/-- The training request of a port is granted: its lanes adapt. -/
def State.fabGranted (s : State) (p : Nat) : State :=
  if s.fabState p = fabWaitPower then
    [0, 1, 2, 3].foldl (fun s l => s.laneGranted p l) (s.putFabState p fabTraining)
  else s

/-- What a port keeps of a session goes: queues, streams, lanes, windows, delays. -/
def State.fabClear (s : State) (p : Nat) : State :=
  { s with
    gyls := s.gyls.filter fun e => decide (e.1.page ≠ p)
    fabStreams := s.fabStreams.filter fun e => decide (e.1.page ≠ p)
    fabWindows := s.fabWindows.filter fun e => decide (e.1.page ≠ p)
    fabRoutes := s.fabRoutes.filter fun e => decide (e.1.page ≠ p)
    fabDelays := s.fabDelays.filter fun e => decide (e.1.page ≠ p)
    fabParts := s.fabParts.filter fun e => decide (e.1.page ≠ p)
    fabHello := Tab.del p s.fabHello }

/-- A port stops: its lanes are off, its requests and grants go, its flows stop. -/
def State.fabStop (s : State) (p : Nat) : State :=
  let s1 := [0, 1, 2, 3].foldl (fun s l => (s.eyeDown p l).putLane p l laneOff) s
  let s2 := ((s1.dropPower p).fabClear p).putFabState p fabOff
  let s3 := (((s2.put p 0 F.fabPortStatusLanesUp 0).put p 0 F.fabPortStatusNbrValid 0).put p 0
    F.fabPortStatusIdClash 0).showDelay p
  ((s3.stopPortFlows kindFabric (p - pgFab 0)).putRunning p false).stopCommit p 0

/-- A write of CTRL: its fields, then EN. -/
def State.writeFabCtrl (s : State) (p w : Nat) : State :=
  let run := s.running p
  let s1 := s.writeBut p 0 run w 0x0C0 [F.fabCtrlEn]
  let was := s.flag p 0 F.fabCtrlEn
  let en := decide (F.fabCtrlEn.extract w = 1)
  let s2 := s1.put p 0 F.fabCtrlEn (ofBool en)
  if en && !run then (if s2.acts p then s2.fabStart p else s2)
  else if was && !en then (if run then s2.fabStop p else s2)
  else s2

/-- FAB_PORT_START (R275): a write of CTRL with EN = 1. -/
def execFabPortStart (m : Fin 8) (p : Fin 16) (w : Word) (s : State) : Host.Outcome State Fault Refusal :=
  let w' := withBit w.toNat 0
  .next (s.write m (pgFab p) 0x0C0 w' fun s => s.writeFabCtrl (pgFab p) w')

/-! ### HELLO (R275) -/

/-- Is a port on the wire: a lane is UP, and its state is UP or KEY_LOST? -/
def State.fabLive (s : State) (p : Nat) : Bool :=
  decide (s.fabState p = fabUp ∨ s.fabState p = fabKeyLost) && (s.lowestUp p).isSome

/-- Queue a CONTROL block on the lowest UP lane of a port (R280). -/
def State.queueControl (s : State) (p : Nat) (kind : Nat) (b : Bytes) : State :=
  match s.lowestUp p with
  | some l => s.queueBlock p l ⟨kind, false, false, padPayload b⟩
  | none => s

/-- HELLO_SEND (R275, R286). -/
def execHelloSend (p : Fin 16) (s : State) : Host.Outcome State Fault Refusal :=
  .next (if s.fabLive (pgFab p) then
    s.queueControl (pgFab p) blkControl ([0x10, 0, 0, 0] ++ leBytes 2 s.deviceId ++ leBytes 1 p)
  else s)

/-- HELLO (R275): the partner's HELLO. -/
def execHello (p : Fin 16) (dev : BitVec 14) (port : Fin 16) (s : State) : Host.Outcome State Fault Refusal :=
  let q := pgFab p
  let s1 := ((s.put q 0 F.fabNeighbourDev dev.toNat).put q 0 F.fabNeighbourPort port).put q 0 F.fabPortStatusNbrValid 1
  let s2 := { s1 with fabHello := Tab.put q s.now s1.fabHello }
  .next (if s.fabLive q then
    (if dev.toNat = s.deviceId then (s2.put q 0 F.fabPortStatusIdClash 1).raise q 16 else s2)
  else s)

/-- NEIGHBOUR_TIMEOUT (R275): 3 ms without a HELLO. -/
def execNeighbourTimeout (p : Fin 16) (s : State) : Host.Outcome State Fault Refusal :=
  let q := pgFab p
  .next (if s.flag q 0 F.fabPortStatusNbrValid && decide (Tab.at 0 s.fabHello q + 3000000 ≤ s.now) then
    s.put q 0 F.fabPortStatusNbrValid 0
  else s)

/-! ### Segment records (R276 to R282) -/

/-- Entry i of PORTS or RET. -/
def portAt (ports i : Nat) : Nat := bits ports (4 * i) 4

/-- The bytes of a record (R278, R279): two header words, the routing header, the data padded to 8 bytes. -/
def recordBytes (r : SegRecord) (next : Nat) : Bytes :=
  let w0 := r.srcDev.toNat * 2 ^ 50 + r.srcFlow * 2 ^ 38 + r.line % 2 ^ 13 * 2 ^ 25 + r.seg % 2 ^ 8 * 2 ^ 17 +
    (r.data.length - 1) % 2 ^ 8 * 2 ^ 8 + r.ty % 4 * 2 ^ 6 + ofBool r.last * 2 ^ 5 + ofBool r.route.isSome * 2 ^ 4 + next * 2
  let w1 := r.lineSeal.toNat * 2 ^ 32 + r.hops * 2 ^ 28 + r.ports.toNat
  let head := match r.route with
    | some (d, k, f) => leBytes 8 (d.toNat * 2 ^ 50 + k * 2 ^ 48 + f.toNat)
    | none => []
  leBytes 8 w0 ++ leBytes 8 w1 ++ head ++ r.data ++ List.replicate ((8 - r.data.length % 8) % 8) 0

/-- The block type that carries a record. -/
def recordKind (ty : Nat) : Nat := if ty = typeVideo then blkVideo else blkData

/-- Bytes that wait on a lane. -/
def State.laneQueued (s : State) (p l : Nat) : Nat :=
  streamBytes (s.fabStream p l blkVideo) + streamBytes (s.fabStream p l blkData)

/-- The UP lane with the fewest bytes queued, the lowest where several tie (R280). -/
def State.leastLane (s : State) (p : Nat) : Option Nat :=
  (s.upLanes p).foldl (fun m l => match m with
    | none => some l
    | some x => if s.laneQueued p l < s.laneQueued p x then some l else some x) none

/-- Place a record whole on a lane of a port. -/
def State.placeRecord (s : State) (p : Nat) (r : SegRecord) (next : Nat) (transit : Bool) : State :=
  match s.leastLane p with
  | some l =>
    let k := recordKind r.ty
    s.putStream p l k (s.fabStream p l k ++ [⟨recordBytes r next, true, r.route.isSome, transit⟩])
  | none => s

/-- Bytes of transit records of a kind that a port holds (R283). -/
def State.transitHeld (s : State) (p k : Nat) : Nat :=
  [0, 1, 2, 3].foldl (fun n l => n + streamBytes ((s.fabStream p l k).filter fun x => x.transit)) 0

/-- Bytes of transit records of a kind that a port can hold. -/
def transitLimit (k : Nat) : Nat := if k = blkVideo then 32768 else 16384

/-- A record in transit leaves by a port, or finds its queue full. -/
def State.forwardRecord (s : State) (q : Nat) (r : SegRecord) (next : Nat) : State :=
  let k := recordKind r.ty
  if transitLimit k < s.transitHeld q k + (recordBytes r next).length then s.bumpSat q 0 F.fabCnt1Overflow
  else s.placeRecord q r next true

/-- Does a receive slot's setting name a record's stream? -/
def State.slotAccepts (s : State) (p n : Nat) (r : SegRecord) : Bool :=
  let c := fabCell 0 n
  s.flag p c F.fabSlotSrcEn && decide (s.get p c F.fabSlotSrcSrcDev = r.srcDev.toNat ∧ s.get p c F.fabSlotSrcSrcFlow = r.srcFlow)

/-- Where a stream's lines are judged: the last two lines, each with its slot plus 1, 0 where none took it. -/
def streamKey (p : Nat) (r : SegRecord) : Key := ⟨p, r.srcDev.toNat * 4096 + r.srcFlow, 1⟩

/-- What was found of a record's line: nothing for its first segment, which judges the line afresh. -/
def State.lineSlot (s : State) (p : Nat) (r : SegRecord) : Option Nat :=
  if r.seg = 0 then none
  else match Assoc.find Key.code (streamKey p r) s.fabRoutes with
    | some [a, x, b, y] => if a = r.line then some x else if b = r.line then some y else none
    | _ => none

/-- The receive slot that takes a record: the lowest whose setting names its stream, as it stood when the first record of the line
came; a later setting acts from the stream's next line (R276, R281). -/
def State.receiveSlot (s : State) (p : Nat) (r : SegRecord) : Option Nat × State :=
  match s.lineSlot p r with
  | some x => (if x = 0 then none else some (x - 1), s)
  | none =>
    let slot := (List.range 256).find? fun n => s.slotAccepts p n r
    let x := match slot with | some n => n + 1 | none => 0
    let old := match Assoc.find Key.code (streamKey p r) s.fabRoutes with
      | some [a, x, b, y] => if a = r.line then [b, y] else [a, x]
      | _ => [0, 0]
    (slot, { s with fabRoutes := Assoc.set Key.code (streamKey p r) ([r.line, x] ++ old) s.fabRoutes })

/-- A segment's fragments enter the Vat with the state of its line seal. -/
def State.writeSegment (s : State) (f line seg : Nat) (b : Bytes) (sl : Nat) : State :=
  (List.range ((b.length + 7) / 8)).foldl (fun s k => s.writeFrag f line seg k ((b.drop (8 * k)).take 8) sl) s

/-- The bytes of a segment that is resident. -/
def State.segmentBytes (s : State) (f line seg : Nat) : Bytes :=
  (List.range 32).flatMap fun k => match s.readFrag f line seg k with
    | some x => x.bytes
    | none => []

/-- The bytes of a segment that is kept, however long ago it came. -/
def State.keptBytes (s : State) (f line seg : Nat) : Bytes := (s.segment f line seg).flatMap fun e => e.2.bytes

/-- The bytes of a line of so many segments; a video segment that did not come is the one of the line before (R282). -/
def State.lineOf (s : State) (f line n : Nat) : Bytes :=
  (List.range n).flatMap fun k =>
    let b := s.keptBytes f line k
    if b.isEmpty && decide (s.flowType f = typeVideo) then s.keptBytes f (line - 1) k else b

/-- Segments of a line of a flow's format. -/
def State.segmentsOf (s : State) (f : Nat) : Nat :=
  (lineBytes (s.get pgFlow f F.flowwinCtx1Struct) (s.get pgFlow f F.flowwinCtx1Sampling)
    (s.get pgFlow f F.flowwinCtx1Depth) + 255) / 256

/-- The line of a fabric ingress flow that is in progress ends. -/
def State.fabEndLine (s : State) (f : Nat) : State :=
  let r := s.run f
  if r.partLine.isEmpty then s
  else (s.putRun f { r with partLine := s.lineOf f r.line (s.segmentsOf f) }).closeLine f true

/-- Does a record belong to the line before the one in progress, having come by another lane (R280)? -/
def State.recordLate (s : State) (f : Nat) (r : SegRecord) : Bool :=
  let now := (s.run f).line
  decide (r.seg ≠ 0 ∧ (r.line + 1 = now ∨ now = 1 ∧ r.line = fmtLines (s.get pgFlow f F.flowwinCtx1Struct)))

/-- A record reaches its flow: its segment is placed by its tag; the line ends with its last missing segment, or when the
next line begins. -/
def State.deliverRecord (s : State) (f : Nat) (r : SegRecord) : State :=
  if s.recordLate f r then s.writeSegment f r.line r.seg r.data r.lineSeal.toNat else
  let s1 := if (s.run f).line = r.line then s else s.fabEndLine f
  let s2 := s1.writeSegment f r.line r.seg r.data r.lineSeal.toNat
  let x := s2.run f
  let s3 := s2.putRun f { x with
    producing := true, lastSegNs := s.now, line := r.line, partLine := r.data, errored := false, lost := false
    sealState := r.lineSeal.toNat
    sig := if r.line < x.line then 0 else x.sig
    lineNs := if r.seg = 0 then s.now else x.lineNs
    frame := match r.route with | some (_, _, n) => n.toNat | none => x.frame }
  if (List.range (s3.segmentsOf f)).all fun k => !(s3.segment f r.line k).isEmpty then s3.fabEndLine f else s3

/-- A record at the end of its route. -/
def State.acceptRecord (s : State) (p : Nat) (r : SegRecord) : State :=
  match s.receiveSlot p r with
  | (none, s1) => s1.bump p 0 F.fabCnt0Unmatched
  | (some n, s1) =>
    match s1.flowOn kindFabric (p - pgFab 0) n false with
    | some f => if s1.flowType f = r.ty then s1.deliverRecord f r else s1.bump p 0 F.fabCnt0Unmatched
    | none => s1.bump p 0 F.fabCnt0Unmatched

/-- Does a port take a record or an event, by its encryption rules (R296, R297)? -/
def State.fabTakes (s : State) (p : Nat) (enc : Bool) : Bool × State :=
  if !s.fabLive p then (false, s)
  else if enc then (decide (s.fabState p ≠ fabKeyLost), s)
  else if s.flag p 0 F.fabCtrlEncReq then (false, s.authFail p)
  else (true, s)

/-- May a port send what is in transit or its own (R281)? -/
def State.fabOpen (s : State) (p : Nat) : Bool := decide (s.fabState p = fabUp)

/-- SEGMENT_RECORD_RECEIVE (R281). -/
def State.recordReceive (s : State) (p : Nat) (r : SegRecord) : State :=
  let (ok, s1) := s.fabTakes p r.enc
  let next : Nat := r.next
  let hops : Nat := r.hops
  if !ok || r.errored || decide (r.line = 0) then (if r.errored then s1.touch (touchPage p) else s1)
  else if hops = 0 ∨ hops < next then s1.bump p 0 F.fabCnt0RouteDrop
  else if next < hops then
    let q := pgFab (portAt r.ports.toNat next)
    if s1.fabOpen q then s1.forwardRecord q r (next + 1) else s1.bump p 0 F.fabCnt0RouteDrop
  else
    let away := match r.route with
      | some (d, _, _) => decide (d.toNat ≠ s1.deviceId)
      | none => false
    if away then s1.bumpSat p 0 F.fabCnt1Misroute else s1.acceptRecord p r

/-! ### Sending segments (R276, R279, R280) -/

/-- Do a route's hops, first port and destination keep the rules of R276? -/
def State.routeOk (s : State) (first : Option Nat) (ports hops dst : Nat) : Bool :=
  decide (1 ≤ hops ∧ dst ≠ s.deviceId) && (match first with | some p => decide (portAt ports 0 = p) | none => true)

/-- The route of a send slot for a segment: PORTS, HOPS and DST_DEV as they stood at the line's first segment. -/
def State.sendRoute (s : State) (p n seg : Nat) : Nat × Nat × Nat × State :=
  let c := fabCell 1 n
  let live := [s.get p c F.fabSlotRtLoPorts, s.get p c F.fabSlotRtHiHops, s.get p c F.fabSlotRtHiDstDev]
  let use := if seg = 0 then live else (Assoc.find Key.code ⟨p, c, 0⟩ s.fabRoutes).getD live
  (use.getD 0 0, use.getD 1 0, use.getD 2 0, { s with fabRoutes := Assoc.set Key.code ⟨p, c, 0⟩ use s.fabRoutes })

/-- The frame of the line in progress on a flow's egress raster. -/
def State.egressFrameNumber (s : State) (f : Nat) : Nat :=
  let t := s.tb (s.get pgFlow f F.flowwinCtx0Tb)
  if s.egressStart f ≤ s.now then t.frame else (t.frame + frameModulus - 1) % frameModulus

/-- An egress flow of a fabric port sends a segment as a record: nothing under a route that breaks the rules, nothing on the
wire while the slot is muted (R299). The egress flow's `sig` holds the state of its line seal. -/
def State.sendSegment (s : State) (f line seg : Nat) (b : Bytes) (last : Bool) : State :=
  let (kind, port, n) := s.flowPort f
  if kind ≠ kindFabric ∨ b.isEmpty = true then s
  else
    let p := pgFab port
    let (ports, hops, dst, s1) := s.sendRoute p (n % 256) seg
    let x := s1.run f
    let sig := Config.lineSeal (if seg = 0 then 0 else x.sig) b
    let s2 := (s1.putRun f { x with sig := sig }).sealMore f line (s1.egressFrameNumber f) 0 (b.take 256) last
    if !s2.routeOk (some port) ports hops dst then s2.setErr p 16
    else if !s2.fabOpen p || !s2.slotSends (s2.egressFrameStart f) then s2
    else
      s2.placeRecord p
        { srcDev := BitVec.ofNat 14 s2.deviceId, srcFlow := Fin.ofNat 4096 f, line := line, seg := seg, ty := s2.flowType f
          last := last, next := 1, hops := Fin.ofNat 8 hops, ports := BitVec.ofNat 28 ports, lineSeal := BitVec.ofNat 32 sig
          route := if seg = 0 then
              some (BitVec.ofNat 14 dst, Fin.ofNat 4 (s2.get pgFlow f F.flowwinCtx0Tb),
                BitVec.ofNat 48 (s2.egressFrameNumber f))
            else none
          data := b.take 256, errored := false, enc := false } 1 false

/-- The bytes of a segment that an egress flow carries: of a video flow the line that its path gives, none where that is the fill, of which
a fabric port has no records (R91, R92, R93); else its source's segment. -/
def State.egressSegment (s : State) (f line seg : Nat) : Bytes :=
  if s.flowType f ≠ typeVideo then s.segmentBytes (s.readFlow f) line seg
  else
    let r := s.run f
    match r.path with
    | .none => []
    | .bypass => if r.lost || r.mismatch then [] else s.segmentBytes (s.readFlow f) line seg
    | .frameStore =>
      let sa := s.get pgFlow f F.flowwinCtx1Sampling
      let de := s.get pgFlow f F.flowwinCtx1Depth
      let b := match s.egressLine f line with
        | (.data, b) => b
        | (.black, _) => blackBytes sa de (lineBytes (s.get pgFlow f F.flowwinCtx1Struct) sa de)
        | _ => []
      (b.drop (256 * seg)).take 256

/-- EGRESS_SEGMENT_READ (R100): a reader reads a fragment; with a segment's last fragment an egress of a fabric port sends the
segment. -/
def execEgressSegmentRead (flow : Fin 4096) (line seg frag : Nat) (last : Bool) (bank : Fin 66) (ecc : Ecc) (s : State) :
    Host.Outcome State Fault Refusal :=
  let s1 := s.segmentRead flow line seg frag bank ecc
  .next (if s1.isEgress flow && s1.flowEn flow && (last || decide (frag = 31)) then
    s1.sendSegment flow line seg (s1.egressSegment flow line seg) last
  else s1)

/-! ### Delay exchanges (R287) -/

/-- DELAY_REQ_SEND (R287): an UP lane begins an exchange. -/
def execDelayReqSend (p : Fin 16) (lane : Fin 4) (s : State) : Host.Outcome State Fault Refusal :=
  let q := pgFab p
  let d := s.delayRun q lane
  .next (if s.fabLive q && decide (s.laneState q lane = laneUp) then
    (s.putDelay q lane { d with num := (d.num + 1) % 2 ^ 16, sent := some (d.num, s.now * 1000) }).queueBlock q lane
      ⟨blkControl, false, false, padPayload ([0x11, 0] ++ leBytes 2 d.num)⟩
  else s)

/-- DELAY_REQ (R287): answered with its stamp, t3 coming in as the answer leaves; a replay is discarded. -/
def execDelayReq (p : Fin 16) (lane : Fin 4) (x : DelayReqMsg) (s : State) : Host.Outcome State Fault Refusal :=
  let q := pgFab p
  .next (if s.fabLive q && decide (s.laneState q lane = laneUp) && !x.replay then
    s.queueBlock q lane ⟨blkControl, false, false, padPayload ([0x12, 0] ++ leBytes 2 x.num.toNat ++ leBytes 4 0 ++
      leBytes 8 x.t2.toNat)⟩
  else s)

/-- DELAY_RESP (R287): the exchange under way completes; a replay is discarded. -/
def execDelayResp (p : Fin 16) (lane : Fin 4) (x : DelayRespMsg) (s : State) : Host.Outcome State Fault Refusal :=
  let q := pgFab p
  let d := s.delayRun q lane
  .next (match d.sent with
    | some (num, t1) =>
      if s.fabLive q && !x.replay && decide (num = x.num.toNat) then
        (s.putDelay q lane { d with
          sent := none, done := d.done + 1
          results := ((((x.t4 : Int) - t1) - ((x.t3 : Int) - x.t2)) :: d.results).take 16 }).showDelay q
      else s
    | none => s)

/-! ### Beacons (R288, R289) -/

/-- DEPTH that a timebase's beacons carry. -/
def State.beaconDepth (s : State) (k : Nat) : Nat :=
  if s.tbSource k = srcBeacon then min 15 ((s.tb k).beaconDepth + 1) else 0

/-- The payload of a beacon of TB[k] for the line in progress; PHASE_PS comes in as it leaves. -/
def State.beaconPayload (s : State) (k : Nat) : Bytes :=
  let t := s.tb k
  leBytes 1 1 ++ leBytes 1 (k + t.state.code * 16) ++ leBytes 1 (t.struct * 16 + t.rate) ++ leBytes 1 (s.beaconDepth k) ++
    leBytes 2 s.deviceId ++ leBytes 2 (t.line s.now) ++ leBytes 6 t.frame ++ leBytes 2 0

/-- BEACON_SEND (R288): a line of TB[k] began, and the port sends its beacons. -/
def execBeaconSend (p : Fin 16) (k : Fin 4) (s : State) : Host.Outcome State Fault Refusal :=
  let q := pgFab p
  .next (if s.fabLive q && bit (s.get q 0 F.fabCtrlBeaconOut) k && decide ((s.tb k).state ≠ .off) then
    s.queueControl q blkBeacon (s.beaconPayload k)
  else s)

/-- One timebase takes a beacon that arrived on a port, where it follows it; one that it may not use only counts against loss, and one of the
device's own does not even that. One of another format is a difference of rate, frame by frame (R57, R68, R289). -/
def State.beaconAt (p : Nat) (b : BeaconMsg) (s0 : State) (k : Nat) : State :=
  let s := if decide (s0.tbSource k = srcBeacon ∧ s0.get (pgTb k) 0 F.tbRefCfgBeaconPort = p ∧
      s0.get (pgTb k) 0 F.tbRefCfgBeaconTb = b.tb) && !decide (b.srcDev.toNat = s0.deviceId) then
    s0.putTb k { s0.tb k with beaconDepth := b.depth } else s0
  let t := s.tb k
  let follows := decide (s.tbSource k = srcBeacon ∧ s.get (pgTb k) 0 F.tbRefCfgBeaconPort = p ∧
    s.get (pgTb k) 0 F.tbRefCfgBeaconTb = b.tb)
  let used := decide (b.struct = t.struct ∧ b.rate = t.rate ∧
    4 ≤ (s.delayRun (pgFab p) b.lane).done)
  if !follows || decide (b.srcDev.toNat = s.deviceId) then s
  else if used then
    let up : Int := (b.rxPs : Int) - s.delayIn (pgFab p) b.lane - b.phasePs.toNat
    let frames : Int := wrapPhase frameModulus ((b.frame.toNat : Int) - t.frame)
    let local_ : Int := (t.linePs s.now b.line : Int) + frames * t.framePs
    s.syncPs k (local_ - up) (t.periodOk s.now 1 t.judged) (some b.frame.toNat)
  else if (b.struct ≠ t.struct ∨ b.rate ≠ t.rate) ∧ b.line = 1 then (s.syncHeard k).rateFrame k
  else s.syncHeard k

/-- BEACON (R289): the last beacon received shows in BEACON_STAT, and the timebases that follow it take it. -/
def execBeacon (p : Fin 16) (b : BeaconMsg) (s : State) : Host.Outcome State Fault Refusal :=
  let q := pgFab p
  let s1 := (((s.put q 0 F.fabBeaconStatDepth b.depth).put q 0 F.fabBeaconStatTb b.tb).put q 0 F.fabBeaconStatState
    b.state).put q 0 F.fabBeaconStatSrcDev b.srcDev.toNat
  .next (if s.fabLive q then [0, 1, 2, 3].foldl (State.beaconAt p b) s1 else s)

/-! ### Fabric-scheduled events (R291, R292) -/

/-- FEVT_RESULT codes. -/
abbrev fevtSent : Nat := 0
abbrev fevtNoId : Nat := 1
abbrev fevtBadRoute : Nat := 2
abbrev fevtPortDown : Nat := 3
abbrev fevtQfull : Nat := 4
abbrev fevtBadKind : Nat := 5
/-- CODE of an event that was not acknowledged. -/
abbrev fevtNoAck : Nat := 9

/-- KINDs that may travel on the fabric. -/
def fevtKind (w0 : Nat) : Bool := decide (bits w0 28 4 ∈ [1, 4, 5, 6, 7])

/-- The payload of an FEVT block. -/
def fevtPayload (tag origin next hops ports dst ret : Nat) (w : List Nat) : Bytes :=
  [0x20, 0] ++ leBytes 2 tag ++ leBytes 2 origin ++ leBytes 2 0 ++
    leBytes 8 (next * 2 ^ 61 + dst * 2 ^ 46 + hops * 2 ^ 28 + ports) ++ leBytes 4 ret ++ leBytes 4 0 ++
    w.flatMap fun x => leBytes 4 x

/-- FEVT_SUBMIT.GO of a master: the first refusal, or the event goes. -/
def State.fevtSubmit (s : State) (m : Nat) : State :=
  let p := pgFab 0
  let ports := s.get p m F.fabFevtRtLoPorts
  let dst := s.get p m F.fabFevtRtHiDstDev
  let hops := s.get p m F.fabFevtRtHiHops
  let tag := s.get p m F.fabFevtTagTag
  let w := [F.fabFevtW0Word, F.fabFevtW1Word, F.fabFevtW2Word, F.fabFevtW3Word].map fun f => s.get p m f
  let q := pgFab (portAt ports 0)
  let code := if !s.deviceIdSet then fevtNoId
    else if !s.routeOk none ports hops dst then fevtBadRoute
    else if !s.fabOpen q then fevtPortDown
    else if 64 ≤ s.fevtWait.length then fevtQfull
    else if !fevtKind (w.headD 0) then fevtBadKind
    else fevtSent
  let s1 := s.put p m F.fabFevtResultCode code
  if code = fevtSent then
    ({ s1 with fevtWait := s1.fevtWait ++ [(tag, s.now)] }).queueControl q blkControl
      (fevtPayload tag s.deviceId 1 hops ports dst 0 w)
  else s1

/-- FEVT_SUBMIT (R291). -/
def execFevtSubmit (m : Fin 8) (s : State) : Host.Outcome State Fault Refusal :=
  .next (s.write m (pgFab 0) 0x0A0 1 fun s => s.fevtSubmit m)

/-- Enter a fabric event under R76 and R77: the result code and the handle. -/
def State.fevtEnter (s : State) (w0 w1 w2 w3 : Nat) : State × Nat × Nat :=
  match evKindOf (bits w0 28 4) with
  | some k => s.submit (eventOf w0 w1 w2 w3 k .fabric)
  | none => (s, evBadKind, 0)

/-- The route back: PORTS[j] = RET[HOPS - j] (R292). -/
def reversedRoute (ret hops : Nat) : Nat :=
  (List.range hops).foldl (fun n j => n + portAt ret (hops - j) * 2 ^ (4 * j)) 0

/-- The payload of an FEVT_ACK block: the tag, the code, the handle, the route back. -/
def ackPayload (tag code handle next ports hops : Nat) : Bytes :=
  [0x21, 0] ++ leBytes 2 tag ++ leBytes 2 0 ++ leBytes 1 code ++ leBytes 1 0 ++ leBytes 2 handle ++ Config.ackRoute (next * 2 ^ 28 + ports) hops

/-- An FEVT block arrives on a port. -/
def State.fevtReceive (s : State) (p : Nat) (x : FevtMsg) : State :=
  let (ok, s1) := s.fabTakes (pgFab p) x.enc
  let next : Nat := x.next
  let hops : Nat := x.hops
  let ret := x.ret.toNat + p * 2 ^ (4 * next) - portAt x.ret.toNat next * 2 ^ (4 * next)
  if !ok then s1
  else if hops = 0 ∨ hops < next then s1.bump (pgFab p) 0 F.fabCnt0RouteDrop
  else if next < hops then
    let q := pgFab (portAt x.ports.toNat next)
    if s1.fabOpen q then
      s1.queueControl q blkControl (fevtPayload x.tag.toNat x.origin.toNat (next + 1) hops x.ports.toNat x.dst.toNat ret
        [x.w0.toNat, x.w1.toNat, x.w2.toNat, x.w3.toNat])
    else s1.bump (pgFab p) 0 F.fabCnt0RouteDrop
  else if x.dst.toNat ≠ s1.deviceId ∨ s1.role = roleShadow then s1.bumpSat (pgFab p) 0 F.fabCnt1Misroute
  else if !s1.schedOpen then s1
  else
    let (s2, code, handle) := s1.fevtEnter x.w0.toNat x.w1.toNat x.w2.toNat x.w3.toNat
    s2.queueControl (pgFab p) blkControl (ackPayload x.tag.toNat code handle 1 (reversedRoute ret hops) hops)

/-- FEVT (R292). -/
def execFevt (p : Fin 16) (x : FevtMsg) (s : State) : Host.Outcome State Fault Refusal := .next (s.fevtReceive p x)

/-- Entries that the acknowledgement log holds. -/
abbrev ackLogSize : Nat := 64

/-- Push an entry into the acknowledgement log. -/
def State.pushAck (s : State) (e : AckEntry) : State :=
  if s.fevtLog.length < ackLogSize then { s with fevtLog := s.fevtLog ++ [e] } else { s with fevtOvf := true }

/-- The first waiting event of a tag leaves the list. -/
def dropTag (tag : Nat) : List (Nat × Nat) → List (Nat × Nat)
  | [] => []
  | e :: t => if e.1 = tag then t else e :: dropTag tag t

/-- An acknowledgement arrives on a port: forwarded, or logged where its event still waits. -/
def State.ackReceive (s : State) (p : Nat) (x : FevtAckMsg) : State :=
  let (ok, s1) := s.fabTakes (pgFab p) x.enc
  let next : Nat := x.next
  let hops : Nat := x.hops
  if !ok then s1
  else if hops = 0 ∨ hops < next then s1.bump (pgFab p) 0 F.fabCnt0RouteDrop
  else if next < hops then
    let q := pgFab (portAt x.ports.toNat next)
    if s1.fabOpen q then
      s1.queueControl q blkControl (ackPayload x.tag.toNat x.code x.handle.toNat (next + 1) x.ports.toNat hops)
    else s1.bump (pgFab p) 0 F.fabCnt0RouteDrop
  else if s1.fevtWait.any fun e => decide (e.1 = x.tag.toNat) then
    ({ s1 with fevtWait := dropTag x.tag.toNat s1.fevtWait }).pushAck ⟨x.tag.toNat, x.code, x.handle.toNat⟩
  else s1

/-- FEVT_ACK (R292). -/
def execFevtAck (p : Fin 16) (x : FevtAckMsg) (s : State) : Host.Outcome State Fault Refusal := .next (s.ackReceive p x)

/-- FEVT_ACK_TIMEOUT (R292): 200 µs without an acknowledgement. -/
def execFevtAckTimeout (tag : BitVec 16) (s : State) : Host.Outcome State Fault Refusal :=
  .next (if s.fevtWait.any fun e => decide (e.1 = tag.toNat ∧ e.2 + 200000 ≤ s.now) then
    ({ s with fevtWait := dropTag tag.toNat s.fevtWait }).pushAck ⟨tag.toNat, fevtNoAck, 0⟩
  else s)

/-- A read of FEVT_ACK: the oldest entry, removed, with its handle latched (R292). -/
def State.ackRead (s : State) : Nat × State :=
  let p := pgFab 0
  match s.fevtLog with
  | e :: t =>
    (2 ^ 31 + ofBool s.fevtOvf * 2 ^ 30 + e.code % 16 * 2 ^ 26 + e.tag % 2 ^ 16,
      (({ s with fevtLog := t, fevtOvf := false }).put p 0 F.fabFevtAckHHandle e.handle).raise p 19)
  | [] => (ofBool s.fevtOvf * 2 ^ 30, { s with fevtOvf := false })

/-- FEVT_ACK_READ (R292). -/
def execFevtAckRead (m : Fin 8) (s : State) : Host.Outcome State Fault Refusal :=
  .next (s.readAs m fun s => s.ackRead)

/-! ### Keys (R294, R297) -/

/-- A slot field of a key register is written: refused for a slot that is not loaded with the right attribute, and for the
set that the port sends under, unless it keeps its value; a transmit slot restarts the set's block counters (R294). -/
def State.writeFabSlot (s : State) (p : Nat) (rx : Bool) (set slot : Nat) (valid : Bool) : State :=
  let (f, v) := fabKeyFields rx set
  let same := decide (s.get p 0 f = slot) && (s.flag p 0 v == valid)
  let k := s.keySlot slot
  let bad := valid && !decide (k.state = slotValid ∧ k.attr = fabAttr rx)
  let inUse := !rx && decide (s.get p 0 F.fabCtrlTxSet = set ∧ s.fabState p = fabUp) && s.flag p 0 v && s.fabEncrypts p
  if same && inUse then s
  else if bad || inUse then s.setErr p errBadValue
  else
    let s1 := (s.put p 0 f slot).put p 0 v (ofBool valid)
    { s1 with
      fabGens := Assoc.set Key.code ⟨p, ofBool rx, set⟩ k.gen s1.fabGens
      fabBc := if rx then s1.fabBc else s1.fabBc.filter fun e => !decide (e.1.page = p ∧ e.1.slot = set)
      fabWindows := if rx then s1.fabWindows.filter fun e => !decide (e.1.page = p ∧ e.1.slot = set) else s1.fabWindows }

/-- Does a valid field of a port name no usable slot? -/
def State.fabKeysBroken (s : State) (p : Nat) : Bool :=
  [(false, 0), (false, 1), (true, 0), (true, 1)].any fun x => s.fabValid p x.1 x.2 && (s.fabKey p x.1 x.2).isNone

/-- A port leaves KEY_LOST once every valid field names a loaded slot of the right attribute again (R297). -/
def State.fabKeyBack (s : State) (p : Nat) : State :=
  if s.fabState p = fabKeyLost ∧ s.fabKeysBroken p = false then
    (s.putFabState p (if (s.lowestUp p).isSome then fabUp else fabDown))
  else s

/-- A write of KEY_TX or KEY_RX. -/
def State.writeFabKeys (s : State) (p : Nat) (rx : Bool) (w : Nat) : State :=
  ((s.writeFabSlot p rx 0 (bits w 0 7) (bit w 7)).writeFabSlot p rx 1 (bits w 8 7) (bit w 15)).fabKeyBack p

/-- A running port with a valid field whose slot was invalidated or orphaned enters KEY_LOST (R297). -/
def State.fabSweepOne (s : State) (k : Nat) : State :=
  let p := pgFab k
  if s.fabState p ≠ fabOff ∧ s.fabState p ≠ fabKeyLost ∧ s.fabKeysBroken p = true then
    ((((s.putFabState p fabKeyLost).raise p 17).fault fltKeyLost respNone 0 p fltWhole 0).stopPortFlows kindFabric k)
  else s

/-- Every port after a change of the key slots. -/
def State.fabSweep (s : State) : State := (List.range 16).foldl State.fabSweepOne s

/-! ### Resets (R298) -/

/-- The port's own part of an engine reset: FAB[0] also discards the acknowledgement log and the events that wait. -/
def State.fabReset (s : State) (p : Nat) : State :=
  let s1 := ((s.fabClear p).stopPortFlows kindFabric (p - pgFab 0)).eyeReset p
  let s2 := { s1 with
    fabBc := s1.fabBc.filter fun e => decide (e.1.page ≠ p)
    fabGens := s1.fabGens.filter fun e => !decide (e.1.page = p ∧ e.1.cell = 0) }
  if p = pgFab 0 then { s2 with fevtLog := [], fevtWait := [], fevtOvf := false } else s2

end Sys2Proof.Machine
end

