-- ==== Sys2Proof/Machine/PortCmds.lean ====
section
/-! DEFINITION. The commands of the clock synthesizers (R348 to R357) and the adaptation of lanes (R270). -/

namespace Sys2Proof.Machine

/-! ### Synthesizers -/

/-- A write of SYN CTRL: the fields, then EN. -/
def State.writeSynCtrl (s : State) (n w : Nat) : State :=
  let p := pgSyn n
  (s.writeBut p 0 (s.running p) w 0x080 [F.synCtrlEn]).writeSynEn n (bit w 0) (s.acts p)

/-- SYN_START (R354): a write of CTRL with EN = 1. -/
def execSynStart (m : Fin 8) (n : Fin 16) (w : Word) (s : State) : Host.Outcome State Fault Refusal :=
  let w' := withBit w.toNat 0
  .next (s.write m (pgSyn n) 0x080 w' fun s => s.writeSynCtrl n w')

/-- SYN_LOCKED (R354). -/
def execSynLocked (n : Fin 16) (s : State) : Host.Outcome State Fault Refusal := .next (s.synLocked n)

/-- SYN_DELAY_STEP (R355). -/
def execSynDelayStep (n : Fin 16) (out : Fin 8) (s : State) : Host.Outcome State Fault Refusal := .next (s.delayStep n out)

/-- A synthesizer in use by nothing restarts with a commit of SOURCE = FREE within 1 µs (R350): it applies at once. -/
def State.synFreeCommit (s : State) (n : Nat) : State := (s.requestCommit (pgSyn n) 0).synCommit n

/-- Does a synthesizer run from its own timebase: the one that gives its commit points (R350)? -/
def State.synFollows (s : State) (n k : Nat) : Bool :=
  s.running (pgSyn n) && decide (s.get (pgSyn n) 0 F.synCtrlSource = 0 ∧ s.get (pgSyn n) 0 F.synCtrlTb = k)

/-- A synthesizer's commit point: a captured commit applies or is refused, and the freeze ends. -/
def State.synPoint (s : State) (n : Nat) : State :=
  (if (s.unit (pgSyn n) 0).captured then s.synCommit n else s).thaw (pgSyn n) 0

/-! ### Lanes -/

/-- ADAPT on a lane whose owner leaves it to the lane: traffic stops as at a loss, without a fault, and the lane asks for
power again. A lane that is off, waits or adapts is left as it is. -/
def State.adaptLane (s : State) (p l : Nat) : State :=
  let st := s.laneState p l
  if st = laneOff ∨ st = laneWaitPower ∨ st = laneAdapting then s
  else if pageType p = 0x042 then
    let k := p - pgIpp 0
    (((s.eyeDown p l).putLinkUp k (s.linkOfLane k l) false).laneRequest p l)
  else
    let s1 := (s.putGyl p l (s.gyl p l).realign).laneRequest p l
    s1.gylChanged p l

/-- LANE_CTRL.ADAPT of a lane (R270); a transmit-only lane has no receiver to adapt. -/
def State.laneAdapt (s : State) (p l : Nat) : State :=
  match pageType p with
  | 0x040 => s.rxAdapt (p - pgSdirx 0)
  | 0x041 => s
  | _ => s.adaptLane p l

/-- A write of LANE_CTRL: the polarity bits, then ADAPT. -/
def State.writeLaneCtrl (s : State) (p l w : Nat) : State :=
  let s1 := s.writeFields p l (s.running p) w (fieldsAt p 0x204)
  if bit w 31 then s1.laneAdapt p l else s1

/-- LANE_ADAPT (R270): a write of LANE_CTRL with ADAPT at the page's selected lane. -/
def execLaneAdapt (m : Fin 8) (page : Fin 4096) (s : State) : Host.Outcome State Fault Refusal :=
  .next (if laneCount page = 0 then s
    else
      let l := s.cellOf m page 0x204
      let w := 2 ^ 31 + s.get page l F.laneCtrlTxInv * 2 ^ 8 + s.get page l F.laneCtrlRxInv * 2 ^ 9
      s.write m page 0x204 w fun s => s.writeLaneCtrl page l w)

/-- The grant that a lane's adaptation held is released: its own, or the port's when its last lane is done. -/
def State.laneRelease (s : State) (p l : Nat) : State :=
  let s1 := s.releasePower p (.lane l)
  if [0, 1, 2, 3].any fun n => decide (s1.laneState p n = laneAdapting ∨ s1.laneState p n = laneWaitPower) then s1
  else s1.releasePower p .fabric

/-- Adaptation of a lane converges; the next block of a Gylos lane is masked with 0 (R262). -/
def State.laneAdapted (s : State) (p l : Nat) : State :=
  if s.laneState p l = laneAdapting then
    let s1 := if pageType p = 0x040 then s.rxAdapted (p - pgSdirx 0)
      else if isGylos p then
        (s.putGyl p l { tx := { (s.gyl p l).tx with crc := 0 }, rx := { (s.gyl p l).realign.rx with crc := 0 } }).putLane p l laneAligning
      else s.putLane p l laneAligning
    s1.laneRelease p l
  else s

/-- LANE_ADAPT_DONE (R270). -/
def execLaneAdaptDone (page : Fin 4096) (lane : Fin 4) (s : State) : Host.Outcome State Fault Refusal :=
  .next (s.laneAdapted page lane)

/-- A CLASP page that becomes READY: its lanes post their own requests. -/
def State.claspLanes (s : State) : State :=
  [0, 1, 2, 3].foldl (fun s l => if s.laneState pgClasp l = laneOff then s.laneRequest pgClasp l else s) s

end Sys2Proof.Machine
end

