-- ==== Sys2Proof/Machine/Cvu.lean ====
section
/-! DEFINITION. The check-value units (R383 to R386). -/

namespace Sys2Proof.Machine

/-! ### The register -/

/-- POLY and INIT of a unit. -/
def State.cvuPoly (s : State) (n : Nat) : Nat := s.get (pgCvu n) 0 F.cvuPolyHiPoly * 2 ^ 32 + s.get (pgCvu n) 0 F.cvuPolyLoPoly
/-- INIT. -/
def State.cvuInit (s : State) (n : Nat) : Nat := s.get (pgCvu n) 0 F.cvuInitHiInit * 2 ^ 32 + s.get (pgCvu n) 0 F.cvuInitLoInit
/-- WIDTH. -/
def State.cvuWidth (s : State) (n : Nat) : Nat := s.get (pgCvu n) 0 F.cvuCfgWidth

/-- A unit at cold power-up: INIT is loaded. -/
def CvuRun.cold : CvuRun := ⟨0xFFFFFFFF, 0, [], none⟩

/-- CVU[n]. -/
def State.cvu (s : State) (n : Nat) : CvuRun := Tab.at CvuRun.cold s.cvus n

/-- BYTES saturates at its 28 bits. -/
abbrev cvuBytesMax : Nat := 2 ^ 28 - 1

/-- Write CVU[n]: BYTES shows its count, RUNNING whether a job runs. -/
def State.putCvu (s : State) (n : Nat) (x : CvuRun) : State :=
  (({ s with cvus := Tab.put n x s.cvus }).put (pgCvu n) 0 F.cvuResultStatBytes (min x.bytes cvuBytesMax)).putRunning
    (pgCvu n) x.job.isSome

/-- The result of R383. -/
def State.cvuResult (s : State) (n : Nat) : Nat :=
  let p := pgCvu n
  let w := s.cvuWidth n
  let c := (s.cvu n).crc % 2 ^ w
  let r := if s.flag p 0 F.cvuCfgRefout then reverseBits w c else c
  if s.flag p 0 F.cvuCfgInv then r ^^^ (2 ^ w - 1) else r

/-- Load INIT (R384): the byte count and the records start afresh. -/
def State.cvuLoad (s : State) (n : Nat) : State :=
  s.putCvu n { s.cvu n with crc := s.cvuInit n, bytes := 0, record := [] }

/-! ### The alive check (R386) -/

/-- ARMED. -/
def State.cvuArmed (s : State) (n : Nat) : Bool := s.stat (pgCvu n) 16

/-- Bytes of the counter. -/
def counterBytes (width : Nat) : Nat := (width + 7) / 8

/-- LAST. -/
def State.cvuLast (s : State) (n : Nat) : Nat :=
  s.get (pgCvu n) 0 F.cvuAliveLastHiLast * 2 ^ 32 + s.get (pgCvu n) 0 F.cvuAliveLastLoLast

/-- Write LAST. -/
def State.putCvuLast (s : State) (n v : Nat) : State :=
  (s.put (pgCvu n) 0 F.cvuAliveLastLoLast (v % 2 ^ 32)).put (pgCvu n) 0 F.cvuAliveLastHiLast (v / 2 ^ 32)

/-- A record ends and is checked. -/
def State.cvuRecord (s : State) (n : Nat) (rec : Bytes) : State :=
  let p := pgCvu n
  let w := s.get p 0 F.cvuAliveCfgWidthA
  let off := s.get p 0 F.cvuAliveCfgOffset
  if !s.flag p 0 F.cvuAliveCfgEn || decide (rec.length < off + counterBytes w) then s
  else
    let v := leValue ((rec.drop off).take (counterBytes w)) % 2 ^ w
    if s.cvuArmed n then (s.putCvuLast n v).putStat p 16 false
    else if v = s.cvuLast n then (s.raise p 17).bump p 0 F.cvuAliveCntRepeat
    else if v ≠ (s.cvuLast n + s.get p 0 F.cvuAliveCfgStep) % 2 ^ w then
      ((s.raise p 18).bump p 0 F.cvuAliveCntSkip).putCvuLast n v
    else s.putCvuLast n v

/-! ### Data -/

/-- One byte of data: into the register, the count and the record; `job` says whether a memory job brings it. -/
def State.cvuByte (n : Nat) (job : Bool) (s : State) (b : Byte) : State :=
  let p := pgCvu n
  let x := s.cvu n
  let crc := crcBytes (s.cvuWidth n) (s.cvuPoly n) (s.flag p 0 F.cvuCfgRefin) x.crc [b]
  let len := s.get p 0 F.cvuReclenBytes
  let rec' := if len = 0 ∧ job = false then x.record else x.record ++ [b]
  let full := decide (len ≠ 0) && decide (len ≤ rec'.length)
  let s1 := s.putCvu n { x with crc := crc, bytes := min (x.bytes + 1) cvuBytesMax, record := if full then [] else rec' }
  if full then s1.cvuRecord n rec' else s1

/-- Bytes of data in order. -/
def State.cvuTake (s : State) (n : Nat) (job : Bool) (l : Bytes) : State := l.foldl (State.cvuByte n job) s

/-- The bytes of working SRAM or HBM from an address up to the first that does not answer. -/
def State.readable (s : State) (a : Nat) : Nat → Bytes
  | 0 => []
  | n + 1 =>
    match s.fetchBytes a 1 with
    | some b => b ++ s.readable (a + 1) n
    | none => []

/-! ### Jobs and feeds (R384, R385) -/

/-- A job ends with a code, after so many of its bytes. -/
def State.cvuEnd (s : State) (n code taken : Nat) : State :=
  match (s.cvu n).job with
  | none => s
  | some (a, left) =>
    let got := s.readable a (min taken left)
    let s1 := s.cvuTake n true got
    let ends := decide (code = 0) && decide (s.get (pgCvu n) 0 F.cvuReclenBytes = 0)
    let rec' := (s1.cvu n).record
    let s2 := s1.putCvu n { s1.cvu n with job := none, record := if s.get (pgCvu n) 0 F.cvuReclenBytes = 0 then [] else rec' }
    let s3 := if ends then s2.cvuRecord n rec' else s2
    (s3.put (pgCvu n) 0 F.cvuResultStatCode code).raise (pgCvu n) 16

/-- The job that runs comes to its end: OK, or MEM_FAIL at the first byte that does not answer. -/
def State.cvuDone (s : State) (n : Nat) : State :=
  match (s.cvu n).job with
  | none => s
  | some (a, left) => s.cvuEnd n (if (s.readable a left).length = left then 0 else 1) left

/-- The job that runs is cut off: the bytes taken until then are a free value. -/
def State.cvuCut (s : State) (n code : Nat) : State :=
  match (s.cvu n).job with
  | none => s
  | some (_, left) =>
    let (v, s1) := s.draw
    s1.cvuEnd n code (v % (left + 1))

/-- GO.START: a memory job begins; LEN = 0 is reserved. -/
def State.cvuStart (s : State) (n : Nat) : State :=
  let p := pgCvu n
  let len := s.get p 0 F.cvuLenBytes
  if len = 0 then s.setErr p errBadValue
  else
    let s1 := if s.flag p 0 F.cvuCfgCont then s else s.cvuLoad n
    let x := s1.cvu n
    s1.putCvu n { x with
      job := some (s1.addr40 p 0 F.cvuSrcLoAddr F.cvuSrcHiAddr, len)
      record := if s1.get p 0 F.cvuReclenBytes = 0 then [] else x.record }

/-- A write of GO: ABORT, ARM, then RESTART and START, which a job that runs refuses. -/
def State.writeCvuGo (s : State) (n w : Nat) : State :=
  let p := pgCvu n
  if !s.acts p then s
  else
    let busy := (s.cvu n).job.isSome
    let s1 := if bit w 2 then s.putStat p 16 true else s
    let s2 := if busy && bit w 3 then s1.cvuCut n 2 else s1
    if !(bit w 0 || bit w 1) then s2
    else if busy then s2.setErr p 16
    else
      let s3 := if bit w 1 then s2.cvuLoad n else s2
      if bit w 0 then s3.cvuStart n else s3

/-- A write of FEED or FEED1. -/
def State.cvuFeed (s : State) (n count w : Nat) : State :=
  let p := pgCvu n
  if !s.acts p then s
  else if (s.cvu n).job.isSome then s.setErr p 16
  else s.cvuTake n false (leBytes count w)

/-- Do POLY and INIT lie within WIDTH? -/
def State.cvuFits (s : State) (n : Nat) : Bool :=
  decide (s.cvuPoly n < 2 ^ s.cvuWidth n ∧ s.cvuInit n < 2 ^ s.cvuWidth n)

/-- A write of a configuration word: one that gives a reserved WIDTH, or leaves a bit of POLY or INIT at or above WIDTH,
changes nothing (R383). -/
def State.writeCvuCfg (s : State) (n off w : Nat) : State :=
  let p := pgCvu n
  let s1 := s.writeFields p 0 (s.running p) w (fieldsAt p off)
  if off = 0x080 ∧ F.cvuCfgWidth.legal.ok (F.cvuCfgWidth.extract w) = false then s.setErr p errBadValue
  else if s1.cvuFits n then s1
  else s.setErr p errBadValue

/-- May a header COMMIT of a unit complete (R386)? -/
def State.cvuCommitOk (s : State) (n : Nat) : Bool :=
  let p := pgCvu n
  let len := s.get p 0 F.cvuReclenBytes
  s.cvuFits n && decide (len = 0 ∨ s.get p 0 F.cvuAliveCfgOffset + counterBytes (s.get p 0 F.cvuAliveCfgWidthA) ≤ len)

/-- What an engine reset does to a unit, once its fields are restored: its job is abandoned, INIT loaded, ARMED set. -/
def State.cvuReset (s : State) (n : Nat) : State :=
  let s1 := s.putCvu n { s.cvu n with job := none }
  let s2 := if (s.cvu n).job.isSome then (s1.put (pgCvu n) 0 F.cvuResultStatCode 2).raise (pgCvu n) 16 else s1
  (s2.cvuLoad n).putStat (pgCvu n) 16 true

/-! ### Commands -/

/-- A write of GO with one bit set. -/
def State.cvuGo (s : State) (m : Nat) (n : Nat) (w : Nat) : State :=
  s.write m (pgCvu n) 0x0A0 w fun s => s.writeCvuGo n w

/-- CVU_START (R384). -/
def execCvuStart (m : Fin 8) (n : Fin 16) (s : State) : Host.Outcome State Fault Refusal := .next (s.cvuGo m n 1)

/-- CVU_RESTART (R384). -/
def execCvuRestart (m : Fin 8) (n : Fin 16) (s : State) : Host.Outcome State Fault Refusal := .next (s.cvuGo m n 2)

/-- CVU_ABORT (R385). -/
def execCvuAbort (m : Fin 8) (n : Fin 16) (s : State) : Host.Outcome State Fault Refusal := .next (s.cvuGo m n 8)

/-- CVU_ARM (R386). -/
def execCvuArm (m : Fin 8) (n : Fin 16) (s : State) : Host.Outcome State Fault Refusal := .next (s.cvuGo m n 4)

/-- CVU_FEED (R384). -/
def execCvuFeed (m : Fin 8) (n : Fin 16) (w : Word) (s : State) : Host.Outcome State Fault Refusal :=
  .next (s.write m (pgCvu n) 0x0A4 w.toNat fun s => s.cvuFeed n 4 w.toNat)

/-- CVU_FEED1 (R384). -/
def execCvuFeed1 (m : Fin 8) (n : Fin 16) (w : Word) (s : State) : Host.Outcome State Fault Refusal :=
  .next (s.write m (pgCvu n) 0x0A8 w.toNat fun s => s.cvuFeed n 1 w.toNat)

/-- CVU_JOB_DONE (R385). -/
def execCvuJobDone (n : Fin 16) (s : State) : Host.Outcome State Fault Refusal := .next (s.cvuDone n)

end Sys2Proof.Machine
end

