-- ==== Sys2Proof/Machine/Press.lean ====
section
/-! DEFINITION. The Press: descriptors, jobs, completion records, curd mode (R387 to R393). -/

namespace Sys2Proof.Machine

/-! ### Descriptors (R387) -/

/-- A word of a descriptor. -/
def PressDesc.w (d : PressDesc) (n : Nat) : Nat := d.words.getD n 0
/-- OP. -/
def PressDesc.op (d : PressDesc) : Nat := bits (d.w 0) 28 4
/-- LEVEL. -/
def PressDesc.level (d : PressDesc) : Nat := bits (d.w 0) 26 2
/-- FIRST. -/
def PressDesc.first (d : PressDesc) : Bool := bit (d.w 0) 25
/-- LAST. -/
def PressDesc.last (d : PressDesc) : Bool := bit (d.w 0) 24
/-- FLUSH. -/
def PressDesc.flush (d : PressDesc) : Bool := bit (d.w 0) 23
/-- BPP8. -/
def PressDesc.wide (d : PressDesc) : Bool := bit (d.w 0) 22
/-- TAG. -/
def PressDesc.tag (d : PressDesc) : Nat := bits (d.w 0) 0 16
/-- The source address. -/
def PressDesc.src (d : PressDesc) : Nat := bits (d.w 2) 0 8 * 2 ^ 32 + d.w 1
/-- The destination address. -/
def PressDesc.dst (d : PressDesc) : Nat := bits (d.w 2) 8 8 * 2 ^ 32 + d.w 3
/-- The size of a CURD surface, in pixels. -/
def PressDesc.width (d : PressDesc) : Nat := bits (d.w 4) 16 15
/-- Rows of a CURD surface. -/
def PressDesc.height (d : PressDesc) : Nat := bits (d.w 4) 0 15
/-- Bytes of a pixel. -/
def PressDesc.bpp (d : PressDesc) : Nat := if d.wide then 8 else 4
/-- Bytes of the source range (R388). -/
def PressDesc.srcLen (d : PressDesc) : Nat := if d.op = 3 then d.height * d.w 6 else d.w 4
/-- DST_LEN. -/
def PressDesc.dstLen (d : PressDesc) : Nat := d.w 5

abbrev opCompress : Nat := 1
abbrev opDecompress : Nat := 2
abbrev opCurd : Nat := 3

/-- The largest source or destination. -/
abbrev pressMax : Nat := 16777216

/-- Does a descriptor break a rule of its own (BAD_DESC)? -/
def PressDesc.bad (d : PressDesc) : Bool :=
  let curd := decide (d.op = opCurd)
  decide (d.op = 0 ∨ 3 < d.op) || (decide (d.op = opCompress) && decide (d.level = 3)) ||
  decide (bits (d.w 0) 16 6 ≠ 0 ∨ bits (d.w 2) 16 16 ≠ 0 ∨ d.w 7 ≠ 0) ||
  decide (d.dstLen = 0 ∨ pressMax < d.dstLen) ||
  (decide (d.op = opDecompress ∨ d.op = opCurd) && !(d.first && d.last)) ||
  (if curd then
    decide (d.width = 0 ∨ 16384 < d.width ∨ d.height = 0 ∨ 16384 < d.height) ||
    decide (d.w 6 < d.width * d.bpp) || decide (pressMax < d.width * d.height * d.bpp) || decide (d.dst % 64 ≠ 0)
  else decide (d.w 4 = 0 ∨ pressMax < d.w 4 ∨ d.w 6 ≠ 0))

/-- Do source and destination overlap? -/
def PressDesc.overlaps (d : PressDesc) : Bool := decide (d.src < d.dst + d.dstLen ∧ d.dst < d.src + d.srcLen)

/-- Does a descriptor not continue the queue (CHAIN)? The descriptors of a job are COMPRESS with one LEVEL. -/
def chainBad (newest : Option PressDesc) (d : PressDesc) : Bool :=
  match newest with
  | none => !d.first
  | some x =>
    if x.last then !d.first
    else d.first || decide (x.master ≠ d.master) || decide (x.op ≠ d.op ∨ x.level ≠ d.level)

/-! ### The log (R390) -/

/-- Records the log holds. -/
abbrev pressLogSize : Nat := 64
/-- Descriptors the queue holds. -/
abbrev pressQueueSize : Nat := 64

/-- Push a completion record. -/
def State.pushPress (s : State) (code tag out used adler : Nat) : State :=
  let r := [2 ^ 31 + code * 2 ^ 26 + tag, out % 2 ^ 32, used % 2 ^ 32, adler % 2 ^ 32]
  let s1 := if s.pressDone.length < pressLogSize then { s with pressDone := s.pressDone ++ [r] }
    else { s with pressOvf := true }
  let s2 := s1.bump pgPress 0 F.pressCntJobs
  (if code = 0 then s2 else s2.bump pgPress 0 F.pressCntFailed).raise pgPress 16

/-- A read of DONE_W0: the oldest record's first word; the others are latched for the master. -/
def State.pressRead (s : State) (m : Nat) : Nat × State :=
  match s.pressDone with
  | [] => (0, s)
  | r :: t =>
    let latch := fun (l : List (Key × Nat)) n => Assoc.set Key.code ⟨m, pgPress, 0x0B0 + 4 * n⟩ (r.getD n 0) l
    (r.getD 0 0 + ofBool s.pressOvf * 2 ^ 30,
      { s with pressDone := t, pressOvf := false, latch := latch (latch (latch s.latch 1) 2) 3 })

/-! ### Jobs -/

/-- The descriptors of the oldest job, and those behind: none while its LAST is not queued. -/
def splitJob : List PressDesc → Option (List PressDesc × List PressDesc)
  | [] => none
  | d :: t => if d.last then some ([d], t) else (splitJob t).map fun x => (d :: x.1, x.2)

/-- Bytes that the manual leaves open, drawn one by one. -/
def State.drawBytes (s : State) (n : Nat) : Bytes × State :=
  ((List.range n).map fun i => BitVec.ofNat 8 (Config.freeNat (s.free + i)), { s with free := s.free + n })

/-- Fill the destinations of a job in order with its output. -/
def State.fillDest (s : State) (out : Bytes) : List PressDesc → State
  | [] => s
  | d :: t => (s.pokeBytes 5 d.dst (out.take d.dstLen)).fillDest (out.drop d.dstLen) t

/-- A job that fails may have written into its destinations: what they hold then is free (R391). -/
def State.spoil (s : State) (ds : List PressDesc) : State :=
  ds.foldl (fun s d =>
    let (b, s1) := s.drawBytes d.dstLen
    s1.pokeBytes 5 d.dst b) s

/-- The sources of a job in order: none where a read fails. -/
def State.pressInput (s : State) : List PressDesc → Option (List (Bytes × Bool))
  | [] => some []
  | d :: t =>
    match s.fetchBytes d.src d.srcLen, s.pressInput t with
    | some b, some l => some ((b, d.flush && !d.last) :: l)
    | _, _ => none

/-- FLG of a level. -/
def zlibFlg (level : Nat) : Byte := if level = 0 then 0x01 else if level = 1 then 0x9C else 0xDA

/-- What a job gives: the bytes it writes with its record, or its code; `touched` says whether it may have written. -/
inductive PressEnd where
  | ok (out : Bytes) (len used adler : Nat)
  | fail (code : Nat) (touched : Bool)
  deriving DecidableEq, Repr

/-- Does every destination of a job take writes? -/
def State.destOpen (s : State) (ds : List PressDesc) : Bool := ds.all fun d => s.writable d.dst d.dstLen

/-- COMPRESS (R389). -/
def State.compress (s : State) (ds : List PressDesc) (level : Nat) : PressEnd :=
  match s.pressInput ds with
  | none => .fail 6 true
  | some l =>
    let all := l.flatMap Prod.fst
    let a := adler32 all
    let out := [0x78, zlibFlg level] ++ Config.deflate level l ++ beBytes 4 a
    let room := ds.foldl (fun n d => n + d.dstLen) 0
    if all.length ≤ out.length then .fail 1 true
    else if room < out.length then .fail 2 true
    else if !s.destOpen ds then .fail 6 true
    else .ok out out.length 0 a

/-- DECOMPRESS (R389): what follows the trailer is not read. -/
def State.decompress (s : State) (d : PressDesc) : PressEnd :=
  let got := s.readable d.src d.srcLen
  match unzlib d.dstLen got with
  | .inl c => .fail (if c = 5 ∧ got.length < d.srcLen then 6 else c) true
  | .inr (out, a, used) => if s.writable d.dst out.length then .ok out out.length used a else .fail 6 true

/-- The pixels of a row of a tile, zero beyond the surface. -/
def State.tileRow (s : State) (d : PressDesc) (tx y : Nat) : Option Bytes :=
  let n := min 32 (d.width - tx * 32)
  if d.height ≤ y then some (List.replicate (32 * d.bpp) 0)
  else (s.fetchBytes (d.src + y * d.w 6 + tx * 32 * d.bpp) (n * d.bpp)).map fun b =>
    b ++ List.replicate ((32 - n) * d.bpp) 0

/-- The raw tile of a curd. -/
def State.rawTile (s : State) (d : PressDesc) (tx ty : Nat) : Option Bytes :=
  (List.range 8).foldl (fun acc r =>
    match acc, s.tileRow d tx (ty * 8 + r) with
    | some a, some b => some (a ++ b)
    | _, _ => none) (some [])

/-- The header and payload of a curd, and whether it is raw (R184, R393). -/
def curdOf (tile : Bytes) : Bytes × Bool :=
  let z := Config.deflate 1 [(tile, false)]
  let raw := decide (tile.length ≤ z.length ∨ z.length = 0)
  let body := if raw then tile else z
  (leBytes 4 (ofBool raw * 2 ^ 31 + body.length) ++ leBytes 4 (crc32c tile) ++ body, raw)

/-- Columns of curds of a surface. -/
def PressDesc.tilesX (d : PressDesc) : Nat := (d.width + 31) / 32
/-- Rows of curds of a surface. -/
def PressDesc.tilesY (d : PressDesc) : Nat := (d.height + 7) / 8

/-- The curds of a surface in slot order: none where a read fails. -/
def State.curds (s : State) (d : PressDesc) : Option (List (Bytes × Bool)) :=
  (List.range (d.tilesX * d.tilesY)).foldr (fun i acc =>
    match s.rawTile d (i % d.tilesX) (i / d.tilesX), acc with
    | some t, some l => some (curdOf t :: l)
    | _, _ => none) (some [])

/-- Write curds into their slots. -/
def State.writeCurds (s : State) (slot a : Nat) : List (Bytes × Bool) → State
  | [] => s
  | c :: t => (s.pokeBytes 5 a c.1).writeCurds slot (a + slot) t

/-- CURD (R393): what it gives, with the curds to write. -/
def State.curdJob (s : State) (d : PressDesc) : PressEnd × List (Bytes × Bool) :=
  let slot := curdSlot d.wide
  let n := d.tilesX * d.tilesY
  if d.dstLen < n * slot then (.fail 2 false, [])
  else match s.curds d with
    | none => (.fail 6 true, [])
    | some l =>
      let raw := l.countP fun c => c.2
      if raw = n then (.fail 1 true, [])
      else if !s.writable d.dst (n * slot) then (.fail 6 true, [])
      else (.ok [] (l.foldl (fun k c => k + (c.1.length - 8)) 0) raw 0, l)

/-- Run the job of some descriptors and push its record. -/
def State.pressRun (s : State) (ds : List PressDesc) : State :=
  match ds with
  | [] => s
  | d :: _ =>
    let tag := (ds.getLast?.getD d).tag
    let (r, l) := if d.op = opCurd then s.curdJob d
      else (if d.op = opDecompress then s.decompress d else s.compress ds d.level, [])
    match r with
    | .ok out len used a =>
      let s1 := if d.op = opCurd then s.writeCurds (curdSlot d.wide) d.dst l else s.fillDest out ds
      s1.pushPress 0 tag len used a
    | .fail code touched => (if touched then s.spoil ds else s).pushPress code tag 0 0 0

/-! ### The queue (R389) -/

/-- A request of the Press waits at the PAU. -/
def State.pressAsked (s : State) : Bool := s.powerQueue.any fun r => decide (r.purpose = .press)

/-- The Press asks for power for its oldest complete job; one that is refused ends as DEFERRED, and the next is tried. -/
def State.pressKick (s : State) : Nat → State
  | 0 => s
  | k + 1 =>
    if s.pressJob || s.pressAsked then s
    else match splitJob s.pressQueue with
      | none => s
      | some (ds, rest) =>
        let (s1, ok) := s.postPower pgPress .press
        if ok then s1
        else (({ s1 with pressQueue := rest }).pushPress 7 (ds.getLast?.elim 0 PressDesc.tag) 0 0 0).pressKick k

/-- The next job, after a submission or the end of a job. -/
def State.pressNext (s : State) : State := s.pressKick (s.pressQueue.length + 1)

/-- The request is granted: the job runs. -/
def State.pressGranted (s : State) : State := { s with pressJob := true }

/-- The request ends as DEFERRED: so does the job, and the next is tried. -/
def State.pressDeferred (s : State) : State :=
  match splitJob s.pressQueue with
  | none => s
  | some (ds, rest) =>
    (({ s with pressQueue := rest }).pushPress 7 (ds.getLast?.elim 0 PressDesc.tag) 0 0 0).pressNext

/-- The job that runs ends: its grant goes and the next job is tried. -/
def State.pressEnds (s : State) (run : State → List PressDesc → State) : State :=
  if s.pressJob then
    match splitJob s.pressQueue with
    | none => s
    | some (ds, rest) =>
      let s1 := run { s with pressQueue := rest, pressJob := false } ds
      (s1.releasePower pgPress .press).pressNext
  else s

/-- The job that runs fails with a code. -/
def State.pressFails (code : Nat) (s : State) (ds : List PressDesc) : State :=
  (s.spoil ds).pushPress code (ds.getLast?.elim 0 PressDesc.tag) 0 0 0

/-- SUBMIT.GO of a master (R388). -/
def State.pressSubmit (s : State) (m : Nat) : State :=
  let d : PressDesc :=
    { words := [F.pressSubW0Word, F.pressSubW1Word, F.pressSubW2Word, F.pressSubW3Word, F.pressSubW4Word,
        F.pressSubW5Word, F.pressSubW6Word, F.pressSubW7Word].map fun f => s.get pgPress m f
      master := m }
  let code := if pressQueueSize ≤ s.pressQueue.length then 1
    else if d.bad then 2
    else if chainBad s.pressQueue.getLast? d then 3
    else if d.overlaps then 4 else 0
  let s1 := s.put pgPress m F.pressSubResultCode code
  if code = 0 then ({ s1 with pressQueue := s1.pressQueue ++ [d] }).pressNext else s1

/-- An engine reset of the Press (R392): the running job ends as ABORTED, the queue is discarded. -/
def State.pressReset (s : State) : State :=
  let s1 := if s.pressJob then
    (match splitJob s.pressQueue with
      | some (ds, _) => State.pressFails 8 s ds
      | none => s)
    else s
  { s1 with pressQueue := [], pressJob := false }

/-! ### Commands -/

/-- A write of SUBMIT: a Press that is not READY does nothing with it. -/
def State.writeSubmit (s : State) (m w : Nat) : State := if bit w 0 && s.acts pgPress then s.pressSubmit m else s

/-- PRESS_SUBMIT (R388). -/
def execPressSubmit (m : Fin 8) (s : State) : Host.Outcome State Fault Refusal :=
  .next (s.write m pgPress 0x0A0 1 fun s => s.writeSubmit m 1)

/-- PRESS_JOB_DONE (R390). -/
def execPressJobDone (s : State) : Host.Outcome State Fault Refusal := .next (s.pressEnds State.pressRun)

/-- PRESS_DONE_READ (R390). -/
def execPressDoneRead (m : Fin 8) (s : State) : Host.Outcome State Fault Refusal :=
  .next (s.readAs m fun s => s.pressRead m)

end Sys2Proof.Machine
end

