-- ==== Sys2Proof/Machine/Starts.lean ====
section
/-! DEFINITION. Readiness (R326): how an engine leaves INERT, what it waits for, and what it does with the settings it holds
when it becomes READY. -/

namespace Sys2Proof.Machine

/-! ### Starting from stored settings -/

/-- A flow whose EN was stored starts. -/
def State.startStored (s : State) (f : Nat) : State := if s.flowEn f then s.startFlow f else s

/-- The output channels of the shuffler whose route is stored. -/
def State.storedRoutes (s : State) : List Nat :=
  (s.regs.filter fun e => decide (e.1.page = pgAsh ∧ e.1.slot = F.ashRouteEn.slot ∧ e.2 = 1)).map fun e => e.1.cell

/-- What an engine that becomes READY does with the run control it holds (log entry 15). -/
def State.startEngine (s : State) (p : Nat) : State :=
  let go := fun (f : Field) (k : State → State) => if s.flag p 0 f && !s.running p then k s else s
  match pageType p with
  | 0x020 => go F.tbCtrlRun fun s =>
    if (s.tb (p - pgTb 0)).state ≠ .off then s.tbResume (p - pgTb 0)
    else (s.tbStart (p - pgTb 0)).synTbOn (p - pgTb 0)
  | 0x022 => go F.synCtrlEn fun s => s.writeSynEn (p - pgSyn 0) true true
  | 0x040 => go F.sdirxCtrlEn fun s => s.sdirxStart (p - pgSdirx 0)
  | 0x041 => go F.sditxCtrlEn fun s => s.sditxStart (p - pgSditx 0)
  | 0x042 => go F.ippCtrlEn fun s => s.ippStart (p - pgIpp 0)
  | 0x043 => go F.fabCtrlEn fun s => s.fabStart p
  | 0x051 => s.flows.foldl State.startStored s
  | 0x060 => go F.cnvCtrlEn fun s => s.cnvAsk (p - pgCnv 0)
  | 0x061 => go F.cpoCtrlEn fun s => s.cpoAsk (p - pgCpo 0)
  | 0x070 => s.storedRoutes.foldl (fun s o => s.startRoute o (s.routeWord o)) s
  | 0x072 => go F.aupCtrlEn fun s => s.aupStart (p - pgAup 0)
  | 0x005 => s.claspLanes
  | 0x033 => s.pressNext
  | _ => s

/-! ### Dependencies (R326) -/

/-- Is what a page waits for beyond running firmware there? KEY has a rule of its own. -/
def State.dependencyMet (s : State) (p : Nat) : Bool :=
  match pageType p with
  | 0x022 => s.bandOk (p - pgSyn 0)
  | 0x060 => decide (s.hbm = .ready)
  | 0x061 => decide (s.hbm = .ready)
  | _ => true

/-- An engine that has restored its record becomes READY, or waits for its dependency; it resumes before the firmware runs again
(R327, R333). A slice or compositor waits for its power grant. `run` says whether it acts on the run control it holds. -/
def State.resumeReady (s : State) (p : Nat) (run : Bool) : State :=
  if !s.dependencyMet p then s.putReady p false causeWaitDependency
  else if pageType p = 0x060 ∨ pageType p = 0x061 then
    let s1 := s.putReady p false causeWaitPower
    if run then s1.startEngine p else s1
  else
    let s1 := s.putReady p true causeNone
    if run then s1.startEngine p else s1

/-- An engine that the host takes out of INERT becomes READY, or waits for running firmware or its dependency. -/
def State.tryReady (s : State) (p : Nat) (run : Bool) : State :=
  if s.fw ≠ .running then s.putReady p false causeWaitDependency
  else if p = pgKey then (s.putReady p false causeWaitDependency).keyReady
  else s.resumeReady p run

/-- Pages that never start INERT (R326). -/
def neverInert (p : Nat) : Bool :=
  decide (p = pgDev ∨ p = pgPau ∨ p = pgCave ∨ p = pgFlt ∨ p = pgMtx ∨ p = pgHkc ∨ p = pgDma)

/-- The first COMMIT that the host writes to an engine after a reset: it leaves INERT, and RESTORED clears. -/
def State.firstCommit (s : State) (p : Nat) : State :=
  let h := home p
  let s1 := s.put h 0 F.hdrReadyRestored 0
  if s.inert h then s1.tryReady h true else s1

/-- An engine waits for a dependency, and no power request of its own stands between it and READY. -/
def State.waits (s : State) (p : Nat) : Bool :=
  !s.flag p 0 F.hdrReady && decide (s.get p 0 F.hdrReadyCause = causeWaitDependency)

/-- Pages that start INERT, by the first page of each engine. -/
def inertPages : List Nat := allPages.filter fun p => decide (home p = p) && !neverInert p

/-- Is an engine held: restored under RESTORE_HOLD and not yet committed by the host (R333)? -/
def State.held (s : State) (p : Nat) : Bool :=
  s.flag p 0 F.hdrReadyRestored && decide (s.get p 0 F.hdrRestorePolicyPolicy = 1)

/-- A dependency has come: every engine that waits is looked at again. -/
def State.wake (s : State) : State :=
  inertPages.foldl (fun s p => if s.waits p && decide (p ∉ s.hbmRestore) then s.tryReady p (!s.held p) else s) s

end Sys2Proof.Machine
end

