-- ==== Sys2Proof/Machine/PowerCmds.lean ====
section
/-! DEFINITION. The commands of the power admission unit (R344 to R347), with what each engine does at its grant and after a
request that ended as DEFERRED. -/

namespace Sys2Proof.Machine

/-! ### Operations by number -/

/-- The operation of R345 that a page may post, by the number a command names it with: slice, compositor, HBM training, lane
adaptation of lanes 0 to 3, eye scan of lanes 0 to 3, Press job, fabric training, PUF. -/
def purposeOf (p : Nat) : Nat → Option Purpose
  | 0 => if pageType p = 0x060 then some .slice else none
  | 1 => if pageType p = 0x061 then some .compositor else none
  | 2 => if p = pgDev then some .hbm else none
  | 11 => if p = pgPress then some .press else none
  | 12 => if pageType p = 0x043 then some .fabric else none
  | 13 => if p = pgKey then some .puf else none
  | n =>
    if 3 ≤ n ∧ n < 7 ∧ n - 3 < laneCount p then some (.lane (n - 3))
    else if 7 ≤ n ∧ n < 11 ∧ n - 7 < laneCount p then some (.eye (n - 7))
    else none

/-! ### Grants -/

/-- HBM takes a state, which STATUS.ENG shows. -/
def State.putHbm (s : State) (h : HbmState) : State :=
  ({ s with hbm := h }).putStatBits pgDev 20 2
    (match h with | .untrained => 0 | .training => 1 | .ready => 2 | .failed => 3)

/-- What an engine begins at its grant. A slice reports its pipeline with CNV_PIPELINE_READY, KEY its command with
KEY_CMD_DONE. -/
def State.onGrant (s : State) (p : Nat) (u : Purpose) : State :=
  match u with
  | .slice => s
  | .compositor => s.cpoGranted (p - pgCpo 0)
  | .hbm => s.putHbm .training
  | .lane n =>
    if pageType p = 0x040 then
      (if s.lock (p - pgSdirx 0) = lockWaitPower then s.putLock (p - pgSdirx 0) lockAdapting else s)
    else s.laneGranted p n
  | .eye n => { s with eyes := Tab.put p { s.eye p n with grantNs := some s.now } s.eyes }
  | .press => s.pressGranted
  | .fabric => s.fabGranted p
  | .puf => s

/-- What an engine does when its request ends as DEFERRED. Slices, compositors, lanes and fabric ports wait on, and post
again after 100 ms. -/
def State.onDeferred (s : State) (p : Nat) (u : Purpose) : State :=
  match u with
  | .eye n => if s.flag p n F.laneEyeStatusBusy then s.eyeEnd p n 1 [] else s
  | .press => s.pressDeferred
  | .puf => s.keyPowerDeferred
  | _ => s

/-- The head request is granted: POWER is set where the page held no grant, and the operation begins (R344, R346). -/
def State.grant (s : State) (r : PowerReq) : State :=
  let first := !s.grants.any fun g => decide (g.page = r.page)
  let g : PowerGrant :=
    { page := r.page, purpose := r.purpose, mw := r.mw, dur := r.dur, grantedNs := s.now
      steps := if r.core then rampSteps r.mw (s.get pgPau 0 F.pauRampMa) else 0 }
  let s1 := { s with powerQueue := s.powerQueue.drop 1, grants := s.grants ++ [g] }
  let s2 := if r.core then s1.startTimer pgPau 0 timerRamp else s1
  (if first then s2.raise r.page intPower else s2).onGrant r.page r.purpose

/-- POWER_GRANT (R346). -/
def execPowerGrant (s : State) : Host.Outcome State Fault Refusal :=
  .next (match s.powerQueue with
    | r :: _ => if s.canGrant r then s.grant r else s
    | [] => s)

/-- Nanoseconds of a step of the ramp (R346). -/
abbrev rampStepNs : Nat := 10000

/-- POWER_RAMP_STEP (R346): the load of the grant that ramps rises by one step, 10 µs after its grant or its last step. -/
def execPowerRampStep (s : State) : Host.Outcome State Fault Refusal :=
  .next (if s.elapsed pgPau 0 timerRamp rampStepNs then
    { s.startTimer pgPau 0 timerRamp with grants := s.grants.map fun g => { g with steps := g.steps - 1 } }
  else s)

/-- POWER_REQUEST (R344): an engine posts a request for an operation, queued or refused. -/
def execPowerRequest (page : Fin 4096) (purpose : Nat) (s : State) : Host.Outcome State Fault Refusal :=
  .next (match purposeOf page purpose with
    | some (.eye _) => s
    | some u => if s.asks page u || s.holds page u then s else (s.postPower page u).1
    | none => s)

/-- POWER_RELEASE (R344): the grant of an operation is released, and USED falls at once. -/
def execPowerRelease (page : Fin 4096) (purpose : Nat) (s : State) : Host.Outcome State Fault Refusal :=
  .next (match purposeOf page purpose with
    | some u => s.releasePower page u
    | none => s)

/-! ### Requests that end without a grant (R347) -/

/-- Has a request waited longer than TIMEOUT? -/
def State.overdue (s : State) (r : PowerReq) : Bool := decide (s.powerTimeoutNs < s.waitedNs r)

/-- A waiting request ends as DEFERRED. -/
def State.endRequest (s : State) (r : PowerReq) : State :=
  ((s.withdrawPower r.page r.purpose).deferPower r.page r.purpose).onDeferred r.page r.purpose

/-- Every request that has waited longer than TIMEOUT ends as DEFERRED; during a control reset the timeouts pause. -/
def State.deferOverdue (s : State) : State :=
  if s.powerPaused.isSome then s else (s.powerQueue.filter s.overdue).foldl State.endRequest s

/-- POWER_TIMEOUT (R347). -/
def execPowerTimeout (s : State) : Host.Outcome State Fault Refusal := .next s.deferOverdue

/-- A write of TIMEOUT: one that lowers it ends at once what has waited longer. -/
def State.writePauTimeout (s : State) (w : Nat) : State :=
  let old := s.get pgPau 0 F.pauTimeoutMs
  let s1 := s.writeFields pgPau 0 false w (fieldsAt pgPau 0x088)
  if s1.get pgPau 0 F.pauTimeoutMs < old then s1.deferOverdue else s1

/-- PAU_TIMEOUT_WRITE (R347). -/
def execPauTimeoutWrite (m : Fin 8) (w : Word) (s : State) : Host.Outcome State Fault Refusal :=
  .next (s.write m pgPau 0x088 w.toNat fun s => s.writePauTimeout w.toNat)

/-! ### Overstay and reposting -/

/-- POWER_OVERSTAY (R344): a grant held for more than twice its class limit is reported, and kept. -/
def execPowerOverstay (s : State) : Host.Outcome State Fault Refusal :=
  .next (if s.grants.any fun g => match durLimitNs g.dur with
      | some n => decide (2 * n < s.now - g.grantedNs)
      | none => false
    then s.setErr pgPau 18 else s)

/-- Does an engine still wait for the grant of an operation that it posts again? -/
def State.reposts (s : State) (p : Nat) (u : Purpose) : Bool :=
  !s.asks p u && !s.holds p u &&
  match u with
  | .slice => s.wantsPower p && s.flag p 0 F.cnvCtrlEn && s.flag p 0 F.hdrPowerGrantDeferred
  | .compositor => s.wantsPower p && s.flag p 0 F.cpoCtrlEn && s.flag p 0 F.hdrPowerGrantDeferred
  | .lane n => decide (s.laneState p n = laneWaitPower)
  | .fabric => decide (s.fabState p = fabWaitPower)
  | _ => false

/-- Nanoseconds from DEFERRED to the next request. -/
abbrev repostNs : Nat := 100000000

/-- DEFERRED_REPOST (R347): 100 ms after DEFERRED the request is posted again. -/
def execDeferredRepost (page : Fin 4096) (purpose : Nat) (s : State) : Host.Outcome State Fault Refusal :=
  .next (match purposeOf page purpose with
    | some u => if s.reposts page u && s.elapsed page u.code timerRepost repostNs then (s.postPower page u).1 else s
    | none => s)

end Sys2Proof.Machine
end

