-- ==== Sys2Proof/Machine/ProfStore.lean ====
section
/-! DEFINITION. The profile store and the ways a profile is requested: LOAD with its checks, ERASE, PROFILE events, the
pins (R335 to R339). -/

namespace Sys2Proof.Machine

/-! ### The image (R335) -/

/-- Bytes of a profile cell. -/
abbrev profileCellBytes : Nat := 0x80000

/-- The native address of a profile cell. -/
def profileBase (p : Nat) : Nat := profBase + p * profileCellBytes

/-- A section of a profile: TYPE, the entry bytes. -/
structure ProfSection where
  ty : Nat
  entries : List Bytes
  deriving DecidableEq, Repr

/-- Bytes of an entry of a section's TYPE; 0 for a TYPE the manual does not give. -/
def profEntryBytes : Nat → Nat
  | 1 => 32 | 2 => 8 | 3 => 8
  | _ => 0

/-- The first n chunks of a byte string. -/
def chunks (size : Nat) : Nat → Bytes → List Bytes
  | 0, _ => []
  | n + 1, l => l.take size :: chunks size n (l.drop size)

/-- The sections that follow the header, exactly so many and nothing behind them; none where they do not parse. -/
def profSections : Nat → Bytes → Option (List ProfSection)
  | 0, l => if l.isEmpty then some [] else none
  | n + 1, l =>
    let ty := leValue (l.take 1)
    let count := leValue ((l.drop 4).take 4)
    let size := profEntryBytes ty
    let body := l.drop 8
    if size = 0 ∨ l.length < 8 ∨ leValue ((l.drop 1).take 3) ≠ 0 ∨ body.length < count * size then none
    else (profSections n (body.drop (count * size))).map (⟨ty, chunks size count body⟩ :: ·)

/-- Is the header right for LENGTH bytes (R335)? -/
def profHeaderOk (length : Nat) (l : Bytes) : Bool :=
  decide (72 ≤ length ∧ length ≤ 524288 ∧ l.length = length) &&
    decide (leValue (l.take 4) = 0x464F5250) && decide (leValue ((l.drop 4).take 2) = 1) &&
    decide (1 ≤ leValue ((l.drop 6).take 2) ∧ leValue ((l.drop 6).take 2) ≤ 3) &&
    decide (leValue ((l.drop 8).take 4) = length) && ((l.drop 16).take 48).all fun b => decide (b = 0)

/-- The sections of an image whose header is right, each TYPE at most once. -/
def profParse (l : Bytes) : Option (List ProfSection) :=
  match profSections (leValue ((l.drop 6).take 2)) (l.drop 64) with
  | some ss => if (ss.map ProfSection.ty).Nodup then some ss else none
  | none => none

/-- Does the CRC of an image hold (R335, R340)? -/
def profCrcOk (l : Bytes) : Bool := decide (crc32c (l.drop 64) = leValue ((l.drop 12).take 4))

/-! ### Entries (R336) -/

/-- The entries of a TYPE. -/
def profEntries (ss : List ProfSection) (ty : Nat) : List Bytes :=
  match ss.find? fun x => decide (x.ty = ty) with
  | some x => x.entries
  | none => []

/-- Page, offset and value of a WRITES entry. -/
def profWrite (b : Bytes) : Nat × Nat × Nat :=
  (leValue (b.take 2), leValue ((b.drop 2).take 2), leValue ((b.drop 4).take 4))

/-- The flow of a FLOWS entry. -/
def profFlow (b : Bytes) : Nat := leValue (b.take 2)

/-- CTXn of a FLOWS entry. -/
def profCtx (b : Bytes) (n : Nat) : Nat := leValue ((b.drop (4 + 4 * n)).take 4)

/-- The offsets that a profile may write, by page TYPE (R336). -/
def profOffset (ty off : Nat) : Bool :=
  match ty with
  | 0x040 => decide (0x080 ≤ off ∧ off ≤ 0x1FF)
  | 0x041 => decide (0x080 ≤ off ∧ off ≤ 0x1FF)
  | 0x060 => decide (0x080 ≤ off ∧ off ≤ 0x1FF)
  | 0x072 => decide (0x080 ≤ off ∧ off ≤ 0x1FF)
  | 0x070 => decide (0x080 ≤ off ∧ off ≤ 0x1FF)
  | 0x061 => decide ((0x080 ≤ off ∧ off ≤ 0x1FF) ∨ (0x200 ≤ off ∧ off ≤ 0x230))
  | 0x042 => decide ((0x0FC ≤ off ∧ off ≤ 0x1FF) ∨ (0x280 ≤ off ∧ off ≤ 0x2C4)) && !decide (0x2B4 ≤ off ∧ off ≤ 0x2BC)
  | 0x043 => decide (0x100 ≤ off ∧ off ≤ 0x10C)
  | _ => false

/-- Registers of a cell's own commit: RST_COMMIT with its frame, STRM_COMMIT (R336). -/
def cellCommitReg (ty off : Nat) : Bool :=
  (decide (ty = 0x041 ∨ ty = 0x042 ∨ ty = 0x061) && decide (0x118 ≤ off ∧ off ≤ 0x120)) ||
    (decide (ty = 0x042) && decide (off = F.ippStrmCommitCommit.off))

/-- Does a register hold anything that a write of a profile can change? -/
def profWritable (p off : Nat) : Bool :=
  (fieldsAt p off).any fun f => decide (f.access = .rw ∨ f.access = .w1s ∨ f.access = .wo)

/-- The CELL_INDEX that a profile's own writes have given a CPO page (R336). -/
def trackedCell (t : Tab Nat) (p : Nat) : Nat := Tab.at 0 t p

/-- Is a WRITES entry allowed, with CELL_INDEX of CPO pages as the entries before it left it? -/
def profWriteOk (t : Tab Nat) (b : Bytes) : Bool :=
  let (p, off, _) := profWrite b
  let ty := pageType p
  profOffset ty off && decide (off % 4 = 0) && !cellCommitReg ty off && profWritable p off &&
    !(decide (ty = 0x061) && decide (0x200 ≤ off) && decide (trackedCell t p = 7))

/-- CELL_INDEX of CPO pages after a WRITES entry. -/
def trackWrite (t : Tab Nat) (b : Bytes) : Tab Nat :=
  let (p, off, w) := profWrite b
  if pageType p = 0x061 ∧ off = F.cpoCellIndexCell.off then Tab.put p (F.cpoCellIndexCell.extract w) t else t

/-- The number of the first WRITES entry that is not allowed. -/
def badWrite : Tab Nat → Nat → List Bytes → Option Nat
  | _, _, [] => none
  | t, n, b :: l => if profWriteOk t b then badWrite (trackWrite t b) (n + 1) l else some n

/-- Is a FLOWS entry well formed? -/
def profFlowOk (b : Bytes) : Bool := decide (profFlow b < 4096 ∧ leValue ((b.drop 2).take 2) = 0)

/-- The first entry of a profile that is not allowed, counted from 0 across the sections. -/
def badEntry : Nat → List ProfSection → Option Nat
  | _, [] => none
  | n, x :: l =>
    let bad := match x.ty with
      | 1 => (x.entries.findIdx? fun b => !profFlowOk b).map (n + ·)
      | 2 => badWrite [] n x.entries
      | _ => none
    match bad with
    | some k => some k
    | none => badEntry (n + x.entries.length) l

/-! ### LOAD and ERASE (R335) -/

/-- PROF_RESULT codes. -/
abbrev profBadHeader : Nat := 1
abbrev profBadCrc : Nat := 2
abbrev profBadEntry : Nat := 3
abbrev profReadFail : Nat := 4
abbrev profInUse : Nat := 5
abbrev profBusy : Nat := 6

/-- PROF_RESULT.CODE. -/
def State.profResult (s : State) (c : Nat) : State := s.put pgProf 0 F.profProfResultCode c

/-- Does a pending event name a profile cell? -/
def State.profNamed (s : State) (n : Nat) : Bool := s.events.any fun e => decide (e.kind = .profile ∧ e.arg = n)

/-- A profile cell takes a state, which CELL_STATUS shows. -/
def State.putProfCell (s : State) (n : Nat) (c : ProfileCell) : State :=
  ({ s with profCells := Tab.put n c s.profCells }.put pgProf n F.profCellStatusValid (ofBool c.valid)).put pgProf n
    F.profCellStatusBytes c.bytes

/-- LOAD: the image is read; a cell that a pending event names, or an operation in progress, refuses. -/
def State.profLoad (s : State) : State :=
  let n := s.get pgProf 0 F.profProfIndexCell
  let len := s.get pgProf 0 F.profProfLenBytes
  if s.profOp.isSome then s.profResult profBusy
  else if s.profNamed n then s.profResult profInUse
  else
    let data := if 72 ≤ len ∧ len ≤ profileCellBytes then
        s.fetchBytes (s.addr40 pgProf 0 F.profProfSrcLoAddr F.profProfSrcHiAddr) len
      else some []
    { s with profOp := some ⟨n, len, data⟩ }.put pgProf 0 F.profProfResultBusy 1

/-- ERASE clears VALID. -/
def State.profErase (s : State) : State :=
  let n := s.get pgProf 0 F.profProfIndexCell
  if s.profOp.isSome then s.profResult profBusy
  else if s.profNamed n then s.profResult profInUse
  else (s.putProfCell n { Tab.at ⟨false, 0⟩ s.profCells n with valid := false }).profResult 0

/-- A write of PROF_OP. -/
def State.writeProfOp (s : State) (w : Nat) : State :=
  if !s.acts pgProf then s
  else match bits w 0 2 with
    | 1 => s.profLoad
    | 2 => s.profErase
    | _ => s.setErr pgProf errBadValue

/-- The result of the checks of a load: the code, the entry that failed. -/
def ProfileLoadOp.check (x : ProfileLoadOp) : Nat × Nat :=
  match x.image with
  | none => (profReadFail, 0)
  | some l =>
    if !profHeaderOk x.length l then (profBadHeader, 0)
    else match profParse l with
      | none => (profBadHeader, 0)
      | some ss =>
        if !profCrcOk l then (profBadCrc, 0)
        else match badEntry 0 ss with
          | some n => (profBadEntry, n)
          | none => (0, 0)

/-- A load completes: the cell takes the image where every check holds. -/
def State.profLoadDone (s : State) (x : ProfileLoadOp) : State :=
  let (c, n) := x.check
  let s1 := ((({ s with profOp := none }).put pgProf 0 F.profProfResultBusy 0).put pgProf 0 F.profProfResultEntry n).profResult c
  let s2 := if c = 0 then
      { s1 with mem := Memory.writeBytes (Memory.clear s1.mem (profileBase x.cell) profileCellBytes) (profileBase x.cell)
                  (x.image.getD []) }.putProfCell x.cell ⟨true, x.length⟩
    else s1
  s2.raise pgProf 17

/-- PROFILE_LOAD (R335). -/
def execProfileLoad (m : Fin 8) (s : State) : Host.Outcome State Fault Refusal :=
  .next (s.write m pgProf F.profProfOpOp.off 1 fun s => s.writeProfOp 1)

/-- PROFILE_LOAD_DONE (R335). -/
def execProfileLoadDone (s : State) : Host.Outcome State Fault Refusal :=
  .next (match s.profOp with
    | some x => s.profLoadDone x
    | none => s)

/-- PROFILE_ERASE (R335). -/
def execProfileErase (m : Fin 8) (s : State) : Host.Outcome State Fault Refusal :=
  .next (s.write m pgProf F.profProfOpOp.off 2 fun s => s.writeProfOp 2)

/-! ### Requests (R337, R339) -/

/-- The switch points of a timebase from its frame in progress, in order, for so many frames. -/
def Timebase.switchPoints (t : Timebase) (frames : Nat) : List (Nat × Nat) :=
  (List.range frames).flatMap fun i => (switchLines t.struct).map fun l => (t.frame + i, l)

/-- The first switch point at which a profile may be entered now: its deadline to come, 4 ms from every pending profile.
A pending profile rules out at most a few of them. -/
def State.profPoint (s : State) (k : Nat) : Option (Nat × Nat) :=
  let t := s.tb k
  (t.switchPoints (4 * s.events.length + 16)).find? fun x =>
    !s.deadlinePassed .profile k x.1 x.2 0 && s.profileSpaced (t.pointNs x.1 x.2 0)

/-- A profile of a cell is entered for the first suitable switch point of a timebase; the answer is the result code of R77
and the handle. -/
def State.profEnter (s : State) (cell k : Nat) (origin : EvOrigin) : State × Nat × Nat :=
  if (s.tb k).state = .off then (s, evBadTb, 0)
  else if !s.profileValid cell then (s, evBadArg, 0)
  else match s.profPoint k with
    | none => (s, evLate, 0)
    | some (f, l) =>
      if scheduleSize ≤ s.events.length then (s, evQfull, 0)
      else (s.enter { handle := 0, kind := .profile, tb := k, notify := false, line := l, frame := f, sample := 0, arg := cell
                      page := pgProf, unit := 0, origin := origin }, evOk, s.nextHandle)

/-- PROFILE_STATUS codes beside those of R77. -/
abbrev profRefusedCode : Nat := 9

/-- PROFILE_STATUS. -/
def State.profStatus (s : State) (c h : Nat) : State :=
  (s.put pgDev 0 F.devProfileStatusCode c).put pgDev 0 F.devProfileStatusHandle h

/-- A write of DEV.PROFILE (R337). -/
def State.writeDevProfile (s : State) (w : Nat) : State :=
  if !bit w 31 || !s.schedOpen then s
  else if s.flag pgProf 0 F.profCtrlPins then s.profStatus profRefusedCode 0
  else
    let (s1, c, h) := s.profEnter (F.devProfileSel.extract w) (F.devProfileTb.extract w) .devProfile
    s1.profStatus c h

/-- DEV_PROFILE_GO (R337). -/
def execDevProfileGo (m : Fin 8) (w : Word) (s : State) : Host.Outcome State Fault Refusal :=
  let w' := withBit w.toNat 31
  .next (s.write m pgDev F.devProfileGo.off w' fun s => s.writeDevProfile w')

/-- PROF_LAST codes. -/
abbrev profApplied : Nat := 0
abbrev profPartial : Nat := 1
abbrev profCorrupt : Nat := 2
abbrev profAbandoned : Nat := 3

/-- PROF_LAST and LAST_FRAME after a profile. -/
def State.profLast (s : State) (x : ProfilePrep) (code : Nat) : State :=
  let s1 := ((s.put pgProf 0 F.profProfLastCode code).put pgProf 0 F.profProfLastCell x.cell).put pgProf 0 F.profProfLastTb x.tb
  ((s1.put pgProf 0 F.profProfLastSkip (satNat 12 x.skip)).put pgProf 0 F.profProfLastRefused (satNat 12 x.refused)).putFrame48
    pgProf 0 F.profLastFrameLoFrame F.profLastFrameHiFrame x.frame

/-- What a preparation that is given up leaves: shadow copies as they were before it, no pending commit (R343). -/
def State.dropPrep (s0 : State) (x : ProfilePrep) : State :=
  if x.done then s0
  else
    let s := s0.profLast x profAbandoned
    let s1 := x.units.foldl (fun s u => s.cancelCommit u.1 u.2) s
    let back := x.saved.foldl (fun l e => Assoc.set Key.code e.1 e.2 l) s1.shadow
    { s1 with shadow := back.filter fun e => decide (Assoc.find Key.code e.1 s1.regs ≠ some e.2) }

/-- A pending profile event is withdrawn, and what was prepared for it is given up. -/
def State.cancelProfile (s : State) (e : Event) : State :=
  let s1 := s.endEvent e.handle .cancelled
  let s2 := (s1.profPreps.filter fun x => decide (x.handle = e.handle)).foldl State.dropPrep s1
  { s2 with profPreps := s2.profPreps.filter fun x => decide (x.handle ≠ e.handle) }

/-- A write of PROF CTRL: PINS from 0 to 1 cancels every pending profile event not entered from the pins (R337). -/
def State.writeProfCtrl (s : State) (w : Nat) : State :=
  let was := s.flag pgProf 0 F.profCtrlPins
  let s1 := s.writeFields pgProf 0 (s.running pgProf) w (fieldsAt pgProf F.profCtrlPins.off)
  if !was && s1.flag pgProf 0 F.profCtrlPins then
    (s1.events.filter fun e => decide (e.kind = .profile ∧ e.origin ≠ .pins)).foldl State.cancelProfile s1
  else s1

/-- PROFILE_PINS_WRITE (R337). -/
def execProfilePinsWrite (m : Fin 8) (w : Word) (s : State) : Host.Outcome State Fault Refusal :=
  .next (s.write m pgProf F.profCtrlPins.off w.toNat fun s => s.writeProfCtrl w.toNat)

/-! ### The pins (R338, R339) -/

/-- A request of the pins: refused, it is counted and tried again. -/
def State.pinRequest (s : State) (sel : Nat) : State :=
  let (s1, c, _) := s.profEnter sel 0 .pins
  if c = evOk then { s1 with pinRetry := none }
  else { s1 with pinRetry := some sel }.bump pgProf 0 F.profProfStatusPinRefused

/-- A selection is qualified: PROF_STATUS shows it, and it is the latest. -/
def State.takeSelection (s : State) (sel : Option Nat) : State :=
  let s1 := ({ s with pinQual := some sel }).put pgProf 0 F.profProfStatusPinEn (ofBool sel.isSome)
  match sel with
  | some n => s1.put pgProf 0 F.profProfStatusPinSel n
  | none => s1

/-- A refused request of the pins is tried again at the next boundary (R339). -/
def State.pinAgain (s : State) : State :=
  match s.pinRetry with
  | some n => if s.flag pgProf 0 F.profCtrlPins then s.pinRequest n else { s with pinRetry := none }
  | none => s

/-- A qualified selection: a new one enters a request, the first after a reset only under PIN_START. -/
def State.qualify (s : State) (sel : Option Nat) : State :=
  let fresh := decide (s.pinQual ≠ some sel)
  let first := s.pinQual.isNone
  let s1 := s.takeSelection sel
  if !fresh then s1.pinAgain
  else
    let s2 := { s1 with pinRetry := none }.share pgProf 0 (match sel with | some n => [n] | none => [])
    match sel with
    | some n =>
      if s2.flag pgProf 0 F.profCtrlPins && (!first || s2.flag pgProf 0 F.profCtrlPinStart) && s2.schedOpen then
        s2.pinRequest n
      else s2
    | none => s2

/-- PROFILE_PIN_SAMPLE (R338): the pins at a frame boundary of TB0, enN the level of PROFILE_EN_N. -/
def execProfilePinSample (enN : Bool) (sel : Fin 4) (s : State) : Host.Outcome State Fault Refusal :=
  .next (
    if (s.tb 0).state = .off ∨ s.role = roleShadow then s
    else
      let x := if enN then none else some sel.val
      let same := decide (s.pinSel = some x)
      let s1 := { s with pinSel := some x }
      if same then s1.qualify x else s1.pinAgain)

end Sys2Proof.Machine
end

