-- ==== Sys2Proof/Machine/Cave.lean ====
section
/-! DEFINITION. The Cave (R328 to R334): records of kept fields, the journal, table images, what an engine restores after a
reset. -/

namespace Sys2Proof.Machine

/-! ### Records (R330) -/

/-- The slot of a value that stands in no register: a crosspoint entry of FLOWWIN, a channel run of ASH. -/
abbrev tableSlot : Nat := 0x100000

/-- Does a record hold a register field (R330)? -/
def keptKey (k : Key) : Bool :=
  !keptAlways k.page k.slot &&
    match fieldAtSlot k.page k.slot with
    | some f => decide (f.warm = .kept)
    | none => false

/-- The table values of a page that stand in no register. -/
def State.tableValues (s : State) (p : Nat) : List (Key × Nat) :=
  if p = pgFlow then s.xp.map fun e => (⟨pgFlow, e.1, tableSlot⟩, xpEncode e.2)
  else if p = pgAsh then
    s.audRuns.map fun r => (⟨pgAsh, r.flow, tableSlot⟩, (ofBool r.egress + 2 * r.base) * 2 ^ 16 + r.count)
  else []

/-- What an engine's record holds: the active values of its kept fields. -/
def State.keptValues (s : State) (p : Nat) : List (Key × Nat) :=
  (s.regs.filter fun e => decide (home e.1.page = p) && keptKey e.1) ++ s.tableValues p

/-- Has an engine's record been written since cold start or the last CLEAR, in place or in the journal (R333, R334)? -/
def State.caveWritten (s : State) (p : Nat) : Bool :=
  (s.journal.any fun b => decide (b.page = p)) || (Assoc.find id p s.cave).isSome

/-- Has an engine a change to record, or a rewrite due (R330)? Its fields that a reset has set count once it restores. -/
def State.caveDue (s : State) (p : Nat) : Bool :=
  !s.resetting p && decide (p ∉ s.hbmRestore) &&
    (decide (p ∈ s.caveDirty) || decide (s.keptValues p ≠ (Assoc.find id p s.caveBase).getD []))

/-- What an engine's kept fields hold now is what its next change is told from. -/
def State.caveRebase (s : State) (p : Nat) : State :=
  { s with
    caveDirty := s.caveDirty.filter fun q => decide (q ≠ p)
    caveBase := Tab.put p (s.keptValues p) s.caveBase }

/-! ### The journal (R331) -/

/-- Batch slots of the journal. -/
abbrev journalSlots : Nat := 4

/-- CAVE STATUS.JOURNAL and JOURNAL_WAIT. -/
def State.journalStatus (s : State) : State :=
  (s.put pgCave 0 F.caveStatusJournal s.journal.length).put pgCave 0 F.caveStatusJournalWait (ofBool !s.caveWait.isEmpty)

/-- An engine's batch is written into a journal slot, or waits for one. Its first record adds to USED: how many units it
takes is the device's own affair (R328). -/
def State.caveWrite (s : State) (p : Nat) : State :=
  if s.journal.length < journalSlots then
    let s1 := if s.caveWritten p then s
      else
        let (v, s') := s.draw
        s'.put pgCave 0 F.caveUsedUnits (satNat 12 (s.get pgCave 0 F.caveUsedUnits + 1 + v))
    (({ s1 with
      journal := s1.journal ++ [{ page := p, values := s.keptValues p }]
      caveWait := s1.caveWait.filter fun q => decide (q ≠ p) } : State).caveRebase p).journalStatus
  else ({ s with caveWait := if p ∈ s.caveWait then s.caveWait else s.caveWait ++ [p] } : State).journalStatus

/-- A batch is copied into place, its slot is free, and the first change that waits takes it. -/
def State.journalCopy (s : State) : State :=
  match s.journal with
  | [] => s
  | b :: rest =>
    let s1 := { s with
      cave := Tab.put b.page { written := true, sealOk := true, values := b.values } s.cave
      journal := rest }
    match s1.caveWait with
    | p :: _ => s1.caveWrite p
    | [] => s1.journalStatus

/-- At restore, the batches of an engine are copied into place first. -/
def State.journalFlush (s : State) (p : Nat) : State :=
  let s1 := match s.journal.reverse.find? fun b => decide (b.page = p) with
    | some b => { s with cave := Tab.put p { written := true, sealOk := true, values := b.values } s.cave }
    | none => s
  { s1 with
    journal := s1.journal.filter fun b => decide (b.page ≠ p)
    caveWait := s1.caveWait.filter fun q => decide (q ≠ p) }.journalStatus

/-- CAVE_RECORD_WRITE (R330): the batch of an engine with a change is written. -/
def execCaveRecordWrite (page : Fin 4096) (s : State) : Host.Outcome State Fault Refusal :=
  let p := home page
  .next (if populated p && s.caveDue p then s.caveWrite p else s)

/-- CAVE_JOURNAL_COPY (R331). -/
def execCaveJournalCopy (s : State) : Host.Outcome State Fault Refusal := .next s.journalCopy

/-! ### Table images (R332) -/

/-- Does an engine hold its large tables as an image? -/
def hasImage (p : Nat) : Bool :=
  decide (p = pgFlow ∨ p = pgAsh ∨ (pgIpp 0 ≤ p ∧ p ≤ pgIpp 7) ∨ (pgFab 0 ≤ p ∧ p ≤ pgFab 15))

/-- Is a value part of its engine's image? -/
def imageKey (k : Key) : Bool :=
  decide (k.slot = tableSlot) ||
    decide (k.page = pgFlow ∧ 0x0A0 * 32 ≤ k.slot ∧ k.slot < 0x0C0 * 32) ||
    decide (k.page = pgAsh ∧ 0x094 * 32 ≤ k.slot ∧ k.slot < 0x098 * 32) ||
    (decide (pgIpp 0 ≤ k.page ∧ k.page ≤ pgIpp 7 ∧ 0x284 * 32 ≤ k.slot)) ||
    (decide (pgFab 0 ≤ k.page ∧ k.page ≤ pgFab 15 ∧ 0x104 * 32 ≤ k.slot ∧ k.slot < 0x110 * 32))

/-- The entry of an image that holds a value: three flows to an entry of FLOWWIN, else one cell (log entry 25). -/
def imageEntry (k : Key) : Nat := if k.page = pgFlow then k.cell / 3 else k.cell

/-- CAVE STATUS shows which images are CURRENT. -/
def State.imageStatus (s : State) : State :=
  let all := fun (ps : List Nat) => ofBool (ps.all fun p => decide (p ∈ s.imagesCurrent))
  (((s.put pgCave 0 F.caveStatusFlowCurrent (all [pgFlow])).put pgCave 0 F.caveStatusAshCurrent (all [pgAsh])).put pgCave 0
    F.caveStatusIppCurrent (all ((List.range 8).map pgIpp))).put pgCave 0 F.caveStatusFabCurrent (all ((List.range 16).map pgFab))

/-- IMAGE_WRITE_DONE (R332): an image stands in HBM in full, with every change made before then. -/
def execImageWriteDone (page : Fin 4096) (s : State) : Host.Outcome State Fault Refusal :=
  let p := page.val
  .next (
    if hasImage p && decide (s.hbm = .ready) then
      ({ s with
        imagesCurrent := if p ∈ s.imagesCurrent then s.imagesCurrent else p :: s.imagesCurrent
        imageBad := s.imageBad.filter fun e => decide (e.1 ≠ p)
        cave := s.cave.map fun e => if e.1 = p then (p, { e.2 with values := s.keptValues p }) else e } : State).imageStatus
    else s)

/-! ### CLEAR (R334) -/

/-- A write of CAVE CTRL. -/
def State.writeCaveCtrl (s : State) (w : Nat) : State :=
  if F.caveCtrlKey.extract w ≠ 0x5E7A then s.setErr pgCave errBadValue
  else if !bit w 0 then s
  else
    let s1 := { s with cave := [], journal := [], imagesCurrent := [], imageBad := [] }.put pgCave 0 F.caveUsedUnits 0
    let s2 := allPages.foldl State.caveRebase s1
    s2.caveWait.foldl State.caveWrite s2.imageStatus

/-- CAVE_CLEAR (R334). -/
def execCaveClear (m : Fin 8) (w : Word) (s : State) : Host.Outcome State Fault Refusal :=
  let w' := withBit w.toNat 0
  .next (s.write m pgCave F.caveCtrlClear.off w' fun s => s.writeCaveCtrl w')

/-! ### Restoring (R333, R11) -/

/-- The tables of an engine are emptied, and the device allocations that they held are released (R11). -/
def State.emptyTables (s : State) (p : Nat) : State :=
  let s1 := { s with allocs := s.allocs.filter fun a => decide (a.owner.1 ≠ p) }
  if p = pgFlow then { s1 with xp := [], xpOld := [], runs := [] }
  else if p = pgAsh then { s1 with audRuns := [], routes := [] }
  else if p = pgProf then { s1 with profCells := [] }
  else s1

/-- The engine starts INERT: every kept field takes its cold value but for R11's list. -/
def State.startInert (s : State) (p : Nat) : State :=
  ((s.emptyTables p).coldRegs p).putReady p false causeInert

/-- A channel run as a record holds it. -/
def audRunOf (f v : Nat) : AudRun :=
  { flow := f, egress := bit v 16, base := v / 2 ^ 17, count := v % 2 ^ 16 }

/-- The values of a record become the active copies; all else of the page is as after its reset. -/
def State.loadRecord (s : State) (p : Nat) (v : List (Key × Nat)) : State :=
  let regs := (s.coldRegs p).regs
  let plain := v.filter fun e => decide (e.1.slot ≠ tableSlot)
  let tables := v.filter fun e => decide (e.1.slot = tableSlot)
  let s1 := { s with regs := plain.foldl (fun r e => Assoc.set Key.code e.1 e.2 r) regs }
  if p = pgFlow then { s1 with xp := tables.map fun e => (e.1.cell, xpDecode e.2), xpOld := [] }
  else if p = pgAsh then { s1 with audRuns := tables.map fun e => audRunOf e.1.cell e.2 }
  else s1

/-- Entries of an image that fail: their flows, routes or slots take cold values, LOST.IMAGE counts each, one record names the
first (R333). -/
def State.dropImage (s : State) (p : Nat) : State :=
  match (s.imageBad.filter fun e => decide (e.1 = p)).map Prod.snd with
  | [] => s
  | e :: l =>
    let n := s.get pgCave 0 F.caveLostImage + l.length + 1
    (s.put pgCave 0 F.caveLostImage (satNat 16 n)).fault fltConfigUpset respNone 0 p (l.foldl min e) 0

/-- An engine restores its record (R333). -/
def State.restoreRecord (s : State) (p : Nat) (r : CaveRecord) : State :=
  let bad := (s.imageBad.filter fun e => decide (e.1 = p)).map Prod.snd
  let v := r.values.filter fun e => !(imageKey e.1 && decide (imageEntry e.1 ∈ bad))
  let s1 := ((s.loadRecord p v).dropImage p).put p 0 F.hdrReadyRestored 1
  let hold := decide (s.get p 0 F.hdrRestorePolicyPolicy = 1)
  let s2 := if hold && decide (p = pgFlow) then s1.flows.foldl (fun s f => s.put pgFlow f F.flowwinCtx0En 0) s1 else s1
  s2.resumeReady p !hold

/-- A record that fails its seal: cold values, INERT, a CONFIG_UPSET fault; how many of its units failed is open. -/
def State.loseRecord (s : State) (p : Nat) : State :=
  let (v, s1) := (s.startInert p).draw
  (s1.put pgCave 0 F.caveLostUnits (satNat 16 (s1.get pgCave 0 F.caveLostUnits + 1 + v))).fault fltConfigUpset respNone 0 p
    fltWhole 0

/-- What an engine restores at the end of its reset (R333). -/
def State.restoreKept (s0 : State) (p : Nat) : State :=
  let s := s0.journalFlush p
  if s.get p 0 F.hdrRestorePolicyPolicy = 2 then s.startInert p
  else match Assoc.find id p s.cave with
    | none => s.startInert p
    | some r =>
      if !r.sealOk then s.loseRecord p
      else if hasImage p && decide (p ∉ s.imagesCurrent) then s.startInert p
      else if hasImage p && decide (s.hbm ≠ .ready) then
        { s with hbmRestore := if p ∈ s.hbmRestore then s.hbmRestore else p :: s.hbmRestore }.putReady p false
          causeWaitDependency
      else s.restoreRecord p r

/-- The end of an engine's reset: it restores, and what it holds then is no change of its own. -/
def State.restore (s : State) (p : Nat) : State := (s.restoreKept p).caveRebase p

/-- HBM is READY: the engines that wait for their image restore, and those that wait for HBM are looked at again. -/
def State.hbmWake (s : State) : State :=
  let ps := s.hbmRestore
  (ps.foldl State.restore { s with hbmRestore := [] }).wake

/-! ### Parity of configuration registers (R39) -/

/-- A register that failed parity takes the value its record holds, or that its pending rewrite carries: the one it had. With
no record whose seal holds, what it reads is open. -/
def State.parityReload (s : State) (p c : Nat) (f : Field) : State :=
  let sound := match Assoc.find id (home p) s.cave with
    | some r => r.sealOk
    | none => s.journal.any fun b => decide (b.page = home p)
  if sound then s
  else
    let (v, s1) := s.draw
    s1.put p c f v

/-- CONFIG_PARITY_ERROR (R39): a configuration field fails parity; it is reloaded, ERR.PARITY is set, a fault recorded. -/
def execConfigParityError (page : Fin 4096) (cell off lo : Nat) (s : State) : Host.Outcome State Fault Refusal :=
  let p := page.val
  .next (match fieldAtSlot p (off * 32 + lo) with
    | some f =>
      if populated p && decide (f.cls ≠ .none) then
        ((s.parityReload p cell f).setErr (home p) errParity).fault fltConfigUpset respNone 0 (home p)
          (if windowed p off then cell else fltWhole) 0
      else s
    | none => s)

/-- CONFIG_COMPARE_PASS (R330): every record agrees with its registers or has its rewrite pending, so the pass finds nothing
to reload. A register that a parity error has left with another value is reloaded by that error's own command. -/
def execConfigComparePass (s : State) : Host.Outcome State Fault Refusal := .next s

end Sys2Proof.Machine
end

