-- ==== Sys2Proof/Machine/Dev.lean ====
section
/-! DEFINITION. The device pages (R5, R43 to R52, R323 to R326, R397 to R403): firmware, HBM, the BAR2 window, the device region, the
master ports, remapping, the fault log's cover, clock monitors, memory errors, checks on the datapath. -/

namespace Sys2Proof.Machine

/-! ### Firmware (R325, R5) -/

/-- Bytes of the firmware image region of working SRAM. -/
abbrev fwBytes : Nat := 0xC0000

/-- The firmware takes a state, which STATUS.ENG shows. -/
def State.putFw (s : State) (f : FwState) : State :=
  ({ s with fw := f }).putStatBits pgDev 16 3
    (match f with | .missing => 0 | .verifying => 1 | .bad => 2 | .running => 3)

/-- A write of FW_DATA: the word is stored and FW_ADDR advances; a write beyond the image region is discarded. -/
def State.writeFwData (s : State) (w : Nat) : State :=
  let a := 4 * s.get pgDev 0 F.devFwAddrAddr
  if a < fwBytes then
    { s with mem := Memory.writeBytes s.mem a (leBytes 4 w) }.put pgDev 0 F.devFwAddrAddr (a / 4 + 1)
  else s.setErr pgDev errBadValue

/-- FW_DATA_WRITE (R325). -/
def execFwDataWrite (m : Fin 8) (w : Word) (s : State) : Host.Outcome State Fault Refusal :=
  .next (s.write m pgDev F.devFwDataWord.off w.toNat fun s => s.writeFwData w.toNat)

/-- A write of FW_CTRL: GO starts verification; while one runs, or while firmware runs, it has no effect (R325). -/
def State.writeFwCtrl (s : State) (w : Nat) : State :=
  if bit w 0 && decide (s.fw = .missing ∨ s.fw = .bad) then { s.putFw .verifying with fwAtReset := false } else s

/-- FW_GO (R325). -/
def execFwGo (m : Fin 8) (s : State) : Host.Outcome State Fault Refusal :=
  .next (s.write m pgDev F.devFwCtrlGo.off 1 fun s => s.writeFwCtrl 1)

/-- FLT STATUS.COVERED follows COVER; UNCOVERED is set when it falls (R321, R323). -/
def State.coverStatus (s : State) : State :=
  let all := [F.fltCoverSupply, F.fltCoverCfgCmp, F.fltCoverLockstep, F.fltCoverClkmon, F.fltCoverScrub, F.fltCoverEcc,
    F.fltCoverSeals].all fun f => s.flag pgFlt 0 f
  let was := s.flag pgFlt 0 F.fltStatusCovered
  let s1 := s.put pgFlt 0 F.fltStatusCovered (ofBool all)
  if was && !all then s1.raise pgFlt 17 else s1

/-- Firmware load sets every bit of COVER (R321). -/
def State.coverAll (s : State) : State :=
  ([F.fltCoverSupply, F.fltCoverCfgCmp, F.fltCoverLockstep, F.fltCoverClkmon, F.fltCoverScrub, F.fltCoverEcc,
    F.fltCoverSeals].foldl (fun s f => s.put pgFlt 0 f 1) s).coverStatus

/-- The firmware runs: PAU and HKC are READY, HBM asks for its training, engines that waited for firmware are looked at. -/
def State.fwRuns (s : State) (image : Bytes) : State :=
  let s1 := ({ s with fwHash := sha256 image }.putFw .running).put pgDev 0 F.devFwVerVersion (Config.firmwareVersion image)
  let s2 := if s.fwAtReset then s1 else s1.coverAll
  let s3 := ((s2.putReady pgPau true causeNone).putReady pgHkc true causeNone).wake
  if s3.hbm = .untrained ∧ s3.asks pgDev .hbm = false then (s3.postPower pgDev .hbm).1 else s3

/-- Verification ends (R5, R325). After a reset an image that fails leaves the pair in the boot ROM (R53). -/
def State.fwVerified (s : State) : State :=
  let image := Memory.readBytes s.mem 0 fwBytes
  if Config.signatureValid image then s.fwRuns image
  else s.putFw (if s.fwAtReset then .missing else .bad)

/-- FW_VERIFY_DONE (R325). -/
def execFwVerifyDone (s : State) : Host.Outcome State Fault Refusal :=
  .next (if s.fw = .verifying then s.fwVerified else s)

/-! ### HBM training (R326, R403) -/

/-- A channel is FAULTED; the first rise sets HBM_CH. -/
def State.hbmFaulted (s : State) (ch : Nat) : State :=
  if s.flag pgDev ch F.devHbmChStatusFaulted then s
  else (s.put pgDev ch F.devHbmChStatusFaulted 1).raise pgDev 17

/-- Training ends: READY or FAILED; its grant is released. -/
def State.hbmTrained (s : State) (pass : Bool) (failed : List (Fin 32)) : State :=
  let s1 := failed.foldl (fun s (ch : Fin 32) => s.hbmFaulted ch) (s.releasePower pgDev .hbm)
  if pass then ({ s1 with hbmStored := true }.putHbm .ready).hbmWake else s1.putHbm .failed

/-- HBM_TRAINING_DONE (R326). -/
def execHbmTrainingDone (pass : Bool) (failed : List (Fin 32)) (s : State) : Host.Outcome State Fault Refusal :=
  .next (if s.hbm = .training then s.hbmTrained pass failed else s)

/-! ### Writes into HBM (R197, R301, R402, R425) -/

/-- A lead with a partner sends a BAR2 or DMA write into HBM on (R301). -/
def State.mirrorHbm (s : State) (m a : Nat) (b : Bytes) : State :=
  if s.role = roleLead ∧ s.paired = true ∧ (m = 0 ∨ m = 2) then s.ordinary (.mirrorMemory a b) else s

/-- Does a range lie inside T4? -/
def inHbm (a n : Nat) : Bool := decide (hbmBase ≤ a ∧ a + n ≤ hbmBase + hbmSize)

/-- HBM_WRITE (R197): a master's write into HBM; dropped in the device region or a guarded lease, an error where HBM is not
READY or the address is no part of T4. -/
def execHbmWrite (m : Fin 8) (addr : Nat) (bytes : List Byte) (s : State) : Host.Outcome State Fault Refusal :=
  .next (
    if s.controlReset || !s.masterOpen m || !inHbm addr bytes.length || !s.targetOpen .hbm then s.writeError m
    else (s.pokeBytes m addr bytes).mirrorHbm m addr bytes)

/-! ### BAR2 (R398, R399, R425) -/

/-- The internal address of a BAR2 offset. -/
def State.windowAt (s : State) (off : Nat) : Nat := hbmBase + s.get pgDev 0 F.devHbmwinOffsetMb * 2 ^ 20 + off

/-- Bytes of BAR2. -/
abbrev bar2Size : Nat := 0x10000000

/-- Does PCI Express reach BAR2 now? -/
def State.bar2Open (s : State) (off len : Nat) : Bool :=
  s.masterOpen 0 && !s.controlReset && decide (off + len ≤ bar2Size)

/-- A write of HBMWIN, with whether a BAR2 access is still in the matrix. -/
def State.writeHbmwin (s : State) (w : Nat) (inFlight : Bool) : State :=
  let s1 := s.writeFields pgDev 0 false w (fieldsAt pgDev F.devHbmwinOffsetMb.off)
  if inFlight then s1.setErr pgDev 18 else s1

/-- HBMWIN_WRITE (R398, R399). -/
def execHbmwinWrite (m : Fin 8) (w : Word) (inFlight : Bool) (s : State) : Host.Outcome State Fault Refusal :=
  .next (s.write m pgDev F.devHbmwinOffsetMb.off w.toNat fun s => s.writeHbmwin w.toNat inFlight)

/-- BAR2_READ (R399): every earlier BAR2 write has completed, since a command is one step. -/
def execBar2Read (off len : Nat) (s : State) : Host.Outcome State Fault Refusal :=
  .next (match (if s.bar2Open off len then s.readBytes (s.windowAt off) len else none) with
    | some b => (s.emit (.read 0 b)).answer 0 (.data (leValue b))
    | none => s.answer 0 .error)

/-- Bytes that PCI Express writes from an address upward, where their byte enables are set. -/
def State.pokeEnabled (s : State) (a : Nat) : Bytes → List Bool → State
  | [], _ => s
  | b :: t, e => (if e.headD true then s.pokeByte 0 a b else s).pokeEnabled (a + 1) t (e.drop 1)

/-- BAR2_WRITE (R398, R425); where HBM is not READY it is discarded with HBM_UNTRAINED. -/
def execBar2Write (off : Nat) (bytes : List Byte) (enables : List Bool) (s : State) : Host.Outcome State Fault Refusal :=
  .next (
    if !s.bar2Open off bytes.length then s.writeError 0
    else if !s.targetOpen .hbm then s.setErr pgDev 19
    else
      let a := s.windowAt off
      let s1 := s.pokeEnabled a bytes enables
      if enables.all id then s1.mirrorHbm 0 a bytes
      else (bytes.zip (enables ++ List.replicate bytes.length true)).zipIdx.foldl (fun s x =>
        if x.1.2 then s.mirrorHbm 0 (a + x.2) [x.1.1] else s) s1)

/-! ### The device region (R400, R401) -/

/-- Is a write of BASE_GIB refused? -/
def State.baseRefused (s : State) (g : Nat) : Bool :=
  let b := hbmBase + g * 2 ^ 30
  decide (g < 1 ∨ 31 < g) ||
    (decide (s.deviceBase < b) && s.allocs.any fun a => decide (a.base < b)) ||
    (decide (b < s.deviceBase) && s.leases.any fun l => decide (b < l.base + l.size))

/-- A write of DEVREG. -/
def State.writeDevreg (s : State) (w : Nat) : State :=
  let g := F.devDevregBaseGib.extract w
  if s.baseRefused g then s.setErr pgDev errBadValue else s.put pgDev 0 F.devDevregBaseGib g

/-- DEVREG_WRITE (R401). -/
def execDevregWrite (m : Fin 8) (w : Word) (s : State) : Host.Outcome State Fault Refusal :=
  .next (s.write m pgDev F.devDevregBaseGib.off w.toNat fun s => s.writeDevreg w.toNat)

/-! ### Master ports (R43, R44, R51, R52) -/

/-- The range of a master's outstanding limit. -/
def limitOk (c v : Nat) : Bool :=
  match c with
  | 0 => decide (1 ≤ v ∧ v ≤ 96)
  | 2 => decide (1 ≤ v ∧ v ≤ 96)
  | 5 => decide (1 ≤ v ∧ v ≤ 96)
  | 6 => decide (1 ≤ v ∧ v ≤ 96)
  | 7 => decide (1 ≤ v ∧ v ≤ 2)
  | _ => decide (v = masterLimit c)

/-- What a reset of a master's port cuts: a memory job of the check-value units (read by M2), the Press job that runs (M5), the
frames of the management SPI (M7). -/
def State.masterCut (s : State) (c : Nat) : State :=
  match c with
  | 2 => (List.range 16).foldl (fun s n => s.cvuCut n 1) s
  | 5 => s.pressEnds (State.pressFails 6)
  | 7 => { s with spiPending := [], spiIssued := 0 }
  | _ => s

/-- The locks that a master holds are released (R32). -/
def State.releaseLocks (s : State) (c : Nat) : State :=
  allPages.foldl (fun s p =>
    if s.flag p 0 F.hdrLockHeld && decide (s.get p 0 F.hdrLockOwner = c) then s.put p 0 F.hdrLockHeld 0 else s) s

/-- A master's port is reset: its locks are released, and new requests complete with an error until it is QUIESCED
(R32, R52). -/
def State.masterReset (s : State) (c : Nat) : State :=
  ((s.releaseLocks c).put 0x009 c F.mtxMstStatusQuiesced 0).masterCut c

/-- Bytes of a beat of the matrix, 256 bits. -/
abbrev beatBytes : Nat := 32

/-- The write bursts in flight at a master's reset: the beats that their target has accepted are written, the others go with
their strobes cleared; bursts and reads count as outstanding until they have completed, no more than the master's limit and the
tracker let it hold beside those of an earlier reset (R44, R52). -/
def State.cutBursts (s : State) (c : Nat) (bursts : List BurstCut) (reads : Nat) : State :=
  let room := s.trackerRoom c
  let bs := bursts.take room
  (bs.foldl (fun s b => s.pokeBytes c b.addr (b.bytes.take (beatBytes * b.accepted))) s).put 0x009 c
    F.mtxMstStatusOutstanding (s.get 0x009 c F.mtxMstStatusOutstanding + min room (bs.length + reads))

/-- A write of MST_CTRL by a master. -/
def State.writeMstCtrl (s : State) (m c w : Nat) : State :=
  if bit w 31 && decide (c = m) then s.setErr 0x009 errBadValue
  else
    let v := F.mtxMstCtrlLimit.extract w
    let s1 := if limitOk c v then s.put 0x009 c F.mtxMstCtrlLimit v else s.setErr 0x009 errBadValue
    if bit w 31 then s1.masterReset c else s1.spiIssue

/-- MASTER_RESET (R52): a write of MST_CTRL with RESET at the selected master, with what it has in flight. -/
def execMasterReset (m : Fin 8) (x : ResetWrite) (s : State) :
    Host.Outcome State Fault Refusal :=
  let w' := withBit x.word.toNat 31
  .next (s.write m 0x009 F.mtxMstCtrlReset.off w' fun s =>
    let c := s.cellOf m 0x009 F.mtxMstCtrlReset.off
    (if c = m then s else s.cutBursts c x.bursts x.reads).writeMstCtrl m c w')

/-- MASTER_QUIESCED (R52): nothing of the master is outstanding; what a target still holds is abandoned. -/
def execMasterQuiesced (n : Fin 8) (s : State) : Host.Outcome State Fault Refusal :=
  .next ((s.put 0x009 n F.mtxMstStatusQuiesced 1).put 0x009 n F.mtxMstStatusOutstanding 0)

/-- PCIE_RESET (R51, R52): a hot reset or a link loss resets the port of M0, with what M0 has in flight; a lost link is down. A
control or a warm reset in progress, which includes it, absorbs it (R53). -/
def execPcieReset (x : PortLoss) (s : State) : Host.Outcome State Fault Refusal :=
  let s1 : State := { s with pcieUp := s.pcieUp && !x.linkLost }
  .next (if s.controlReset || s.warmReset then s1 else (s1.cutBursts 0 x.bursts x.reads).masterReset 0)

/-- PCIE_LINK_UP (R324). -/
def execPcieLinkUp (s : State) : Host.Outcome State Fault Refusal := .next { s with pcieUp := true }

/-! ### Matrix errors (R48) -/

/-- The transaction that a target has not completed completes with an error: a read answers it to its master, a PCI Express
write has it recorded in DEV.ERR, and a posted write of the management SPI to that target is gone (R48). -/
def State.timedOut (s : State) (t : Nat) (victim : Option TimedOut) : State :=
  match victim with
  | none => s
  | some (.read m) => s.answer m .error
  | some (.write m) => s.writeError m
  | some .spi => { s with
      spiPending := s.spiPending.eraseP fun e => decide ((targetOf e.1).map Target.number = some t)
      spiIssued := if s.spiPending.any fun e => decide ((targetOf e.1).map Target.number = some t) then s.spiIssued - 1 else s.spiIssued }

/-- TARGET_TIMEOUT (R48): counted at the target and recorded with its number; the transaction ends. -/
def execTargetTimeout (x : Timeout) (s : State) : Host.Outcome State Fault Refusal :=
  .next (((s.timedOut x.target x.victim).bump 0x00A x.target F.mtxTgtStatusTimeouts).fault fltInterconnect respNone 0 pgMtx
    fltWhole x.target)

/-- MATRIX_PARITY_ERROR (R48). -/
def execMatrixParityError (t : Fin 8) (s : State) : Host.Outcome State Fault Refusal :=
  .next ((s.bump 0x00A t F.mtxTgtStatusParity).fault fltInterconnect respNone 0 pgMtx fltWhole t)

/-! ### REMAP (R49, R50) -/

/-- A write of MTX CFG: REMAP waits until no transaction to T0 or T1 is outstanding; without MAP_MODE it has no effect. -/
def State.writeRemap (s : State) (w : Nat) : State :=
  if s.mapMode then { s with remapPending := some (bit w 0) } else s

/-- REMAP_WRITE (R49). -/
def execRemapWrite (m : Fin 8) (w : Word) (s : State) : Host.Outcome State Fault Refusal :=
  .next (s.write m pgMtx F.mtxCfgRemap.off w.toNat fun s => s.writeRemap w.toNat)

/-- REMAP_APPLY (R50). -/
def execRemapApply (s : State) : Host.Outcome State Fault Refusal :=
  .next (match s.remapPending with
    | some b => { s with remapPending := none }.put pgMtx 0 F.mtxCfgRemap (ofBool b)
    | none => s)

/-! ### Clock monitors (R22 to R24) -/

/-- The page and index of a clock domain's owner, and whether its monitor is armed. A domain that no one engine owns is
reported for the device. -/
def State.clockOwner (s : State) (d : Nat) : Nat × Nat × Bool :=
  let lane := fun (p l : Nat) => (p, l, s.flag p l F.laneStatusCdrLock)
  if d < 96 then lane (pgSdirx d) 0
  else if d < 192 then (pgSditx (d - 96), fltWhole, s.running (pgSditx (d - 96)))
  else if d < 224 then lane (pgIpp ((d - 192) / 4)) ((d - 192) % 4)
  else if d < 232 then (pgIpp (d - 224), fltWhole, s.running (pgIpp (d - 224)))
  else if d < 296 then lane (pgFab ((d - 232) / 4)) ((d - 232) % 4)
  else if d < 312 then (pgFab (d - 296), fltWhole, s.running (pgFab (d - 296)))
  else if d < 316 then lane pgClasp (d - 312)
  else if d = 316 then (pgClasp, fltWhole, s.flag pgClasp 0 F.hdrReady)
  else if d < 349 then (pgAup (d - 317), fltWhole, s.running (pgAup (d - 317)))
  else if d < 351 then (pgDev, fltWhole, decide (s.hbm = .ready ∨ s.hbm = .training))
  else if d = 351 then (pgCore, fltWhole, true)
  else if d = 352 then (fltWhole, fltWhole, (List.range 16).any fun n => s.running (pgCnv n) || s.running (pgCpo n))
  else if d < 357 then (fltWhole, fltWhole, true)
  else if d < 361 then (pgTb (d - 357), fltWhole, s.running (pgTb (d - 357)))
  else if d = 361 then (fltWhole, fltWhole, (List.range 8).any fun n => s.running (pgIpp n))
  else if d = 362 then (pgHkc, fltWhole, true)
  else if d = 363 then (pgKey, fltWhole, true)
  else (pgCave, fltWhole, true)

/-- An armed monitor's report: a CLOCK record with the domain number. -/
def State.clockReport (s : State) (d : Nat) : State :=
  let (p, i, armed) := s.clockOwner d
  if armed && s.flag pgFlt 0 F.fltCoverClkmon then (s.fault fltClock respNone 0 p i d).touch (touchClock d) else s

/-- CLOCK_STOP (R24). -/
def execClockStop (domain : Fin 365) (s : State) : Host.Outcome State Fault Refusal := .next (s.clockReport domain)

/-- CLOCK_FREQ_ERROR (R24). -/
def execClockFreqError (domain : Fin 365) (s : State) : Host.Outcome State Fault Refusal := .next (s.clockReport domain)

/-! ### Memory errors (R322, R403) -/

/-- A multi-bit error of HBM: UE, FAULTED where it repeats at one address, MEM_UE unless an engine records it. Which entry of a
table image an address of the device region holds, if any, is not documented (R328). -/
def State.hbmMulti (s : State) (ch a : Nat) (recorded : Bool) : State :=
  let s1 := s.bumpSat pgDev ch F.devHbmChStatusUe
  let s2 := if (ch, a) ∈ s1.hbmUe then s1.hbmFaulted ch else { s1 with hbmUe := (ch, a) :: s1.hbmUe }
  let s3 := if decide (s2.deviceBase ≤ a) && !s2.imagesCurrent.isEmpty then
      let (v, s') := s2.draw
      let (e, s'') := s'.draw
      if v % 2 = 1 then
        { s'' with imageBad := (s''.imagesCurrent.getD (v / 2 % s''.imagesCurrent.length) 0, e % 4096) :: s''.imageBad }
      else s''
    else s2
  let s4 := match s3.allocs.find? fun x => decide (x.base ≤ a ∧ a < x.base + x.size) with
    | some x => s3.touch (if x.owner.1 = pgFlow then x.owner.2 else touchPage x.owner.1)
    | none => s3
  if recorded then s4 else s4.fault fltMemUe respNone 0 pgDev ch 0

/-- A multi-bit error of a working memory; one of the Cave breaks the seal of a record, which one is open. -/
def State.sramMulti (s : State) (p : Nat) : State :=
  let s1 := if p = pgCave ∧ s.cave ≠ [] then
      let (v, s') := s.draw
      { s' with cave := s'.cave.zipIdx.map fun x =>
          if x.2 = v % s'.cave.length then (x.1.1, { x.1.2 with sealOk := false }) else x.1 }
    else s
  s1.fault fltMemUe respNone 0 p fltWhole 0

/-- MEM_ECC_ERROR (R403, R322): an error of one bit is corrected and counted, in HBM by channel. -/
def execMemEccError (x : EccEvent) (s : State) : Host.Outcome State Fault Refusal :=
  .next (if !s.flag pgFlt 0 F.fltCoverEcc then s
    else match x with
      | .hbm ch multi a recorded =>
        if multi then s.hbmMulti ch a recorded else s.bumpSat pgDev ch F.devHbmChStatusCe
      | .sram p multi => if multi && populated p then s.sramMulti p else s)

/-! ### Checks on the datapath (R307, R175, R209) -/

/-- DATAPATH_CHECK_FAIL (R307): a DATAPATH_LOCAL record; a line seal sets SEAL_ERR of its flow, a faulted cell stops
producing, a faulted layer is transparent, a faulted bank is silent. -/
def execDatapathCheckFail (x : CheckFail) (s : State) : Host.Outcome State Fault Refusal :=
  .next (match x with
    | .flowSeal f =>
      if s.flag pgFlt 0 F.fltCoverSeals && s.flag pgFlow f F.flowwinCtx6SealEn then
        (s.put pgFlow f F.flowwinCtx6SealErr 1).fault fltDatapath respNone 0 pgFlow f 0
      else s
    | .cnvCell n c => (s.cnvCellFault n c).fault fltDatapath respNone 0 (pgCnv n) c 0
    | .cpoCell n c => (s.put (pgCpo n) c F.cpoLStatusFaulted 1).fault fltDatapath respNone 0 (pgCpo n) c 0
    | .ashBank b => (s.ashBankFault b).fault fltDatapath respNone 0 pgAsh b 0)

/-! ### Pins (R421, R424) -/

/-- THERM_ALERT (R424): THERM_N is low until POR_N falls. -/
def execThermAlert (s : State) : Host.Outcome State Fault Refusal :=
  .next (if s.thermLow then s else ({ s with thermLow := true }).emit (.pin "THERM_N" false))

/-- EXTEST (R421). -/
def execExtest (s : State) : Host.Outcome State Fault Refusal := .next { s with extest := true }

/-! ### MSI-X (R40, R26) -/

/-- A vector is unmasked: a pending message is sent where some page on the vector still has a masked status. -/
def State.unmask (s : State) (v : Nat) : State :=
  if Tab.at false s.msixPending v then
    let s1 := { s with msixPending := Tab.del v s.msixPending }
    if allPages.any fun p => decide (s.get (home p) 0 F.hdrIntVecVector = v ∧ s.masked p ≠ 0) then s1.emit (.msix v) else s1
  else s

/-- The pending-bit array of BAR4 (R26). -/
abbrev pbaBase : Nat := 0x2000

/-- Words of the pending-bit array: one bit for each of the 512 vectors. -/
abbrev pbaWords : Nat := 16

/-- A word of BAR4 as it reads: the MSI-X table, a vector's control word 1 until it is written, or the pending-bit array. -/
def State.readBar4 (s : State) (off : Nat) : Nat :=
  if off < pbaBase then Tab.at (if off / 4 % 4 = 3 then 1 else 0) s.msix (off / 4)
  else
    let n := (off - pbaBase) / 4
    if n < pbaWords then (List.range 32).foldl (fun v i => v + ofBool (Tab.at false s.msixPending (32 * n + i)) * 2 ^ i) 0
    else 0

/-- A word of the MSI-X table; writing a vector's control word with MASK = 0 unmasks it. -/
def State.writeMsix (s : State) (n w : Nat) : State :=
  let v := n / 4
  let was := s.vectorMasked v
  let s1 := { s with msix := Tab.put n (if n % 4 = 3 then w % 2 else w) s.msix }
  if decide (n % 4 = 3) && was && !s1.vectorMasked v then s1.unmask v else s1

/-- MSIX_UNMASK (R40): the control word of a vector is written with MASK = 0. -/
def execMsixUnmask (vector : Fin 512) (s : State) : Host.Outcome State Fault Refusal :=
  .next (if s.masterOpen 0 then s.writeMsix (4 * vector + 3) 0 else s)

end Sys2Proof.Machine
end

