-- ==== Sys2Proof/Machine/Resets.lean ====
section
/-! DEFINITION. Resets (R53 to R56, R83, R174, R209, R225, R298, R324, R327, R343, R357, R380, R392, R426): engine, control, warm
and cold. -/

namespace Sys2Proof.Machine

/-! ### What an engine reset begins with (R54) -/

/-- A commit of a unit is cancelled and its event withdrawn, captured or not. -/
def State.withdrawUnit (s : State) (p u : Nat) : State :=
  let s1 := ((s.dropNext p u .cancelled).endUnitEvent p u .cancelled).closeCommit p u
  s1.putUnit p u CommitUnit.idle

/-- Every pending commit of an engine, of its header and its cells, and every page-commit event of the engine that is still in
the schedule, also one that a stop left behind (R38). -/
def State.withdrawCommits (s : State) (p : Nat) : State :=
  let s1 := ((s.units.filter fun e => decide (e.1.page = p)).foldl (fun s e => s.withdrawUnit p e.1.cell) s).withdrawUnit p 0
  (s1.events.filter fun e => decide (e.origin = .page ∧ e.page = p)).foldl (fun s e => s.endEvent e.handle .cancelled) s1

/-- Flows end what they produce; their stores stay, a partial frame is dropped (R112). -/
def State.flowsDown (s : State) : State :=
  s.flows.foldl (fun s f =>
    let s1 := s.dropPartial f
    s1.putRun f { s1.run f with producing := false, partLine := [], path := .none, lost := false }) s

/-- Routes of the shuffler end: their converters are free, their gates gone. -/
def State.routesDown (s : State) : State :=
  let s1 := s.routes.foldl (fun s e =>
    match e.2.asrc with
    | some n => s.unbindAsrc n
    | none => s) s
  { s1 with routes := [], elastic := [] }

/-- An engine stops what it runs; a timebase that is reset by itself only coasts (R70), and one that a warm reset stops
leaves its events to the flush that SCHED's reset ends with (R83). -/
def State.engineDown (s : State) (p : Nat) (warm : Bool) : State :=
  match pageType p with
  | 0x020 =>
    if !s.running p then s
    else if warm then (s.tbStill (p - pgTb 0)).synTbOff (p - pgTb 0)
    else s.tbCoast (p - pgTb 0)
  | 0x022 => { s with syns := Tab.del (p - pgSyn 0) s.syns, synDelay := s.synDelay.filter fun e => decide (e.1.page ≠ p) }
  | 0x040 =>
    let s1 := (s.sdirxStop (p - pgSdirx 0)).eyeReset p
    { s1 with sdiRx := Tab.del (p - pgSdirx 0) s1.sdiRx }
  | 0x041 => (s.sditxStop (p - pgSditx 0)).eyeReset p
  | 0x042 => ((s.ippStop (p - pgIpp 0)).ippClear (p - pgIpp 0)).eyeReset p
  | 0x043 => (s.fabStop p).fabReset p
  | 0x005 =>
    let s1 := ([0, 1, 2, 3].foldl (fun s l => s.putLane p l laneOff) s).eyeReset p
    { s1 with gyls := s1.gyls.filter fun e => decide (e.1.page ≠ p) }
  | 0x050 => s.coreReset
  | 0x051 => s.flowsDown
  | 0x060 => s.cnvClear (p - pgCnv 0) true
  | 0x061 => (s.cpoClear (p - pgCpo 0)).stopPortFlows kindCpo (p - pgCpo 0)
  | 0x070 => s.ashReset.routesDown
  | 0x071 => s.asrcReset (p - pgAsrc 0)
  | 0x072 => s.aupStopped (p - pgAup 0)
  | 0x033 => s.pressReset
  | _ => s

/-- What an engine's reset leaves on its page once its fields have their Warm values. -/
def State.engineMarks (s : State) (p : Nat) : State :=
  match pageType p with
  | 0x030 => s.keyReset
  | 0x031 => s.bezReset
  | 0x072 => { s with aups := Tab.del (p - pgAup 0) s.aups }
  | 0x020 => s.putTb (p - pgTb 0) { s.tb (p - pgTb 0) with phaseErr := 0 }
  | 0x004 => { s.profPreps.foldl State.dropPrep s with profPreps := [], profOp := none, pinSel := none, pinQual := none, pinRetry := none }
  | _ => s

/-- An engine reset begins (R54): RESETTING, commits withdrawn, power and lock released, ERR and INT_STAT clear. -/
def State.resetStart (warm : Bool) (s : State) (p : Nat) : State :=
  let s1 := (s.put p 0 F.hdrStatusResetting 1).putReady p false causeResetting
  let s2 := ((s1.withdrawCommits p).engineDown p warm).dropPower p
  let s3 := (s2.dropShadow p).warmRegs p
  let s4 := { s3 with units := s3.units.filter fun e => decide (e.1.page ≠ p)
                      hbmRestore := s3.hbmRestore.filter fun q => decide (q ≠ p) }
  let s5 := ((s4.put p 0 F.hdrStatusResetting 1).put p 0 F.hdrReady 0).put p 0 F.hdrReadyCause causeResetting
  ((((s5.put p 0 F.hdrErr 0).put p 0 F.hdrIntStat 0).put p 0 F.hdrLockHeld 0).engineMarks p).waive waiveReset (touchPage p)

/-! ### How it ends (R54, R333) -/

/-- KEY after a reset (R380): all it holds is kept; READY follows ROOT. -/
def State.keyRestore (s : State) : State :=
  if s.rootState = rootValid then (s.put pgKey 0 F.hdrReadyRestored 1).putReady pgKey true causeNone
  else if s.caveWritten pgKey then s.putReady pgKey false causeWaitDependency
  else s.putReady pgKey false causeInert

/-- A Bezel cell whose record seal is not valid is UNBOUND, with no Bezel (R206). -/
def State.bezLose (s : State) (c : Nat) : State :=
  ({ s with
    regs := s.regs.filter fun e => !(decide (e.1.page = pgBez ∧ e.1.cell = c ∧ 0x0C0 * 32 ≤ e.1.slot))
    bez := Tab.del c s.bez }).fault fltConfigUpset respNone 0 pgBez c 0

/-- BEZ after a reset (R199, R206): an engine reset keeps every cell; after a warm reset the cells are restored from their records. Which
cells' records a broken seal of the page belongs to is a free value. -/
def State.bezRestore (s0 : State) (warm : Bool) : State :=
  let s := s0.journalFlush pgBez
  match Assoc.find id pgBez s.cave with
  | none => s.putReady pgBez false causeInert
  | some r =>
    let s1 := if r.sealOk || !warm then s
      else
        let (v, s') := s.draw
        ((List.range 16).filter fun c => bit (v % 65535 + 1) c).foldl State.bezLose s'
    (s1.put pgBez 0 F.hdrReadyRestored 1).resumeReady pgBez true

/-- A timebase at the end of its reset: unless it resumes, the counter stops, as RUN = 0 stops it (R70). -/
def State.tbRestored (s0 : State) (k : Nat) : State :=
  let p := pgTb k
  let s := if s0.inert p then s0.putTb k { s0.tb k with freqOfs := 0 } else s0
  if (s.tb k).state = .off then s
  else if s.flag p 0 F.hdrReadyRestored && decide (s.get p 0 F.hdrRestorePolicyPolicy = 0) && s.flag p 0 F.tbCtrlRun then s
  else (s.tbHalt k).synTbOff k

/-- The warm reset ends with the last engine's reset phase. -/
def State.warmEnds (s : State) : State :=
  if s.warmReset && !inertPages.any s.resetting then { s with warmReset := false } else s

/-- The end of an engine's reset phase: RESETTING clears, the engine follows RESTORE_POLICY. -/
def State.resetDone (s : State) (p : Nat) : State :=
  let s1 := (s.put p 0 F.hdrStatusResetting 0).warmEnds
  match pageType p with
  | 0x020 => (s1.restore p).tbRestored (p - pgTb 0)
  | 0x030 => s1.keyRestore.caveRebase p
  | 0x031 => (s1.bezRestore s.warmReset).caveRebase p
  | 0x021 => (s1.restore p).schedReset
  | 0x032 => (s1.restore p).cvuReset (p - pgCvu 0)
  | 0x060 =>
    let s2 := s1.restore p
    if s2.inert p then { s2 with cnvCells := s2.cnvCells.map fun e => if e.1.page = p then (e.1, { e.2 with luts := [] }) else e } else s2
  | 0x061 => (s1.restore p).fenceReset (p - pgCpo 0)
  | _ => s1.restore p

/-- ENGINE_RESET_DONE (R54). -/
def execEngineResetDone (page : Fin 4096) (s : State) : Host.Outcome State Fault Refusal :=
  .next (if populated page && s.resetting page then s.resetDone (home page) else s)

/-! ### Cause (R56) -/

/-- RESET_CAUSE shows one cause, and LOCKSTEP with CONTROL where the fault made the reset. -/
def State.putCause (s : State) (f : Field) (lockstep : Bool) : State :=
  let s1 := [F.devResetCausePor, F.devResetCauseWrstPin, F.devResetCauseWatchdog, F.devResetCauseDevReset,
    F.devResetCauseControl].foldl (fun s g => s.put pgDev 0 g (ofBool (decide (g = f)))) s
  s1.put pgDev 0 F.devResetCauseLockstep (ofBool lockstep)

/-! ### Control reset (R53) -/

/-- Verification starts by itself after a warm or control reset (R53). -/
def State.fwRestart (s : State) : State :=
  let s1 := { s.putFw .verifying with fwAtReset := true }.put pgDev 0 F.devFwVerVersion 0
  (s1.putReady pgPau false causeWaitDependency).putReady pgHkc false causeWaitDependency

/-- The matrix restarts, and with it the pair's page and the DMA's (R55): their pages take their Warm values, REMAP reads 0, what waits in
the matrix is dropped. -/
def State.matrixRestart (s : State) : State :=
  let s1 := [pgMtx, 0x009, 0x00A, 0x00B, pgHkc, pgDma].foldl (fun s p => (s.warmRegs p).put p 0 F.hdrStatusResetting 0) s
  let s2 := [pgMtx, pgDma].foldl (fun s p => (s.put p 0 F.hdrReady 1).put p 0 F.hdrReadyCause causeNone) s1
  { s2.put pgMtx 0 F.mtxCfgRemap 0 with remapPending := none, spiPending := [], spiIssued := 0 }

/-- A control reset begins: housekeeping pair, matrix and page-bus bridge restart; every engine goes on. One in progress, or a
warm reset, absorbs it. -/
def State.controlStart (s : State) (lockstep : Bool) : State :=
  if s.controlReset || s.warmReset then s
  else
    let s1 := (List.range 8).foldl (fun s c => s.masterReset c) s.matrixRestart
    let s2 := { s1 with controlReset := true, powerPaused := some s1.now }
    s2.fwRestart.putCause F.devResetCauseControl lockstep

/-- A request has waited up to the pause; it goes on waiting from now. -/
def PowerReq.resume (r : PowerReq) (pausedAt now : Nat) : PowerReq :=
  { r with waited := r.waited + (pausedAt - r.postedNs), postedNs := now }

/-- The restart ends: the firmware is verified, the ports answer, the PAU grants again. -/
def State.controlEnd (s : State) : State :=
  let s1 := (List.range 8).foldl (fun s c => s.put 0x009 c F.mtxMstStatusQuiesced 1) ({ s with controlReset := false } : State)
  let s2 : State := match s1.powerPaused with
    | some t => { s1 with powerPaused := none, powerQueue := s1.powerQueue.map fun r => r.resume t s1.now }
    | none => s1
  if s2.fw = .verifying then s2.fwVerified else s2

/-- LOCKSTEP_FAULT (R322): recorded, and a control reset follows. -/
def execLockstepFault (s : State) : Host.Outcome State Fault Refusal :=
  .next (if s.flag pgFlt 0 F.fltCoverLockstep then
    (s.fault fltLockstep respNone 0 pgHkc fltWhole 0).controlStart true else s)

/-! ### Warm reset (R53, R327) -/

/-- Pages of the device that restart with their Warm values and need no COMMIT. -/
def devicePages : List Nat := allPages.filter neverInert

/-- Lanes that were UP: they resume with their settings (R327). -/
def State.lanesUp (s : State) : List (Nat × Nat) :=
  (allPages.flatMap fun p => (List.range (laneCount p)).map fun l => (p, l)).filter fun x =>
    decide (s.laneState x.1 x.2 = laneUp)

/-- What the receivers recorded of a LOCKED format. -/
def State.lockRecords (s : State) : Tab SdiRxRun :=
  (s.sdiRx.filter fun e => decide (s.lock e.1 = lockLocked)).map fun e =>
    (e.1, { e.2 with agree := 0, errored := 0, differ := 0, groups := 0 })

/-- State beside the registers that no warm reset keeps. -/
def State.warmClear (s : State) : State :=
  { s with
    latch := [], powerQueue := [], grants := [], powerPaused := none, controlReset := false
    spiError := false, spiPending := [], spiIssued := 0, staged := [], units := []
    xpOld := [], bank := [], frags := [], gates := [], groupTail := [], audioBlocks := [], inputs := []
    rennets := [], rennetOut := false, pressDone := [], pressOvf := false
    coTarget := [], handOver := false, joinDue := false, sendFrom := 0, sendUntil := 0, compareBad := false, timers := [], sealRecords := [], decisions := [], mirrorHeld := [] }

/-- A warm reset begins: every engine's reset phase, the housekeeping pair and the matrix. HBM waits for its retraining. One in
progress absorbs it (R53). -/
def State.warmStart (s : State) (cause : Field) : State :=
  if s.warmReset then s else
  let lanes := s.lanesUp
  let recs := s.lockRecords
  let s1 := inertPages.foldl (State.resetStart true) s
  let s2 := devicePages.foldl (fun s p => ((s.dropShadow p).warmRegs p).put p 0 F.hdrStatusResetting 0) s1.warmClear
  let s3 := [pgDev, pgCave, pgFlt, pgMtx, pgDma].foldl (fun s p => (s.put p 0 F.hdrReady 1).put p 0 F.hdrReadyCause causeNone) s2
  let s4 := (List.range 8).foldl (fun s c => s.put 0x009 c F.mtxMstStatusQuiesced 1) s3.matrixRestart
  let s5 := { s4 with warmReset := true, laneResume := lanes, sdiRx := recs }.putHbm .untrained
  (s5.journalStatus.fwRestart).putCause cause false

/-- WARM_RESET (R327): WRST_N. -/
def execWarmReset (s : State) : Host.Outcome State Fault Refusal := .next (s.warmStart F.devResetCauseWrstPin)

/-- WATCHDOG_EXPIRY (R56). -/
def execWatchdogExpiry (s : State) : Host.Outcome State Fault Refusal := .next (s.warmStart F.devResetCauseWatchdog)

/-! ### Cold reset (R324, R418) -/

/-- The block after POR_N: the straps are sampled; life-cycle fuses, the levels of CO_IN, what has gone out of the block and
the commands that wait are not the device's to lose. -/
def State.coldStart (s : State) (mapMode twinSide : Bool) : State :=
  { State.reset with
    pending := s.pending, free := s.free, out := s.out, coIn := s.coIn, fuses := s.fuses
    mapMode := mapMode, twinSide := twinSide }.lcCold

/-- COLD_RESET (R324). -/
def execColdReset (mapMode twinSide : Bool) (s : State) : Host.Outcome State Fault Refusal :=
  .next (s.coldStart mapMode twinSide)

/-! ### DEV.RESET (R53, R55) -/

/-- A lead sends the reset of an engine on while RESET_MIRROR = 1 (R301). -/
def State.mirrorReset (s : State) (m w : Nat) : State :=
  if s.role = roleLead ∧ s.paired = true ∧ (m = 0 ∨ m = 2 ∨ m = 7) ∧ s.flag pgClasp 0 F.claspCtrlResetMirror = true then
    s.ordinary (.mirror pgDev 0 F.devResetKey.off w)
  else s

/-- An engine reset is requested; a warm reset in progress, which includes it, absorbs it (R53). -/
def State.requestReset (s : State) (m p w : Nat) : State :=
  if p < 0x010 ∨ !populated p then s.setErr pgDev errBadValue
  else if s.resetting p || s.warmReset then s
  else
    let alone := !s.flag pgClasp 0 F.claspCtrlResetMirror && decide (m = 0 ∨ m = 2 ∨ m = 7)
    let s1 := s.mirrorReset m w
    State.resetStart false (if alone then s1.touch (touchPage (home p)) else s1) (home p)

/-- A write of DEV.RESET. -/
def State.writeDevReset (s : State) (m w : Nat) : State :=
  if F.devResetKey.extract w ≠ 0xA5C3 then s.setErr pgDev errBadValue
  else match F.devResetScope.extract w with
    | 1 => s.requestReset m (F.devResetPage.extract w) w
    | 2 => s.controlStart false
    | 3 => s.warmStart F.devResetCauseDevReset
    | _ => s

/-- A write of DEV.RESET with the right KEY. -/
def State.devReset (s : State) (m scope page : Nat) : State :=
  let w := 0xA5C3 * 2 ^ 16 + scope * 2 ^ 14 + page
  s.write m pgDev F.devResetKey.off w fun s => s.writeDevReset m w

/-- DEV_RESET_ENGINE (R54, R55). -/
def execDevResetEngine (m : Fin 8) (page : Fin 4096) (s : State) : Host.Outcome State Fault Refusal :=
  .next (s.devReset m 1 page)

/-- DEV_RESET_CONTROL (R53). -/
def execDevResetControl (m : Fin 8) (s : State) : Host.Outcome State Fault Refusal := .next (s.devReset m 2 0)

/-- DEV_RESET_WARM (R53). -/
def execDevResetWarm (m : Fin 8) (s : State) : Host.Outcome State Fault Refusal := .next (s.devReset m 3 0)

end Sys2Proof.Machine
end

