-- ==== Sys2Proof/Machine/Clasp.lean ====
section
/-! DEFINITION. Twin pairing (R299 to R320): roles, changeover, seals, joining and leaving, heartbeats; supplies (R406, R322). What the lead
sends the shadow stands in Mirror.lean. -/

namespace Sys2Proof.Machine

/-! ### Roles and states (R299, R314) -/

/-- Pairing states. -/
abbrev pairDetached : Nat := 0
abbrev pairCopy : Nat := 1
abbrev pairAlign : Nat := 2
abbrev pairFill : Nat := 3
abbrev pairReady : Nat := 5

/-- Role and pairing state; a change sets STATE_CHANGE. -/
def State.putPair (s : State) (role st : Nat) : State :=
  let s0 := if st = pairAlign then s.startTimer pgClasp 0 timerAlign else s
  let s1 := (s0.put pgClasp 0 F.claspStateRole role).put pgClasp 0 F.claspState st
  if s.role = role ∧ s.pairing = st then s1 else s1.raise pgClasp 16

/-- The pairing state alone. -/
def State.putPairing (s : State) (st : Nat) : State := s.putPair s.role st

/-- The device's own side: 0 A, 1 B. -/
def State.ownSide (s : State) : Nat := ofBool s.twinSide

/-! ### Changeover (R311 to R313) -/

/-- Changeover groups. -/
abbrev groupCount : Nat := 12

/-- CO_FAULT of a side. -/
def coFault (side : Nat) : Field := if side = 0 then F.claspCoFaultFaultA else F.claspCoFaultFaultB

/-- Is a side marked faulty for a group? -/
def State.sideFaulty (s : State) (side g : Nat) : Bool := bit (s.get pgClasp 0 (coFault side)) g

/-- Mark a side faulty for a group. -/
def State.markFaulty (s : State) (side g : Nat) : State :=
  s.put pgClasp 0 (coFault side) (withBit (s.get pgClasp 0 (coFault side)) g)

/-- A changeover of a group is decided; it is made at the reference output's next blanking. -/
def State.decideSide (s : State) (g side : Nat) : State := { s with coTarget := Tab.put g (decide (side = 1)) s.coTarget }

/-- The ball of a group takes a level. -/
def State.driveCo (s : State) (g : Nat) (level : Bool) : State :=
  ({ s with coOut := if level then withBit s.coOut g else withoutBit s.coOut g }.startTimer pgClasp g timerSwitch).emit (.pin ("CO_OUT" ++ toString g) level)

/-- Nanoseconds in which a selector switches (R312). -/
abbrev switchNs : Nat := 2000

/-- Every group is to go to the device's own side, but for those where its own side is marked faulty (R317, R319). -/
def State.driveOwn (s : State) : State :=
  (List.range groupCount).foldl (fun s g => if s.sideFaulty s.ownSide g then s else s.decideSide g s.ownSide) s

/-- A changeover's reference point: a lead drives CO_OUT[g] to the new side. -/
def State.changeover (s : State) (g : Nat) : State :=
  match Assoc.find id g s.coTarget with
  | some b => if s.role = roleLead then { s with coTarget := Tab.del g s.coTarget }.driveCo g b else s
  | none => s

/-- CHANGEOVER (R312). -/
def execChangeover (g : Fin 12) (s : State) : Host.Outcome State Fault Refusal := .next (s.changeover g)

/-- CO_IN_CHANGE (R312): a selector's position changes; CO_SEL shows it. -/
def execCoInChange (g : Fin 12) (level : Bool) (s : State) : Host.Outcome State Fault Refusal :=
  .next (if bit s.coIn g = level then s
    else { s with coIn := if level then withBit s.coIn g else withoutBit s.coIn g }.raise pgClasp 17)

/-- CO_MISMATCH (R312): CO_IN[g] does not show the side in time; a lead knows the side it drives, and since when. -/
def execCoMismatch (g : Fin 12) (s : State) : Host.Outcome State Fault Refusal :=
  .next (if s.role = roleNone ∨ (s.role = roleLead ∧ (bit s.coIn g = bit s.coOut g ∨
      s.elapsed pgClasp g timerSwitch switchNs = false)) then s
    else s.fault fltCoMismatch respNone 0 pgClasp g g)

/-- A write of CO_CMD (R313). -/
def State.writeCoCmd (s : State) (w : Nat) : State :=
  let g := F.claspCoCmdGroup.extract w
  let side := F.claspCoCmdSide.extract w
  if !bit w 31 then s
  else if s.role ≠ roleLead ∨ s.pairing ≠ pairReady ∨ groupCount ≤ g ∨ s.sideFaulty side g = true then
    s.setErr pgClasp errBadValue
  else s.decideSide g side

/-- CO_CMD (R313): a write of CO_CMD with GO. -/
def execCoCmd (m : Fin 8) (w : Word) (s : State) : Host.Outcome State Fault Refusal :=
  let w' := withBit w.toNat 31
  .next (s.write m pgClasp F.claspCoCmdGo.off w' fun s => s.writeCoCmd w')

/-! ### Seals (R308 to R310) -/

/-- The page, index and changeover group of an output flow. -/
def State.outputOf (s : State) (f : Nat) : Option (Nat × Nat × Option Nat) :=
  if !s.isEgress f then none
  else match s.flowPort f with
    | (0, port, _) => some (pgSditx port, fltWhole, some (port / 8))
    | (1, port, slot) => some (pgIpp port, slot, none)
    | (2, port, slot) => some (pgFab port, slot, none)
    | _ => none

/-- A mismatch that is attributed to a side, at a changeover group: RESP, and what a pair in SHADOW_READY does. -/
def State.resolveSdi (s : State) (g faulty : Nat) : State × Nat :=
  let other := 1 - faulty
  if s.pairing ≠ pairReady then (s, respNone)
  else if ofBool (bit s.coIn g) ≠ faulty then (s.markFaulty faulty g, respNone)
  else if s.sideFaulty other g then (s, respNone)
  else
    let s1 := s.markFaulty faulty g
    (if s.role = roleLead then s1.decideSide g other else s1, respChangeover)

/-- A mismatch of an output's seals (R309): at most one record per frame of the output. -/
def State.sealMismatch (s : State) (x : SealMsg) (ownLocal : Bool) (page index : Nat) (group : Option Nat) : State :=
  let own := ownLocal && !x.localBit
  let partner := x.localBit && !ownLocal
  let faulty := if own then s.ownSide else 1 - s.ownSide
  let (s1, resp) := match group with
    | some g => if own || partner then s.resolveSdi g faulty else (s, respNone)
    | none => (s, respNone)
  let s2 := { s1 with compareBad := s1.compareBad || decide (s1.pairing = pairCompare) }.bumpSat pgClasp 0 F.claspSealCntMismatch
  let key := ((x.flow : Nat), x.frame.toNat)
  let s3 := if key ∈ s2.sealRecords then s2
    else
      { s2 with sealRecords := key :: s2.sealRecords.filter fun e => decide (e.1 ≠ key.1) }.fault fltSealMismatch resp
        (ofBool (own || partner)) page index (ofBool own + 2 * ofBool partner)
  s3.raise pgClasp 18

/-- This twin's own seal of a line, of the same link or packet as the partner's. -/
def State.ownSeal (s : State) (x : SealMsg) : Option OutSeal :=
  s.seals.find? fun y => decide (y.flow = x.flow.val ∧ y.line = x.line ∧ y.frame = x.frame.toNat ∧ y.part = x.part)

/-- SEAL_RECEIVE (R308): the partner's seal of an output line meets this twin's own, computed when the line left. -/
def execSealReceive (x : SealMsg) (s : State) : Host.Outcome State Fault Refusal :=
  .next (match (if pairCompare ≤ s.pairing then s.outputOf x.flow else none) with
    | none => s
    | some (p, i, g) =>
      if x.waived then s.bumpSat pgClasp 0 F.claspSealCntWaived
      else match s.ownSeal x with
        | none => s
        | some y =>
          if y.waived then s.bumpSat pgClasp 0 F.claspSealCntWaived else
          let s1 := s.bump pgClasp 0 F.claspSealLinesCount
          if x.lineSeal.toNat = y.value then s1 else s1.sealMismatch x y.isLocal p i g)

/-! ### Leading, promotion, detaching (R299, R317 to R319) -/

/-- CTRL.LEAD: a NONE device in DETACHED is a solo lead and drives every group to its own side. -/
def State.beLead (s : State) : State :=
  if s.role = roleNone ∧ s.pairing = pairDetached then
    (List.range groupCount).foldl (fun s g => s.driveCo g s.twinSide) ({ s with sendFrom := 0 }.putPair roleLead pairDetached)
  else s

/-- A shadow is promoted (R318): it drives first what CO_IN reads, then its own side; its send slots send from the frames that begin
at an instant. -/
def State.promote (s : State) (fromNs : Nat) : State :=
  let s1 := (List.range groupCount).foldl (fun s g => s.driveCo g (bit s.coIn g))
    ({ s with mirrorHeld := [], decisions := [], sendFrom := fromNs }.putPair roleLead pairDetached)
  (List.range groupCount).foldl (fun s g => s.decideSide g s.ownSide) s1

/-- The device leaves its pair: NONE and DETACHED; a lead releases CO_OUT. -/
def State.detach (s : State) : State :=
  { s with mirrorHeld := [], decisions := [], coTarget := [], handOver := false, joinDue := false }.putPair roleNone pairDetached

/-- A lead goes on alone, every group on its own side. -/
def State.goSolo (s : State) : State := { s with joinDue := false, handOver := false }.driveOwn.putPair roleLead pairDetached

/-- What one twin tells the other of the pair, over the Clasp. -/
abbrev tellJoin : Nat := 1
abbrev tellRelease : Nat := 2
abbrev tellHandOver : Nat := 3
abbrev tellSupply : Nat := 4
abbrev tellDesync : Nat := 5

/-- Tell the partner. -/
def State.tell (s : State) (k : Nat) : State := s.express (.decision pgClasp fltWhole [k])

/-- CTRL.RELEASE (R319): a shadow leaves at once, a lead hands over at the next frame boundary. -/
def State.releasePair (s : State) : State :=
  if s.pairing = pairDetached then s
  else if s.role = roleShadow then (s.tell tellRelease).detach
  else if s.role = roleLead then { s with handOver := true }
  else s

/-- The lowest running timebase. -/
def State.lowestTb (s : State) : Option Nat := [0, 1, 2, 3].find? fun k => decide ((s.tb k).state ≠ .off)

/-- When the frame of the lowest running timebase began: from it a twin that is handed over to sends (R319). -/
def State.lowestStart (s : State) : Nat :=
  match s.lowestTb with
  | some k => (s.tb k).startNs
  | none => s.now

/-- A lead tells an aligning shadow the frame that begins on a timebase (R315). -/
def State.tellFrame (s : State) (k : Nat) : State :=
  if s.role = roleLead ∧ s.pairing = pairAlign then s.express (.decision (pgTb k) 0 [(s.tb k).frame]) else s

/-- An aligning shadow takes the lead's frame number, told as the lead's frame begins, at its next frame boundary; a timebase whose
source is FREE ends a frame period later (R315). -/
def State.alignFrame (s : State) (k n : Nat) : State :=
  let t := s.tb k
  if s.pairing ≠ pairAlign ∨ t.state = .off then s
  else
    let m := (n + 1) % frameModulus
    let t1 := if s.tbSource k = srcFree then
        { t with jumpEnd := some (s.now + nsOf t.struct t.rate (fmtFrameSamples t.struct t.rate)), jumpErr := 0 }
      else t
    s.putTb k { t1 with epoch := if m = (t.frame + 1) % frameModulus then none else some m }

/-- The frame boundary of a timebase; with that of the lowest running one a lead that hands over becomes NONE, and the snapshot of a
join is taken (R315, R319). -/
def State.pairBoundary (s0 : State) (k : Nat) : State :=
  let s := s0.tellFrame k
  if s.lowestTb ≠ some k then s
  else
    let s1 := { s with joinDue := false }
    if s1.handOver then ({ s1 with sendUntil := (s1.tb k).startNs }.tell tellHandOver).detach else s1

/-! ### Joining (R315, R316) -/

/-- JOIN_RESULT. -/
def State.joinResult (s : State) (c : Nat) : State := s.put pgClasp 0 F.claspStateJoinResult c

/-- Why a join is refused; 0 where it is not. -/
def State.joinRefusal (s : State) (x : Partner) : Nat :=
  if !x.lead || (s.upLanes pgClasp).isEmpty then 1
  else if x.side = s.twinSide then 2
  else if !x.same then 3
  else if s.role ≠ roleNone ∨ s.pairing ≠ pairDetached then 7
  else 0

/-- CTRL.JOIN: refused, or begun. -/
def State.joinPair (s : State) (x : Partner) : State :=
  let c := s.joinRefusal x
  if c ≠ 0 then s.joinResult c
  else
    let s1 := { s with hbLaneNs := s.now, hbPinNs := s.now }.put pgClasp 0 F.claspStateRestarts 0
    (s1.putPair roleShadow pairCopy).tell tellJoin

/-- A lead hears of a join: it takes its snapshot at the next boundary. -/
def State.joinHeard (s : State) : State :=
  if s.role = roleLead ∧ s.pairing = pairDetached then
    ({ s with joinDue := s.lowestTb.isSome, hbLaneNs := s.now, hbPinNs := s.now }.put pgClasp 0 F.claspStateRestarts 0).putPairing
      pairCopy
  else s

/-- A write of CLASP CTRL; what the device finds of its partner comes with JOIN. -/
def State.writeClaspCtrl (s : State) (w : Nat) (x : Partner) : State :=
  let s1 := s.writeFields pgClasp 0 false w (fieldsAt pgClasp F.claspCtrlJoin.off)
  let s2 := if bit w 29 then s1.beLead else s1
  let s3 := if bit w 30 then s2.releasePair else s2
  if bit w 31 then s3.joinPair x else s3

/-- A write of CLASP CTRL with one command bit that leaves RESET_MIRROR as it is. -/
def State.claspCommand (s : State) (m b : Nat) (x : Partner) : State :=
  let w := 2 ^ b + s.get pgClasp 0 F.claspCtrlResetMirror
  s.write m pgClasp F.claspCtrlJoin.off w fun s => s.writeClaspCtrl w x

/-- CLASP_LEAD (R299). -/
def execClaspLead (m : Fin 8) (s : State) : Host.Outcome State Fault Refusal :=
  .next (s.claspCommand m 29 ⟨false, false, false⟩)

/-- CLASP_RELEASE (R319). -/
def execClaspRelease (m : Fin 8) (s : State) : Host.Outcome State Fault Refusal :=
  .next (s.claspCommand m 30 ⟨false, false, false⟩)

/-- CLASP_JOIN (R315). -/
def execClaspJoin (m : Fin 8) (partner : Partner) (s : State) : Host.Outcome State Fault Refusal :=
  .next (s.claspCommand m 31 partner)

/-- A join fails: the new device is NONE and DETACHED with the code, the lead DETACHED. -/
def State.joinFails (s : State) (c : Nat) : State :=
  if s.role = roleShadow then (s.joinResult c).detach else s.goSolo

/-- TB_SKEWk. -/
def claspSkew : Nat → Field
  | 0 => F.claspTbSkew0Ps | 1 => F.claspTbSkew1Ps | 2 => F.claspTbSkew2Ps
  | _ => F.claspTbSkew3Ps

/-- Every running timebase has a skew within 10 ns; how much is open. -/
def State.alignedSkews (s : State) : State :=
  ([0, 1, 2, 3].filter fun k => decide ((s.tb k).state ≠ .off)).foldl (fun s k =>
    let (v, s1) := s.draw
    s1.put pgClasp 0 (claspSkew k) (saturate 32 ((v % 20001 : Nat) - 10000))) s

/-- Pages of a joined shadow whose engines start from the image (R315). -/
def State.joinedPages (s : State) : List Nat :=
  inertPages.filter fun p =>
    s.inert p && mirroredPage p && !(s.keptValues p).isEmpty

/-- The engines of a joined shadow start under RESTORE_RUN. -/
def State.startJoined (s : State) : State :=
  s.joinedPages.foldl (fun s p => (s.put p 0 F.hdrReadyRestored 1).tryReady p true) s

/-- JOIN_ALIGN_DONE (R315). -/
def execJoinAlignDone (s : State) : Host.Outcome State Fault Refusal :=
  .next (if s.pairing = pairAlign then
    let s1 := s.alignedSkews.putPairing pairFill
    if s1.role = roleShadow then s1.startJoined else s1
  else s)

/-- Nanoseconds in which a pair aligns (R315). -/
abbrev alignNs : Nat := 10000000000

/-- ALIGN_TIMEOUT (R315). -/
def execAlignTimeout (s : State) : Host.Outcome State Fault Refusal :=
  .next (if s.pairing = pairAlign ∧ s.elapsed pgClasp 0 timerAlign alignNs = true then s.joinFails 4 else s)

/-- JOIN_FILL_DONE (R315). -/
def execJoinFillDone (s : State) : Host.Outcome State Fault Refusal :=
  .next (if s.pairing = pairFill then { s with compareBad := false }.putPairing pairCompare else s)

/-- A mismatch while the shadow is qualified: the count restarts, at most three times. -/
def State.compareRestart (s : State) : State :=
  if 3 ≤ s.get pgClasp 0 F.claspStateRestarts then s.joinFails 5
  else { s with compareBad := false }.bump pgClasp 0 F.claspStateRestarts

/-- JOIN_COMPARE_DONE (R315): the outputs agreed, unless this twin has found a mismatch of its own. -/
def execJoinCompareDone (agree : Bool) (s : State) : Host.Outcome State Fault Refusal :=
  .next (if s.pairing = pairCompare then
    (if agree && !s.compareBad then (s.joinResult 0).putPairing pairReady else s.compareRestart)
  else s)

/-- TB_SKEW_EXCEEDED (R316): beyond 50 ns for a frame a pair in SHADOW_READY aligns again. -/
def execTbSkewExceeded (k : Fin 4) (ps : Int) (s : State) : Host.Outcome State Fault Refusal :=
  .next (
    if s.pairing = pairDetached ∨ (s.tb k).state = .off then s
    else
      let s1 := s.put pgClasp 0 (claspSkew k) (saturate 32 ps)
      if s1.pairing = pairReady ∧ (ps > 50000 ∨ ps < -50000) then
        (s1.put pgClasp 0 F.claspStateRestarts 0).putPairing pairAlign
      else s1)

/-! ### Heartbeats (R317) -/

/-- HEARTBEAT_SEND (R317): CLASP_HB_OUT toggles, a heartbeat goes out on each UP Clasp lane. -/
def execHeartbeatSend (s : State) : Host.Outcome State Fault Refusal :=
  .next (([0, 1, 2, 3].filter fun l => decide (s.laneState pgClasp l = laneUp)).foldl (fun s l => (s.emit (.heartbeat l)).claspQueue (.heartbeat l) [l])
    ({ s with hbOut := !s.hbOut }.emit (.pin "CLASP_HB_OUT" !s.hbOut)))

/-- HEARTBEAT_RECEIVE (R317). -/
def execHeartbeatReceive (pin : Bool) (s : State) : Host.Outcome State Fault Refusal :=
  .next (if pin then { s with hbPinNs := s.now }.put pgClasp 0 F.claspStateHbPin 1
    else { s with hbLaneNs := s.now }.put pgClasp 0 F.claspStateHbLane 1)

/-- Nanoseconds after which a silent path is lost. -/
abbrev heartbeatNs : Nat := 100000

/-- Paths are lost: recorded, and what follows for the role. A pin path alone changes nothing (log entry 235). -/
def State.pathsLost (s : State) (lane pin : Bool) : State :=
  let s1 := if lane then s.put pgClasp 0 F.claspStateHbLane 0 else s
  let s2 := if pin then s1.put pgClasp 0 F.claspStateHbPin 0 else s1
  let s3 := (s2.fault fltTwinLoss respNone 0 pgClasp fltWhole (ofBool lane + 2 * ofBool pin)).raise pgClasp 19
  if !lane then s3
  else if s3.role = roleLead then s3.goSolo
  else if s3.pairing ≠ pairReady then s3.joinFails 6
  else if pin then s3.promote s3.now
  else s3.detach

/-- TWIN_LOSS (R317): the lanes, the pin, or both have been silent for 100 µs. -/
def execTwinLoss (laneOnly pinOnly : Bool) (s : State) : Host.Outcome State Fault Refusal :=
  let lane := !pinOnly && decide (heartbeatNs ≤ s.now - s.hbLaneNs)
  let pin := !laneOnly && decide (heartbeatNs ≤ s.now - s.hbPinNs)
  .next (
    if s.pairing = pairDetached then s
    else if lane || (pin && s.flag pgClasp 0 F.claspStateHbPin) then s.pathsLost lane pin
    else s)

/-! ### Supplies (R406, R411, R322) -/

/-- The rails of R405. -/
abbrev railCount : Nat := 14

/-- A lead in SHADOW_READY drives every group whose side is not marked faulty to a side. -/
def State.driveAway (s : State) (side : Nat) : State :=
  (List.range groupCount).foldl (fun s g => if s.sideFaulty side g then s else s.decideSide g side) s

/-- VDD_CAVE below its window may have fallen below 0.65 V: then every seal fails and the log is unreliable (R411). -/
def State.caveDip (s : State) : State :=
  let (v, s1) := s.draw
  if v % 2 = 1 then
    let (n, s2) := s1.draw
    ({ s2 with
      cave := s2.cave.map fun e => (e.1, { e.2 with sealOk := false })
      journal := []
      fltLog := s2.fltLog.take (n % (fltLogSize + 1)) } : State).journalStatus
  else s1

/-- A rail out of its window: recorded; a pair in SHADOW_READY moves every group off this side. -/
def State.supply (s : State) (rail : Nat) (above : Bool) : State :=
  let pair := decide (s.pairing = pairReady)
  let resp := if pair then respChangeover else respNone
  let s1 := s.fault fltSupply resp 0 fltWhole fltWhole (rail + (if above then 2 ^ 15 else 0))
  let s2 := if rail = 2 ∧ above = false then s1.caveDip else s1
  if !pair then s2
  else if s2.role = roleLead then s2.driveAway (1 - s2.ownSide)
  else s2.tell tellSupply

/-- SUPPLY_OUT_OF_WINDOW (R406): a rail of R405, while the monitors are on. -/
def execSupplyOutOfWindow (rail : Fin 16) (above : Bool) (s : State) : Host.Outcome State Fault Refusal :=
  .next (if s.flag pgFlt 0 F.fltCoverSupply && decide (rail.val < railCount) then s.supply rail above else s)

end Sys2Proof.Machine
end

