-- ==== Sys2Proof/Machine/Pages.lean ====
section
/-! DEFINITION. A write of a register word, whatever the register: the common header, then each page's own registers (R26 to
R38, R394, R397). -/

namespace Sys2Proof.Machine

/-! ### Locks (R31) -/

/-- Who holds a page's lock: on a shadow M3 holds those of mirrored pages (R303). -/
def State.lockOwner (s : State) (p : Nat) : Option Nat :=
  if s.role = roleShadow ∧ mirroredPage p = true then some 3
  else if s.flag (home p) 0 F.hdrLockHeld then some (s.get (home p) 0 F.hdrLockOwner)
  else none

/-- A write of LOCK by a master. -/
def State.writeLock (s : State) (m p w : Nat) : State :=
  let h := home p
  if F.hdrLockHeld.extract w = 1 then
    match s.lockOwner p with
    | none => (s.put h 0 F.hdrLockHeld 1).put h 0 F.hdrLockOwner m
    | some _ => s
  else
    match s.lockOwner p with
    | none => s
    | some o => if o = m ∧ s.flag h 0 F.hdrLockHeld = true then s.put h 0 F.hdrLockHeld 0 else s.setErr p errLockViolation

/-- LOCK_WRITE (R31). -/
def execLockWrite (m : Fin 8) (page : Fin 4096) (w : Word) (s : State) : Host.Outcome State Fault Refusal :=
  .next (s.write m page F.hdrLockHeld.off w.toNat fun s => s.writeLock m page w.toNat)

/-! ### COMMIT (R35 to R38, R326) -/

/-- Has the capture instant of an output frame of a slice passed: one output line before its boundary, OFFSET samples after
OUT_TB's (R157)? -/
def State.cnvLate (s : State) (n frame : Nat) : Bool :=
  let t := (s.tb (s.cnvTb n)).settle s.now
  let out := s.get (pgCnv n) ((s.cnvCellsOn n).headD 0) F.cnvOutFmtStruct
  let ahead : Int := ((frame : Int) - t.frame) * (rateDen t.rate * 1000000000 : Nat) / (rateNum t.rate : Int)
  decide ((t.startNs : Int) + s.cnvOffsetNs n + ahead ≤ s.now + lineNs out t.rate)

/-- The error for which a header commit on an engine that does not run is refused (R122, R153, R190, R216). -/
def State.commitRefusal (s0 : State) (p : Nat) : Option Nat :=
  let s := s0.unstage p 0
  match pageType p with
  | 0x041 => s.txRefusal (p - pgSditx 0)
  | 0x060 => s.cnvRefusal (p - pgCnv 0) fun c f => s.getShadow p c f
  | 0x061 => s.cpoHeaderRefusal (p - pgCpo 0)
  | _ => none

/-- A page's commit of the header, requested by the host. Engines with a commit point of their own wait for it while they
run; every other page has no SHADOW field under its header, and its commit completes at once. -/
def State.hdrRequest (s : State) (p : Nat) (atFrame : Bool) : State :=
  let f := s.frame48 p 0 F.hdrCommitFrameLoFrameLo F.hdrCommitFrameHiFrameHi
  let plain := if s.running p then s.requestCommit p 0 else s.completeOr p 0 (s.commitRefusal p)
  match pageType p with
  | 0x020 =>
    let k := p - pgTb 0
    if atFrame then s.requestAtFrame p 0 k f 1 (s.frameLate k f) .pageCommit 0 else plain
  | 0x022 =>
    let n := p - pgSyn 0
    let k := s.get p 0 F.synCtrlTb
    if s.get p 0 F.synCtrlSource ≠ 0 then (if atFrame then s.setErr p errBadValue else s.synFreeCommit n)
    else if atFrame then s.requestAtFrame p 0 k f 1 (s.frameLate k f) .pageCommit 0
    else if s.running p then s.requestCommit p 0
    else s.synFreeCommit n
  | 0x040 =>
    if atFrame then s.setErr p errBadValue
    else if s.lock (p - pgSdirx 0) = lockLocked then plain
    else (s.completeNow p 0).waive waiveCommit (touchPage p)
  | 0x041 =>
    let r := pgSditx (s.txPort (p - pgSditx 0))
    if atFrame then s.requestAtFrame p 0 (s.get r 0 F.rstCtrlTb) f 1 (s.rasterLate r 0 0 f) .pageCommit 0 else plain
  | 0x061 =>
    if atFrame then s.requestAtFrame p 0 (s.get p 0 F.rstCtrlTb) f 1 (s.rasterLate p 0 0 f) .pageCommit 0 else plain
  | 0x060 =>
    let n := p - pgCnv 0
    if atFrame then
      (if s.cnvFollow n then s.setErr p errBadValue
       else s.requestAtFrame p 0 (s.cnvTb n) f 1 (s.cnvLate n f) .pageCommit 0)
    else if s.running p then s.requestCommit p 0
    else match s.commitRefusal p with
      | some e => s.completeOr p 0 (some e)
      | none => ((s.completeNow p 0).cnvLuts n).cnvShowDelay n
  | 0x032 => if s.cvuCommitOk (p - pgCvu 0) then s.completeNow p 0 else s.setErr p errBadValue
  | _ => s.completeNow p 0

/-- A write of COMMIT: AT_FRAME, CANCEL, then COMMIT; the first one after a reset ends INERT (R326). -/
def State.writeHdrCommit (s : State) (p w : Nat) : State :=
  let h := home p
  let s0 := s.put h 0 F.hdrCommitAtFrame (bits w 1 1)
  let s1 := if bit w 5 then s0.cancelCommit h 0 else s0
  if bit w 0 then (s1.hdrRequest h (bit w 1)).firstCommit h else s1

/-- A write of COMMIT by a master. -/
def State.commitWrite (s : State) (m p w : Nat) : State :=
  s.write m p F.hdrCommit.off w fun s => s.writeHdrCommit p w

/-- COMMIT_REQUEST (R35). -/
def execCommitRequest (m : Fin 8) (page : Fin 4096) (s : State) : Host.Outcome State Fault Refusal :=
  .next (s.commitWrite m page 1)

/-- COMMIT_AT_FRAME (R37). -/
def execCommitAtFrame (m : Fin 8) (page : Fin 4096) (s : State) : Host.Outcome State Fault Refusal :=
  .next (s.commitWrite m page 3)

/-- COMMIT_CANCEL (R38), with or without a new request. -/
def execCommitCancel (m : Fin 8) (page : Fin 4096) (commit atFrame : Bool) (s : State) : Host.Outcome State Fault Refusal :=
  .next (s.commitWrite m page (32 + ofBool commit + 2 * ofBool atFrame))

/-! ### The header (R29) -/

/-- The bits of INT_STAT, which INT_EN has too (R30). -/
abbrev intBits : Nat := 0xFFFF001F

/-- A write of INT_EN: a masked status that turns non-zero sends its message (R40). -/
def State.writeIntEn (s : State) (p w : Nat) : State :=
  let s1 := s.put (home p) 0 F.hdrIntEn (w &&& intBits)
  (allPages.filter fun q => decide (home q = home p)).foldl (fun x q => x.notifyFrom s q) s1

/-- A write of FAULT: clearing VALID clears COUNT. -/
def State.writeFaultClear (s : State) (p w : Nat) : State :=
  if F.hdrFaultValid.extract w = 1 then (s.put p 0 F.hdrFaultValid 0).put p 0 F.hdrFaultCount 0 else s

/-- A write of a header word by a master. ERR and INT_STAT belong to the page, the rest to the engine. BEZ ignores writes of
RESTORE_POLICY (R206). -/
def State.writeHeader (s : State) (m p off w : Nat) : State :=
  if p = pgBez ∧ off = F.hdrRestorePolicyPolicy.off then s
  else if off = F.hdrErr.off ∨ off = F.hdrIntStat.off then s.writeFields p 0 false w (fieldsAt p off)
  else if off = F.hdrIntEn.off then s.writeIntEn p w
  else if off = F.hdrCommit.off then s.writeHdrCommit p w
  else if off = F.hdrLockHeld.off then s.writeLock m p w
  else if off = F.hdrFaultValid.off then s.writeFaultClear (home p) w
  else s.writeFields (home p) 0 false w (fieldsAt p off)

/-! ### Each page's own registers -/

/-- A write with no effect beside its fields. -/
def State.writePlain (s : State) (p c off w : Nat) : State := s.writeFields p c (s.running p) w (fieldsAt p off)

/-- DEV. A write of HBMWIN finds no BAR2 access in flight: a command is one step. -/
def State.writeDevPage (s : State) (m off w : Nat) : State :=
  if off = F.devResetKey.off then s.writeDevReset m w
  else if off = F.devProfileGo.off then s.writeDevProfile w
  else if off = F.devFwDataWord.off then s.writeFwData w
  else if off = F.devFwCtrlGo.off then s.writeFwCtrl w
  else if off = F.devHbmwinOffsetMb.off then s.writeHbmwin w false
  else if off = F.devDevregBaseGib.off then s.writeDevreg w
  else s.writePlain pgDev 0 off w

/-- What a device finds of its partner, where the write itself does not bring it: open. -/
def State.drawPartner (s : State) : Partner × State :=
  let (v, s1) := s.draw
  (⟨bit v 0, bit v 1, bit v 2⟩, s1)

/-- The largest TX_EQ.AMP of an SDI lane (R273). -/
abbrev sdiAmpMax : Nat := 80

/-- The lane window of a page; an SDI lane has no TX_EQ.PRE and a smaller AMP (R273). -/
def State.writeLaneWindow (s : State) (p l off w : Nat) : State :=
  if off = F.laneCtrlAdapt.off then s.writeLaneCtrl p l w
  else if off = F.laneTxEqAmp.off ∧ p < pgIpp 0 ∧ pgSdirx 0 ≤ p then
    let bad := decide (sdiAmpMax < F.laneTxEqAmp.extract w)
    ((fieldsAt p off).filter fun f => decide (f ≠ F.laneTxEqPre) && !(bad && decide (f = F.laneTxEqAmp))).foldl
      (fun s f => s.writeField p l f (s.running p) (f.extract w)) (if bad then s.setErr p errBadValue else s)
  else if off = F.laneEyeCtrlStart.off then
    let s1 := if F.laneEyeCtrlAbort.extract w = 1 then s.eyeAbort p l else s
    if F.laneEyeCtrlStart.extract w = 1 then s1.eyeStart p l else s1
  else s.writePlain p l off w

/-- CLASP. -/
def State.writeClaspPage (s : State) (c off w : Nat) : State :=
  if off = F.claspCtrlJoin.off then
    let (x, s1) := s.drawPartner
    s1.writeClaspCtrl w x
  else if off = F.claspCoCmdGo.off then s.writeCoCmd w
  else if 0x204 ≤ off then s.writeLaneWindow pgClasp c off w
  else s.writePlain pgClasp c off w

/-- TB. -/
def State.writeTbPage (s : State) (k off w : Nat) : State :=
  let p := pgTb k
  if off = F.tbCtrlRun.off then s.writeTbCtrl k w
  else if off = F.tbFormatStruct.off then s.writeFormat p 0 (s.running p) w off F.tbFormatStruct F.tbFormatRate
  else if off = F.tbPhaseSlewPpm.off then s.writePhaseSlew k w
  else if off = F.tbPresetArmArm.off then s.writePresetArm k w
  else s.writePlain p 0 off w

/-- SCHED. -/
def State.writeSchedPage (s : State) (m c off w : Nat) : State :=
  if off = F.schedEvSubmitGo.off then
    (if F.schedEvSubmitGo.extract w = 1 ∧ s.schedOpen = true then s.evSubmit m else s)
  else if off = F.schedEvCancelHandle.off then
    (if s.schedOpen then s.evCancel m (F.schedEvCancelHandle.extract w) else s)
  else if off = F.schedSalvoOpOp.off then s.writeSalvoOp w
  else s.writePlain pgSched c off w

/-- SYN. -/
def State.writeSynPage (s : State) (n c off w : Nat) : State :=
  if off = F.synCtrlEn.off then s.writeSynCtrl n w
  else if off = F.synBandMin.off then s.writeBand n c w
  else if off = F.synOutCtrlEn.off then s.writeOutCtrl n c w
  else s.writePlain (pgSyn n) c off w

/-- KEY. -/
def State.writeKeyPage (s : State) (m c off w : Nat) : State :=
  if off = F.keyCmdGoGo.off then (if F.keyCmdGoGo.extract w = 1 then s.keyGo m else s)
  else if off = F.keyLcCtrlKey.off then s.writeLc w
  else s.writePlain pgKey c off w

/-- BEZ. -/
def State.writeBezPage (s : State) (c off w : Nat) : State :=
  if off = F.bezCellKeyBind.off then s.writeCellKey w
  else if off = F.bezMsgGoGo.off then (if F.bezMsgGoGo.extract w = 1 then s.bezGo c else s)
  else s.writePlain pgBez c off w

/-- CVU. -/
def State.writeCvuPage (s : State) (n off w : Nat) : State :=
  if off = F.cvuGoStart.off then s.writeCvuGo n w
  else if off = F.cvuFeedData.off then s.cvuFeed n 4 w
  else if off = F.cvuFeed1Data.off then s.cvuFeed n 1 w
  else s.writeCvuCfg n off w

/-- SDIRX. -/
def State.writeSdirxPage (s : State) (n c off w : Nat) : State :=
  let p := pgSdirx n
  if off = F.sdirxCtrlEn.off then s.writeSdirxCtrl n w
  else if off = F.sdirxQuadQen.off then (s.writePlain p 0 off w).rxQuad n
  else if 0x204 ≤ off then s.writeLaneWindow p c off w
  else s.writePlain p c off w

/-- SDITX. -/
def State.writeSditxPage (s : State) (n c off w : Nat) : State :=
  let p := pgSditx n
  if off = F.sditxCtrlEn.off then s.writeSditxCtrl n w
  else if off = F.sditxQuadQen.off then ((s.writePlain p 0 off w).txStatus n).txQuad n
  else if off = F.rstFormatStruct.off then s.writeFormat p 0 (s.running p) w off F.rstFormatStruct F.rstFormatRate
  else if off = F.rstCommit.off ∨ off = F.rstCommitFrameLoFrameLo.off ∨ off = F.rstCommitFrameHiFrameHi.off then s
  else if 0x204 ≤ off then s.writeLaneWindow p c off w
  else s.writePlain p c off w

/-- IPP: the link window, the rasters, the lane window, the stream slots, the host queues. -/
def State.writeIppPage (s : State) (n c off w : Nat) : State :=
  let p := pgIpp n
  if off = F.ippCtrlEn.off then s.writeIppCtrl n w
  else if off = F.ippPtpMidLoId.off ∨ off = F.ippPtpMidHiId.off ∨ off = F.ippPtpCfgMport.off then s.writePtp n c off w
  else if off = F.ippSaCfgEn.off then s.writeSaCfg n c w
  else if F.ippSaSalt0Salt.off ≤ off ∧ off ≤ F.ippSaSalt2Salt.off then s.writeSalt n c off w
  else if off = F.rstFormatStruct.off then s.writeFormat p c (s.running p) w off F.rstFormatStruct F.rstFormatRate
  else if off = F.rstCommit.off then s.writeRstCommit p c w
  else if 0x204 ≤ off ∧ off < 0x280 then s.writeLaneWindow p c off w
  else if off = F.ippStrmCfgEn.off then s.writeStrmCfg n c w
  else if off = F.ippStrmCommitCommit.off then s.writeStrmCommit n c w
  else if 0x288 ≤ off ∧ off < 0x300 then s.writeFields p c (s.slotOn n c) w (fieldsAt p off)
  else if off = F.ippTxqDataWord.off then s.txWord n w
  else if off = F.ippTxqPushPush.off then (if F.ippTxqPushPush.extract w = 1 then s.txPush n else s)
  else s.writePlain p c off w

/-- FAB; FID and the FEVT registers lie on FAB[0] alone. -/
def State.writeFabPage (s : State) (m n c off w : Nat) : State :=
  let p := pgFab n
  if off < F.fabCtrlEn.off ∧ n ≠ 0 then s
  else if off = F.fabFidId.off then s.writeFid w
  else if off = F.fabFevtSubmitGo.off then (if F.fabFevtSubmitGo.extract w = 1 then s.fevtSubmit m else s)
  else if off = F.fabCtrlEn.off then s.writeFabCtrl p w
  else if off = F.fabKeyTxSlot0.off then s.writeFabKeys p false w
  else if off = F.fabKeyRxSlot0.off then s.writeFabKeys p true w
  else if off = F.fabLinkAsymPs.off then (s.writePlain p c off w).showDelay p
  else if 0x204 ≤ off then s.writeLaneWindow p c off w
  else s.writePlain p c off w

/-- CORE. -/
def State.writeCorePage (s : State) (c off w : Nat) : State :=
  if F.corePinCfg0Arm.off ≤ off ∧ off ≤ F.corePinCfg3Arm.off then s.writePinCfg ((off - F.corePinCfg0Arm.off) / 4) w
  else if off = F.coreVatCtrlFence.off then s.vatCtrl w
  else s.writePlain pgCore c off w

/-- FLOWWIN. -/
def State.writeFlowPage (s : State) (m c off w : Nat) : State :=
  if off = F.flowwinFlowCmdOp.off then s.writeFlowCmd m w
  else if off = F.flowwinFlowCommitCommit.off then s.writeFlowCommit m w
  else if F.flowwinCtx0En.off ≤ off ∧ off ≤ F.flowwinCtx7Timed.off then s.writeCtx m ((off - F.flowwinCtx0En.off) / 4) w
  else s.writePlain pgFlow c off w

/-- CNV. -/
def State.writeCnvPage (s : State) (n c off w : Nat) : State :=
  if off = F.cnvCtrlEn.off then s.writeCnvCtrl n w
  else if off = F.cnvLutOpOp.off then s.writeLutOp n w
  else if off = F.cnvCellCtrlEn.off then s.writeCellCtrl n w
  else s.writePlain (pgCnv n) c off w

/-- CPO; the header commits its raster, which has no commit register of its own. -/
def State.writeCpoPage (s : State) (n c off w : Nat) : State :=
  let p := pgCpo n
  if off = F.cpoCtrlEn.off then s.writeCpoCtrl n w
  else if off = F.rstFormatStruct.off then s.writeFormat p 0 (s.running p) w off F.rstFormatStruct F.rstFormatRate
  else if off = F.rstCommit.off ∨ off = F.rstCommitFrameLoFrameLo.off ∨ off = F.rstCommitFrameHiFrameHi.off then s
  else if 0x200 ≤ off then
    s.layerWrite n fun k => if off = F.cpoLCommitCommit.off then s.writeLayerCommit n k w else s.writePlain p k off w
  else s.writePlain p c off w

/-- ASH. -/
def State.writeAshPage (s : State) (c off w : Nat) : State :=
  if off = F.ashRouteEn.off then s.writeRouteReg w
  else if off = F.ashRsOpOp.off then s.writeRouteSetOp w
  else if off = F.ashFlowAttrDelay.off then let s1 := (s.writePlain pgAsh c off w).changeDelay c (s.get pgAsh c F.ashFlowAttrDelay)
    s1.rejudgeAll (s1.routesAt c)
  else s.writePlain pgAsh c off w

/-- AUP. -/
def State.writeAupPage (s : State) (n off w : Nat) : State :=
  if off = F.aupCtrlEn.off then s.writeAupCtrl n w
  else if off = F.aupHoopWrFrame.off then s.writeHoopPointer n false w
  else if off = F.aupHoopRdFrame.off then s.writeHoopPointer n true w
  else s.writePlain (pgAup n) 0 off w

/-- The device pages beside DEV and CLASP. -/
def State.writeDevicePages (s : State) (m p c off w : Nat) : State :=
  if p = pgPau ∧ off = F.pauTimeoutMs.off then s.writePauTimeout w
  else if p = pgCave ∧ off = F.caveCtrlKey.off then s.writeCaveCtrl w
  else if p = pgProf ∧ off = F.profCtrlPins.off then s.writeProfCtrl w
  else if p = pgProf ∧ off = F.profProfOpOp.off then s.writeProfOp w
  else if p = pgFlt ∧ off = F.fltCoverEcc.off then (s.writePlain p 0 off w).coverStatus
  else if p = pgMtx ∧ off = F.mtxCfgRemap.off then s.writeRemap w
  else if p = 0x009 ∧ off = F.mtxMstCtrlReset.off then s.writeMstCtrl m c w
  else s.writePlain p c off w

/-- A write of an engine register, at the cell it reaches. -/
def State.writeEngine (s : State) (m p off w : Nat) : State :=
  let c := s.cellOf m p off
  match pageType p with
  | 0x001 => s.writeDevPage m off w
  | 0x005 => s.writeClaspPage c off w
  | 0x020 => s.writeTbPage (p - pgTb 0) off w
  | 0x021 => s.writeSchedPage m c off w
  | 0x022 => s.writeSynPage (p - pgSyn 0) c off w
  | 0x030 => s.writeKeyPage m c off w
  | 0x031 => s.writeBezPage c off w
  | 0x032 => s.writeCvuPage (p - pgCvu 0) off w
  | 0x033 => if off = F.pressSubmitGo.off then s.writeSubmit m w else s.writePlain p c off w
  | 0x040 => s.writeSdirxPage (p - pgSdirx 0) c off w
  | 0x041 => s.writeSditxPage (p - pgSditx 0) c off w
  | 0x042 => s.writeIppPage (p - pgIpp 0) c off w
  | 0x043 => s.writeFabPage m (p - pgFab 0) c off w
  | 0x050 => s.writeCorePage c off w
  | 0x051 => s.writeFlowPage m c off w
  | 0x060 => s.writeCnvPage (p - pgCnv 0) c off w
  | 0x061 => s.writeCpoPage (p - pgCpo 0) c off w
  | 0x070 => s.writeAshPage c off w
  | 0x072 => s.writeAupPage (p - pgAup 0) off w
  | _ => s.writeDevicePages m p c off w

/-- The index field of an index register whose limit depends on the page: an index beyond it leaves the register and sets
BAD_VALUE (R14). -/
def State.indexBad (s : State) (p off w : Nat) : Bool :=
  match s.indexLimit p off with
  | some n => (fieldsAt p off).any fun f => decide (n < f.extract w)
  | none => false

/-- What an accepted write of a word does at a page. -/
def State.pageWrite (s : State) (m p off w : Nat) : State :=
  if off < 0x080 then s.writeHeader m p off w
  else if s.indexBad p off w then s.setErr p errBadValue
  else s.writeEngine m p off w

/-! ### The ways a write comes in (R26, R27, R45) -/

/-- A page write: misaligned, it is discarded with BAD_ACCESS; else the page takes it or rejects it. -/
def State.busPage (s : State) (m p off w : Nat) : State :=
  if off % 4 ≠ 0 then
    (if s.controlReset || !s.masterOpen m || !populated p then s.rejectWrite m p off else s.setErr p errBadAccess)
  else s.write m p off w fun s => s.pageWrite m p off w

/-- A 32-bit write at a native address. The mailbox answers only M4; boot ROM, Cave and profile store take no writes; PCI
Express reaches T5 and T4 alone (R45). -/
def State.busNative (s : State) (m n w : Nat) : State :=
  if s.controlReset || !s.masterOpen m then s.writeError m
  else match targetOf n with
    | some .pages => s.busPage m ((n - 0x40000000) / 0x1000) (n % 0x1000) w
    | some .hbm =>
      if s.targetOpen .hbm then (s.pokeNatives m n (leBytes 4 w)).mirrorHbm m n (leBytes 4 w) else s.writeError m
    | none => s.writeError m
    | some .mailbox => s.writeError m
    | some .sram => if m = 0 then s.writeError m else s.pokeNatives m n (leBytes 4 w)
    | _ => if m = 0 then s.writeError m else s

/-- The native address that a request to an internal address goes to; one beyond every target gives a decode error. -/
def State.decoded (s : State) (a : Nat) : Nat := (s.place a).getD (2 ^ 40)

/-- A 32-bit write to an internal address. -/
def State.busWrite (s : State) (m a w : Nat) : State := s.busNative m (s.decoded a) w

/-- A BAR0 write: byte enables that do not cover the word discard it with BAD_ACCESS. -/
def State.bar0Write (s : State) (off : Nat) (enables : BitVec 4) (w : Nat) : State :=
  let p := off / 0x1000 % 4096
  if enables = 15#4 then s.busPage 0 p (off % 0x1000) w
  else if s.controlReset || !s.masterOpen 0 || !populated p then s.rejectWrite 0 p (off % 0x1000)
  else s.setErr p errBadAccess

/-- REGISTER_WRITE (R33). BAR0 and BAR4 are M0's. -/
def execRegisterWrite (m : Fin 8) (a : BusAccess) (w : Word) (s : State) : Host.Outcome State Fault Refusal :=
  .next (match a with
    | .bar0 off enables => s.bar0Write off enables w.toNat
    | .bar4 off => if s.masterOpen 0 && decide (off < pbaBase) then s.writeMsix (off / 4) w.toNat else s
    | .internal addr => s.busWrite m addr w.toNat)

end Sys2Proof.Machine
end

