-- ==== Sys2Proof/Machine/PageReads.lean ====
section
/-! DEFINITION. A read of a register word, whatever the register: fields that the device computes as they are read, RC fields,
the latching of _HI registers, the read-only image (R9, R27, R28, R34, R63). -/

namespace Sys2Proof.Machine

/-! ### Fields computed as they are read -/

/-- A value on a condition. -/
def pickField (f : Field) : List (Field × Nat) → Option Nat
  | [] => none
  | (g, v) :: l => if f = g then some v else pickField f l

/-- LOCK, POWER_REQ and POWER_GRANT of an engine. -/
def State.hdrNow (s : State) (p : Nat) (f : Field) : Option Nat :=
  let q := s.powerQueue.find? fun r => decide (r.page = p)
  pickField f
    [(F.hdrLockHeld, ofBool (s.lockOwner p).isSome),
     (F.hdrLockOwner, if s.role = roleShadow ∧ mirroredPage p = true then 3 else s.get p 0 F.hdrLockOwner),
     (F.hdrPowerReqQueued, ofBool q.isSome),
     (F.hdrPowerReqDurClass, (q.map PowerReq.dur).getD 0),
     (F.hdrPowerReqMw, (q.map PowerReq.mw).getD 0),
     (F.hdrPowerGrantGranted, ofBool (s.grants.any fun g => decide (g.page = p))),
     (F.hdrPowerGrantMw, s.grantedMw p)]

/-- PAU: what the queue and the grants show. -/
def State.pauNow (s : State) (f : Field) : Option Nat :=
  let q := s.powerQueue[s.get pgPau 0 F.pauQIndexPos]?
  pickField f
    [(F.pauUsedMw, s.used), (F.pauQueueDepth, s.powerQueue.length), (F.pauQEntryPage, (q.map PowerReq.page).getD 0),
     (F.pauQEntryDurClass, (q.map PowerReq.dur).getD 0), (F.pauQEntryMw, (q.map PowerReq.mw).getD 0)]

/-- FLT: MASKING and the words of the selected record. -/
def State.fltNow (s : State) (m : Nat) (f : Field) : Option Nat :=
  let seq := s.get pgFlt m F.fltLogIndexSeq
  pickField f
    [(F.fltStatusMasking, ofBool (s.flag pgFlt 0 F.fltStatusCovered && decide (s.pairing = 5))),
     (F.fltLogW0Word, s.logWord seq 0), (F.fltLogW1Word, s.logWord seq 1), (F.fltLogW2Word, s.logWord seq 2),
     (F.fltLogW3Word, s.logWord seq 3), (F.fltLogW4Word, s.logWord seq 4), (F.fltLogW5Word, s.logWord seq 5)]

/-- TB: state, frame number, position, errors. -/
def State.tbNow (s : State) (k : Nat) (f : Field) : Option Nat :=
  let t := s.tb k
  let on := decide (t.state ≠ .off)
  pickField f
    [(F.tbStateJumpPending, ofBool t.jumpEnd.isSome), (F.tbStateSlewing, ofBool (s.tbSlewing k)), (F.tbState, t.state.code),
     (F.tbFrameLo, t.frame % 2 ^ 32), (F.tbFrameHi, t.frame / 2 ^ 32),
     (F.tbPosLine, if on then t.line s.now else 0), (F.tbPosSample, if on then t.sample s.now else 0),
     (F.tbPhaseErrPs, saturate 32 t.phaseErr), (F.tbFreqOfsPpt, saturate 32 (if t.state = .locked then t.average s.now else t.freqOfs))]

/-- SCHED: EV_QSTATE of a master, pending events, free entries. -/
def State.schedNow (s : State) (m : Nat) (f : Field) : Option Nat :=
  pickField f
    [(F.schedEvQstateState, s.evQuery (s.get pgSched m F.schedEvQueryHandle)), (F.schedPendingCount, s.events.length),
     (F.schedPoolFreeEntries, s.poolFree)]

/-- SYN: OUT_STATUS of an output. -/
def State.synNow (s : State) (n o : Nat) (f : Field) : Option Nat :=
  pickField f
    [(F.synOutStatusInUse, ofBool (s.synInUse n o)), (F.synOutStatusUser, (s.synUsers n o).headD 0),
     (F.synOutStatusAlignBusy, ofBool (decide (s.delayAt n o ≠ s.get (pgSyn n) o F.synOutCtrlDelay)))]

/-- Key slots in a state. -/
def State.slotsIn (s : State) (st : Nat) : Nat := (s.keySlots.filter fun e => decide (e.2.state = st)).length

/-- KEY: the selected slot. -/
def State.keyNow (s : State) (c : Nat) (f : Field) : Option Nat :=
  let x := s.keySlot c
  pickField f
    [(F.keySlotInfoState, x.state), (F.keySlotInfoAttr, x.attr), (F.keySlotInfoOrigin, x.origin),
     (F.keySlotInfoParent, x.parent), (F.keySlotGenGen, x.gen), (F.keySlotGenParentGen, x.parentGen),
     (F.keySlotKcvKcv, ((s.slotKey c).map kcv).getD 0), (F.keySlotCountOrphaned, s.slotsIn slotOrphaned),
     (F.keySlotCountValid, s.slotsIn slotValid)]

/-- PRESS: the queue. -/
def State.pressNow (s : State) (f : Field) : Option Nat :=
  pickField f
    [(F.pressQueueRunningJob, ofBool s.pressJob),
     (F.pressQueueOpen, ofBool ((s.pressQueue.getLast?.map fun d => !d.last).getD false)),
     (F.pressQueueDepth, s.pressQueue.length)]

/-- A receive slot asks for ALIGNED and runs as ARRIVAL (R136). -/
def State.fallsBack (s : State) (p c : Nat) : Bool :=
  decide (c / 64 = 0) && s.slotOn p c && s.flag (pgIpp p) c F.ippStrmCfgRelease && !(s.ipSlot p c).aligned

/-- IPP: a stream slot's status, the host receive queue. -/
def State.ippNow (s : State) (p c : Nat) (f : Field) : Option Nat :=
  pickField f
    [(F.ippStrmStatusKeyLost, ofBool (s.slotKeyLost p c)), (F.ippStrmStatusFmtMismatch, ofBool (s.fmtMismatch p c)),
     (F.ippStrmStatusTypeMismatch, ofBool (s.typeMismatch p c)), (F.ippStrmStatusFallback, ofBool (s.fallsBack p c)),
     (F.ippRxqStatusRecords, (s.rxRecords p).length)]

/-- PIN_CFG shows what was written to it last, also a write that is held while a take is pending (R34, R97). -/
def State.pinCfgHeld (s : State) (f : Field) : Option Nat :=
  if F.corePinCfg0Arm.off ≤ f.off ∧ f.off ≤ F.corePinCfg3Arm.off then
    (s.pin ((f.off - F.corePinCfg0Arm.off) / 4)).heldCfg.map f.extract
  else none

/-- CORE: pending pins and the Vat. -/
def State.coreNow (s : State) (c : Nat) (f : Field) : Option Nat :=
  let b := s.bank_ c
  (s.pinCfgHeld f).or <| pickField f
    [(F.corePinStatusPending, [0, 1, 2, 3].foldl (fun n i => n + ofBool (s.pin i).pending * 2 ^ i) 0),
     (F.coreVatStatusState, b.state.code), (F.coreVatStatusSlot, b.slot.getD 0x7F), (F.coreVatStatusUe, satNat 8 b.ue),
     (F.coreVatStatusCe, satNat 8 b.ce), (F.coreVatSummaryInService, s.inService),
     (F.coreVatSummarySpares, s.freeSpares.length)]

/-- FLOWWIN: the selected flow's entry and what follows from it; all 0 for a flow that is not allocated (R85). -/
def State.flowNow (s : State) (c off : Nat) (f : Field) : Option Nat :=
  if 0x0A0 ≤ off && !s.flowValid c then some 0
  else
    let x := if s.isEgress c then xpEncode (s.xpOf c) else 0
    pickField f
      [(F.flowwinFreeCountCount, s.freeContexts), (F.flowwinXpLoEntryLo, x % 2 ^ 32), (F.flowwinXpHiEntryHi, x / 2 ^ 32),
       (F.flowwinCtx6Fanout, if s.isIngress c then (s.readers c).length else 0),
       (F.flowwinCtx7FsActive, ofBool (s.fsActive c))]

/-- ASH: a flow's run, a route's status, free entries, faulted banks. -/
def State.ashNow (s : State) (c : Nat) (f : Field) : Option Nat :=
  let run := s.audRun c
  let r := s.routeRun c
  pickField f
    [(F.ashFlowInfoValid, ofBool run.isSome), (F.ashFlowInfoDir, (run.map fun x => ofBool x.egress).getD 0),
     (F.ashFlowInfoBase, (run.map AudRun.base).getD 0), (F.ashFlowInfoChannels, (run.map AudRun.count).getD 0),
     (F.ashRouteStatusRamping, ofBool r.ramping), (F.ashRouteStatusRateErr, ofBool r.rateErr),
     (F.ashRouteStatusNoAsrc, ofBool r.noAsrc), (F.ashRouteStatusHeld, ofBool r.held),
     (F.ashRouteStatusAsrcCh, r.asrc.getD 0x3FF), (F.ashRsFreeEntries, s.routeFree),
     (F.ashBankStatusFaulted, ofBool (decide (c ∈ s.ashFaulted)))]

/-- The line and the sample of an output raster now. -/
def State.rasterPos (s : State) (p c : Nat) : Nat × Nat :=
  let r := s.raster p c
  if r.running && !r.waiting then
    let n := s.rasterCount p c
    let w := fmtSamples r.struct r.rate
    if r.lines ≤ n / w then (r.lines, min (n - (r.lines - 1) * w) (r.lastLine - 1)) else (n / w + 1, n % w)
  else (0, 0)

/-- RST and lane windows. -/
def State.windowNow (s : State) (p c : Nat) (f : Field) : Option Nat :=
  if 0x200 ≤ f.off then
    let w := s.eyeRes p c
    pickField f [(F.laneEyeResValid, F.laneEyeResValid.extract w), (F.laneEyeResSat, F.laneEyeResSat.extract w),
      (F.laneEyeResCount, F.laneEyeResCount.extract w),
      (F.laneEyeStatusPoints, if s.flag p c F.laneEyeStatusBusy then s.eyePoints p c else s.get p c F.laneEyeStatusPoints)]
  else pickField f [(F.rstPosLine, (s.rasterPos p c).1), (F.rstPosSample, (s.rasterPos p c).2)]

/-- Registers that cell 7 of a compositor shows: SHOWING and the flip record (R198). -/
def bezelShown (f : Field) : Bool :=
  decide (f = F.cpoLStatusShowing) || decide (F.cpoLFlipFrameLoFrame.off ≤ f.off ∧ f.off ≤ F.cpoLRelFrameHiFrame.off)

/-- The value of a field that the device computes as it is read; none for one that is held. -/
def State.computed (s : State) (m p c off : Nat) (f : Field) : Option Nat :=
  if off < 0x080 then s.hdrNow (home p) f
  else match pageType p with
    | 0x002 => s.pauNow f
    | 0x004 => pickField f [(F.profProfStatusPreparing, ofBool (s.profPreps.any fun x => !x.done))]
    | 0x005 => (pickField f [(F.claspStateSide, s.ownSide), (F.claspCoSelSide, s.coIn)]).or (s.windowNow p c f)
    | 0x006 => s.fltNow m f
    | 0x010 => pickField f [(F.mtxMstQuiescedQuiesced,
        (List.range 8).foldl (fun n i => n + ofBool (s.quiesced i) * 2 ^ i) 0), (F.mtxMstStatusQuiesced, ofBool (s.quiesced c)),
        (F.mtxCfgRemap, ofBool s.remapNow), (F.mtxMstStatusOutstanding, s.outstanding c)]
    | 0x020 => s.tbNow (p - pgTb 0) f
    | 0x021 => s.schedNow m f
    | 0x022 => s.synNow (p - pgSyn 0) c f
    | 0x030 => s.keyNow c f
    | 0x032 =>
        let r := s.cvuResult (p - pgCvu 0)
        pickField f [(F.cvuResultLoResult, r % 2 ^ 32), (F.cvuResultHiResult, r / 2 ^ 32)]
    | 0x033 => s.pressNow f
    | 0x040 => s.windowNow p c f
    | 0x041 => s.windowNow p c f
    | 0x042 => if off < 0x280 then s.windowNow p c f else s.ippNow (p - pgIpp 0) c f
    | 0x043 => (pickField f [(F.fabFevtPendingCount, s.fevtWait.length)]).or (s.windowNow p c f)
    | 0x050 => s.coreNow c f
    | 0x051 => s.flowNow c off f
    | 0x061 =>
        if off < 0x200 then
          (pickField f [(F.cpoFetchMbps, s.cpoFetch (s.get p 0 F.rstFormatRate) (s.cpoGet (p - pgCpo 0)))]).or (s.windowNow p c f)
        else if c = 7 ∧ bezelShown f = false then some 0
        else pickField f [(F.cpoLStatusFsMissing, ofBool (s.layerStoreless (s.cpoGet (p - pgCpo 0) c) c))]
    | 0x070 => s.ashNow c f
    | _ => none

/-! ### Words -/

/-- A field as it reads: a SHADOW field shows the value last written to it, or in the image its active copy (R34). -/
def State.fieldReads (s : State) (m p c off : Nat) (image : Bool) (f : Field) : Nat :=
  if f.access = .wo then 0
  else match s.computed m p c off f with
    | some v => v % f.modulus
    | none =>
      let h := if off < 0x080 ∧ f ≠ F.hdrErr ∧ f ≠ F.hdrIntStat then home p else p
      if f.cls = .shadow ∧ image = false then s.getLast h c f else s.get h c f

/-- STATUS bits that copy another register or count as they are read. -/
def State.statusExtra (s : State) (p : Nat) : Nat :=
  let h := home p
  ofBool (s.lockOwner p).isSome * 2 ^ 3 + s.get h 0 F.hdrCommit * 2 ^ 2 +
  (match pageType p with
    | 0x021 => ofBool (decide (scheduleSize ≤ s.events.length)) * 2 ^ 16 + ofBool (decide (s.poolFree = 0)) * 2 ^ 17
    | 0x022 => ofBool (!s.bandOk (p - pgSyn 0)) * 2 ^ 19
    | 0x071 => s.asrcFree (p - pgAsrc 0) * 2 ^ 16
    | _ => 0)

/-- A register word, without the effects of a read. -/
def State.wordReads (s : State) (m p off : Nat) (image : Bool) : Nat :=
  if off = 0x000 then pageId p
  else if off = 0x004 then 0x100
  else if decide (pageType p = 0x043 ∧ p ≠ pgFab 0) && decide (0x080 ≤ off ∧ off < F.fabCtrlEn.off) then 0
  else
    let c := if off < 0x080 then 0 else s.cellOf m p off
    let w := (fieldsAt p off).foldl (fun n f => n + s.fieldReads m p c off image f * 2 ^ f.lo) 0
    if off = F.hdrStatusEng.off then w + s.statusExtra p else w

/-! ### Effects of a read -/

/-- Registers that a read of a register latches for the reading master: its _HI register, and the rest of a record (R28, R63,
R192, R230). -/
def latchedBy (p off : Nat) : List Nat :=
  if off = 0x024 then [0x028]
  else match pageType p with
    | 0x001 => if off = 0x0A4 then [0x0A8] else []
    | 0x004 => if off = 0x088 ∨ off = 0x0A8 then [off + 4] else []
    | 0x005 => if off = 0x0C4 then [0x0C8] else []
    | 0x020 => if off = 0x098 then [0x09C] else if off = 0x0A8 then [0x0AC, 0x0B0] else []
    | 0x021 => if off = 0x0B8 then [0x0BC] else []
    | 0x030 => if off = 0x084 ∨ off = 0x08C ∨ off = 0x0AC then [off + 4] else []
    | 0x031 => if off = 0x0C4 ∨ off = 0x0DC ∨ off = 0x0E4 then [off + 4] else []
    | 0x032 => if off ∈ [0x084, 0x08C, 0x094, 0x0B0, 0x0C8] then [off + 4] else []
    | 0x043 => if off = 0x094 ∨ off = 0x108 then [off + 4] else []
    | 0x051 => if off = 0x0C0 then [0x0C4] else []
    | 0x060 => if off = 0x090 ∨ off = 0x104 then [off + 4] else []
    | 0x070 => if off = 0x0A8 then [0x0AC] else []
    | 0x072 => if off = 0x08C ∨ off = 0x0B0 then [off + 4] else []
    | ty =>
      if ty = 0x041 ∨ ty = 0x042 ∨ ty = 0x061 then
        (if off = 0x11C then [0x120]
         else if off = 0x148 then [0x14C, 0x150]
         else if off = 0x158 then [0x15C, 0x160, 0x164, 0x168]
         else if off = 0x160 then [0x164]
         else if ty = 0x042 then (if off ∈ [0x088, 0x0A0, 0x0CC, 0x2A0, 0x2C0] then [off + 4] else [])
         else if ty = 0x061 then
           (if off = 0x094 ∨ off = 0x208 ∨ off = 0x238 ∨ off = 0x24C ∨ off = 0x258 then [off + 4]
            else if off = 0x244 then [0x248, 0x24C, 0x250, 0x254, 0x258, 0x25C] else [])
         else [])
      else []

/-- The latch of a master for a register: one of the header belongs to the engine, on whichever of its pages it is read (R29). -/
def latchKey (m p off : Nat) : Key := ⟨m, if off < 0x080 then home p else p, off⟩

/-- RC fields of a word return to 0 (R9). -/
def State.clearRead (s : State) (p c off : Nat) : State :=
  (fieldsAt p off).foldl (fun s f => if f.access = .rc then s.put p c f 0 else s) s

/-- Values that a read finds and no rule states: the mirror's queue on a lead with a partner, a link partner's fault
signal. -/
def State.openBits (s : State) (p off : Nat) : Nat × State :=
  if p = pgClasp ∧ off = F.claspMirrorQueued.off ∧ s.role = roleLead ∧ s.paired = true then
    let (v, s1) := s.draw
    (v % 2 ^ 32, s1)
  else if pageType p = 0x042 ∧ off = F.ippLinkStatusUp.off then
    let (v, s1) := s.draw
    (v % 2 * 2 ^ F.ippLinkStatusRemoteFault.lo, s1)
  else if pageType p = 0x042 ∧ off = F.laneCntBlkErr.off ∧ s.running p = true then
    let (v, s1) := s.draw
    (v % 2 ^ F.laneCntBlkErr.width, s1)
  else (0, s)

/-- DONE: the oldest handle (R81). -/
def State.doneRead (s : State) : Nat × State :=
  let ovf := ofBool s.doneOvf * 2 ^ F.schedDoneOvf.lo
  match s.doneLog with
  | h :: t => (2 ^ F.schedDoneValid.lo + ovf + h, { s with doneLog := t, doneOvf := false })
  | [] => (ovf, { s with doneOvf := false })

/-- A read of a register of a populated page below +0x800. -/
def State.registerRead (s : State) (m p off : Nat) : Nat × State :=
  match Assoc.find Key.code (latchKey m p off) s.latch with
  | some v => (v, { s with latch := Assoc.erase Key.code (latchKey m p off) s.latch })
  | none =>
    if p = pgSched ∧ off = F.schedDoneHandle.off then s.doneRead
    else if p = pgPress ∧ off = F.pressDoneW0Record.off then s.pressRead m
    else if pageType p = 0x042 ∧ off = F.ippRxqDataWord.off then s.rxqRead (p - pgIpp 0)
    else if p = pgFab 0 ∧ off = F.fabFevtAckTag.off then s.ackRead
    else
      let w := s.wordReads m p off false
      let (v, s1) := s.openBits p off
      let s2 := (s1.clearRead p (if off < 0x080 then 0 else s.cellOf m p off) off)
      (w + v, (latchedBy p off).foldl (fun x o =>
        { x with latch := Assoc.set Key.code (latchKey m p o) (s.wordReads m p o false) x.latch }) s2)

/-- A word of the image: what a read of the register would return, without what the read does (R34). -/
def State.imageRead (s : State) (m p off : Nat) : Nat :=
  if p = pgSched ∧ off = F.schedDoneHandle.off then s.doneRead.1
  else if p = pgPress ∧ off = F.pressDoneW0Record.off then (s.pressRead m).1
  else if pageType p = 0x042 ∧ off = F.ippRxqDataWord.off then (s.rxqRead (p - pgIpp 0)).1
  else if p = pgFab 0 ∧ off = F.fabFevtAckTag.off then s.ackRead.1
  else s.wordReads m p off true

/-- A read at an offset of a page: reserved pages read 0; +0x880 to +0xFFF is the read-only image of the engine registers; a
misaligned read is discarded with BAD_ACCESS, and what it returns is open. -/
def State.pageRead (s : State) (m p off : Nat) : Nat × State :=
  if !populated p then (0, s)
  else if off % 4 ≠ 0 then
    let (v, s1) := s.draw
    (v % 2 ^ 32, s1.setErr p errBadAccess)
  else if off < 0x800 then s.registerRead m p off
  else if 0x880 ≤ off then
    let (v, s1) := s.openBits p (off - 0x800)
    (s.imageRead m p (off - 0x800) + v, s1)
  else (0, s)

/-! ### Reads of the internal address map (R45) -/

/-- A 32-bit read of an internal address by a master; none where it ends with an error. PCI Express reaches T5 and T4
alone. -/
def State.busRead (s : State) (m a : Nat) : Option Nat × State :=
  match (s.place a).bind fun n => (targetOf n).map fun t => (t, n) with
  | some (.pages, n) =>
    let (v, s1) := s.pageRead m ((n - 0x40000000) / 0x1000) (n % 0x1000)
    (some v, s1)
  | some (.hbm, _) => ((s.readBytes a 4).map leValue, s)
  | some _ => (if m = 0 then none else (s.readBytes a 4).map leValue, s)
  | none => (none, s)

/-! ### The rows that read -/

/-- LO_REGISTER_READ (R28): a read that latches what goes with the register; the same row reads BAR4 and the internal address
map (R26, R45). -/
def execLoRegisterRead (m : Fin 8) (space : ReadSpace) (off : Nat) (s : State) : Host.Outcome State Fault Refusal :=
  .next (match space with
    | .page page => s.readAs m fun s => s.pageRead m page (off % 0x1000)
    | .bar4 => if s.masterOpen 0 then s.answer 0 (.data (s.readBar4 off)) else s.answer 0 .error
    | .internal =>
      if s.controlReset || !s.masterOpen m then s.answer m .error
      else match s.busRead m off with
        | (some v, s1) => s1.answer m (.data v)
        | (none, s1) => s1.answer m .error)

/-- RC_READ (R9): a read that clears the RC fields of the register. -/
def execRcRead (m : Fin 8) (page : Fin 4096) (off : Nat) (s : State) : Host.Outcome State Fault Refusal :=
  .next (s.readAs m fun s => s.pageRead m page (off % 0x1000))

/-- DONE_READ (R81). -/
def execDoneRead (m : Fin 8) (s : State) : Host.Outcome State Fault Refusal :=
  .next (s.readAs m fun s => s.pageRead m pgSched F.schedDoneHandle.off)

/-- RXQ_DATA_READ (R149). -/
def execRxqDataRead (m p : Fin 8) (s : State) : Host.Outcome State Fault Refusal :=
  .next (s.readAs m fun s => s.pageRead m (pgIpp p) F.ippRxqDataWord.off)

end Sys2Proof.Machine
end

