-- ==== Sys2Proof/Machine/Mirror.lean ====
section
/-! DEFINITION. What a twin takes from its partner: mirrored writes, events and memory, the lead's decisions, the image of a
join (R301 to R305, R315, R318 to R320). -/

namespace Sys2Proof.Machine

/-! ### Writes under an index of their own (R301, R340) -/

/-- Index fields with the values that a write is to find: bank or 0, the field, the value. -/
abbrev IndexSet := List (Nat × Field × Nat)

/-- Run an operation with index registers of a page set, and set them back. -/
def State.underIndex (s : State) (p : Nat) (l : IndexSet) (k : State → State) : State :=
  let was := l.map fun x => (x.1, x.2.1, s.get p x.1 x.2.1)
  let set := fun (s : State) (l : IndexSet) => l.foldl (fun s x => s.put p x.1 x.2.1 x.2.2) s
  set (k (set s l)) was

/-- The index in force that a message carries, as fields of the page: what `State.mirrorCell` reads, set again. Banked
registers are taken in the bank of M3. -/
def mirrorIndex (p off cell : Nat) : IndexSet :=
  if p = pgFlow then [(3, F.flowwinFlowIndexFlow, cell)]
  else if p = pgSched then [(0, F.schedSalvoIndexSalvo, cell)]
  else if p = pgProf then [(0, F.profProfIndexCell, cell)]
  else if p = pgBez then (if 0x0C0 ≤ off then [(0, F.bezCellIndexCell, cell)] else [])
  else if p = pgCore then (if off = 0x0B4 ∨ off = 0x0B8 then [(0, F.coreVatIndexBank, cell)] else [])
  else if p = pgAsh then
    (if off = 0x084 ∨ off = 0x088 then [(0, F.ashFlowQFlow, cell)]
     else if off = 0x094 ∨ off = 0x098 then [(0, F.ashRouteIndexOut, cell)]
     else if 0x0A4 ≤ off ∧ off ≤ 0x0B0 then [(0, F.ashRsIndexSet, cell)]
     else if off = 0x0D4 then [(0, F.ashBankIndexBank, cell)] else [])
  else match pageType p with
    | 0x022 => if off = 0x0C4 ∨ off = 0x0C8 then [(0, F.synOutIndexOut, cell)] else []
    | 0x040 => if off = 0x0A4 then [(0, F.sdirxAncIndexFilter, cell)] else []
    | 0x042 =>
        if 0x0C8 ≤ off ∧ off ≤ 0x0E0 then
          [(0, F.ippLinkIndexLink, cell / 8), (0, F.ippSaIndexDir, cell / 4 % 2), (0, F.ippSaIndexAn, cell % 4)]
        else if 0x088 ≤ off ∧ off ≤ 0x0E4 ∧ off ≠ 0x0C4 then [(0, F.ippLinkIndexLink, cell)]
        else if 0x100 ≤ off ∧ off < 0x200 then [(0, F.ippRstIndexRaster, cell)]
        else if 0x284 ≤ off ∧ off < 0x300 then [(0, F.ippStrmIndexDir, cell / 64), (0, F.ippStrmIndexSlot, cell % 64)]
        else []
    | 0x043 =>
        if 0x104 ≤ off ∧ off ≤ 0x10C then [(0, F.fabSlotIndexDir, cell / 256), (0, F.fabSlotIndexSlot, cell % 256)] else []
    | 0x060 => [(0, F.cnvCellIndexCell, cell)]
    | 0x061 => if 0x200 ≤ off then [(0, F.cpoCellIndexCell, cell)] else []
    | 0x071 => if off = 0x084 ∨ off = 0x088 then [(0, F.asrcChIndexCh, cell)] else []
    | _ => []

/-- A word written at a cell of a page, as M3 writes it. -/
def State.writeAt (s : State) (p cell off w : Nat) : State :=
  s.underIndex p (mirrorIndex p off cell) fun s => s.pageWrite 3 p off w

/-! ### Mirrored writes and events (R301, R302) -/

/-- DEV.PROFILE of the lead: the event it entered came ahead of the write, and PROFILE_STATUS shows it; a request that the
lead refused is refused here. -/
def State.mirrorProfile (s : State) (w : Nat) : State :=
  let sel := F.devProfileSel.extract w
  match s.events.find? fun e => decide (e.kind = .profile ∧ e.arg = sel ∧ e.tb = F.devProfileTb.extract w) with
  | some e => if bit w 31 then s.profStatus evOk e.handle else s
  | none => s.writeDevProfile w

/-- A mirrored write reaches the shadow. Events travel by themselves, so what stages and submits them does nothing; a Bezel
message travels by itself while the pair masks. -/
def State.mirrorWritten (s : State) (p cell off w : Nat) : State :=
  if p = pgSched ∧ 0x080 ≤ off ∧ off ≤ 0x0A0 then s
  else if p = pgBez ∧ off = F.bezMsgGoGo.off ∧ s.bezPaired = true then s
  else if p = pgDev ∧ off = F.devProfileGo.off then s.mirrorProfile w
  else s.access 3 p off fun s => (s.writeAt p cell off w).waiveWrite p cell off

/-- Who entered a mirrored event, as far as the shadow needs to know. -/
def State.mirrorOrigin (s : State) (k : EvKind) : EvOrigin :=
  match k with
  | .pageCommit => .page
  | .layerCommit => .page
  | .profile => if s.flag pgProf 0 F.profCtrlPins then .pins else .submit 3
  | _ => .submit 3

/-- The commit unit of a page's own event: a layer, a raster of an IP port, else the header commit. -/
def eventUnit (e : Event) : Nat :=
  if e.kind = .layerCommit ∨ pageType e.page = 0x042 then e.arg + 1 else 0

/-- A mirrored event is entered as the lead entered it, its deadline unchecked; a page's own event is its COMMIT request. -/
def State.mirrorEvent (s : State) (h : Nat) (w0 w1 w2 w3 : Nat) : State :=
  match evKindOf (bits w0 28 4) with
  | none => s
  | some k =>
    let e0 := eventOf w0 w1 w2 w3 k (s.mirrorOrigin k)
    let e := { e0 with handle := h, unit := eventUnit e0 }
    if (s.pendingEvent h).isSome then s
    else if e.origin = .page then
      (if s.canRequest e.page e.unit then (s.enterAs e).takeRequest e.page e.unit (some (e.frame, h)) else s)
    else (s.enterAs e).startLateCopy e h

/-- A mirrored cancellation. -/
def State.mirrorCancelled (s : State) (h : Nat) : State :=
  match s.pendingEvent h with
  | none => s
  | some e =>
    if e.origin = .page then
      (if (s.unit e.page e.unit).handle = some h then s.cancelCommit e.page e.unit else s.dropNext e.page e.unit .cancelled)
    else if e.kind = .profile then s.cancelProfile e
    else
      let s1 := s.endEvent h .cancelled
      { s1 with bank := s1.bank.filter fun c => decide (c.owner ≠ .event h) }

/-! ### What the twins tell each other (R304, R305, R315 to R320) -/

/-- The pair falls apart because the mirror cannot follow: DESYNC on both; the shadow leaves, the lead goes on alone. -/
def State.desync (s : State) : State :=
  let s1 := s.raise pgClasp 20
  if s.role = roleLead then s1.goSolo else s1.detach

/-- A twin hears what its partner tells. -/
def State.heard (s : State) (k : Nat) : State :=
  let lead := decide (s.role = roleLead)
  let shadow := decide (s.role = roleShadow)
  if k = tellJoin then s.joinHeard
  else if k = tellRelease then (if lead && decide (s.pairing ≠ pairDetached) then s.goSolo else s)
  else if k = tellHandOver then (if shadow then s.promote s.lowestStart else s)
  else if k = tellSupply then (if lead && decide (s.pairing = pairReady) then s.driveAway s.ownSide else s)
  else if k = tellDesync then (if decide (s.pairing ≠ pairDetached) then s.desync else s)
  else s

/-- The partner's pairing state: DETACHED, the partner has left; JOIN_ALIGN, its skew sent it back (R316). -/
def State.partnerState (s : State) (st : Nat) : State :=
  if s.pairing = pairDetached then s
  else if st = pairDetached then (if s.role = roleLead then s.goSolo else s.joinFails 6)
  else if st = pairAlign ∧ s.pairing = pairReady then s.putPairing pairAlign
  else s

/-- A forwarded pin take, with the switch point that the lead's gate chose. -/
def State.mirrorTake (s : State) (n : Nat) (following : Bool) : State :=
  if s.pinActs n && !(s.pin n).pending then s.takeOnPin n following else s

/-- The profile selection of the lead's pins; the event they request comes by itself. -/
def State.mirrorSelection (s : State) (sel : Option Nat) : State := { s with pinRetry := none }.takeSelection sel

/-- A decision of the partner, or a result. -/
def State.mirrorDecision (s : State) (p c : Nat) (v : List Nat) : State :=
  if p = pgClasp then s.heard (v.headD 0)
  else if p = pgBez then s.bezPartner c (decide (v = [1]))
  else if s.role ≠ roleShadow then s
  else if p = pgCore then s.mirrorTake c (decide (v = [1]))
  else if p = pgProf then s.mirrorSelection v.head?
  else if pageType p = 0x020 then s.alignFrame (p - pgTb 0) (v.headD 0)
  else { s with decisions := Assoc.set Key.code ⟨p, c, 0⟩ v s.decisions }

/-! ### The image of a join (R315) -/

/-- A value of the lead's Cave image: a register of a mirrored page, or a table entry. -/
def State.joinField (s : State) (p c slot v : Nat) : State :=
  if slot = tableSlot then
    (if p = pgFlow then { s with xp := Tab.put c (xpDecode v) s.xp }
     else if p = pgAsh then { s with audRuns := audRunOf c v :: s.audRuns.filter fun r => decide (r.flow ≠ c) }
     else s)
  else match fieldAtSlot p slot with
    | some f => if isMirrored p f.off then s.put p c f v else s
    | none => s

/-- The lead's image of a profile cell. -/
def State.joinProfile (s : State) (cell : Nat) (b : Bytes) : State :=
  { s with mem := Memory.writeBytes (Memory.clear s.mem (profileBase cell) profileCellBytes) (profileBase cell)
                    (b.take profileCellBytes) }.putProfCell cell ⟨true, b.length⟩

/-- A LUT copy of the lead. -/
def State.joinLut (s : State) (n c sel : Nat) (b : Bytes) : State :=
  let x := s.cnvCell n c
  s.putCnvCell n c { x with luts := (sel, b) :: x.luts.filter fun e => decide (e.1 ≠ sel) }

/-! ### MIRROR_RECEIVE -/

/-- What a message of the partner does. -/
def State.mirrorApply (s : State) : MirrorMsg → State
  | .write p c off w => s.mirrorWritten p c off w.toNat
  | .event h w0 w1 w2 w3 => s.mirrorEvent h.toNat w0.toNat w1.toNat w2.toNat w3.toNat
  | .cancel h => s.mirrorCancelled h.toNat
  | .hbm a b => s.pokeBytes 3 a b
  | .bezel c b => s.bezCopied c b
  | .bezelResult c ok => s.bezPartner c ok
  | .pinTake n f => s.mirrorTake n f
  | .pinProfile sel => s.mirrorSelection (sel.map Fin.val)
  | .decision p c v => s.mirrorDecision p c v
  | .target p n ts =>
      let c := strmCell 0 n
      s.putIpSlot p c { s.ipSlot p c with target := some ts.toNat }
  | .join => s.heard tellJoin
  | .state st => s.partnerState st
  | .release => s.heard tellRelease
  | .handOver => s.heard tellHandOver
  | .field p c slot v => s.joinField p c slot v
  | .salvo n es => { s with salvos := Tab.put n.val (es.map fun w => xpDecode w.toNat) s.salvos }
  | .routeSet n es =>
      { s with routeSets := Tab.put n.val (es.map fun w => ⟨bits w.toNat 51 13, bits w.toNat 0 32⟩) s.routeSets }
  | .lut n c sel b => s.joinLut n c sel b
  | .bezelImage c b => s.putBez c { s.bezCell c with image := b }
  | .profile c b => s.joinProfile c b

/-- Does a message tell of the pair itself, or carry what hardware decides, so that no pause of the mirror holds it (R320)? -/
def msgImmediate : MirrorMsg → Bool
  | .join => true
  | .state _ => true
  | .release => true
  | .handOver => true
  | .decision _ _ _ => true
  | .bezelResult _ _ => true
  | .pinTake _ _ => true
  | .pinProfile _ => true
  | _ => false

/-- Is a message a write into HBM? -/
def msgIsHbm : MirrorMsg → Bool
  | .hbm _ _ => true
  | _ => false

/-- Page writes that a lead queues while its shadow's mirror pauses (R320). -/
abbrev mirrorQueue : Nat := 32768

/-- A message comes in: a shadow takes it, holds it for the image of its join, or holds it while its mirror pauses; every twin
hears what concerns the pair. -/
def State.mirrorReceive (s : State) (x : MirrorMsg) : State :=
  if msgImmediate x then s.mirrorApply x
  else if s.role ≠ roleShadow then s
  else if s.pairing = pairCopy then { s with mirrorHeld := s.mirrorHeld ++ [x] }
  else if s.controlReset then
    (if msgIsHbm x || decide (mirrorQueue ≤ s.mirrorHeld.length) then (s.tell tellDesync).desync
     else { s with mirrorHeld := s.mirrorHeld ++ [x] })
  else s.mirrorApply x

/-- MIRROR_RECEIVE (R302). -/
def execMirrorReceive (x : MirrorMsg) (s : State) : Host.Outcome State Fault Refusal := .next (s.mirrorReceive x)

/-- The messages that were held are applied in their order. -/
def State.mirrorRelease (s : State) : State := s.mirrorHeld.foldl State.mirrorApply { s with mirrorHeld := [] }

/-- JOIN_COPY_DONE (R315): the image is applied, then what was held; the pair aligns. A lead whose snapshot still waits for its
frame boundary has sent no image. -/
def execJoinCopyDone (image : List MirrorMsg) (s : State) : Host.Outcome State Fault Refusal :=
  .next (
    if s.pairing ≠ pairCopy ∨ s.joinDue = true then s
    else if s.role = roleShadow then ((image.foldl State.mirrorApply s).mirrorRelease).putPairing pairAlign
    else s.putPairing pairAlign)

/-- CONTROL_RESET_DONE (R53, R320): the restart ends, and a shadow's mirror goes on. -/
def execControlResetDone (s : State) : Host.Outcome State Fault Refusal :=
  .next (
    if !s.controlReset then s
    else if s.pairing = pairCopy then s.controlEnd
    else s.controlEnd.mirrorRelease)

end Sys2Proof.Machine
end

