-- ==== Sys2Proof/Machine/ProfRun.lean ====
section
/-! DEFINITION. Preparing and applying a profile (R340 to R343). -/

namespace Sys2Proof.Machine

/-! ### The profile engine's own index registers (R336, R340) -/

/-- Where the profile engine's index registers stand: by page and offset, the word last written. -/
abbrev ProfIndex := Tab Nat

/-- A register's place in that table. -/
def profIndexKey (p off : Nat) : Nat := p * 0x1000 + off

/-- Every index field of a page with the profile engine's value for it. -/
def profIndexSet (t : ProfIndex) (p : Nat) : IndexSet :=
  ((pageFields p).filter fun f => isIndexReg p f.off).map fun f => (0, f, f.extract (Tab.at 0 t (profIndexKey p f.off)))

/-- The state as the profile engine's accesses to a page find it. -/
def State.asProfile (s : State) (t : ProfIndex) (p : Nat) : State :=
  (profIndexSet t p).foldl (fun s x => s.put p x.1 x.2.1 x.2.2) s

/-! ### Commit units (R341, R342) -/

/-- Does a write at a unit of a page need a commit? Slot masks apply at every switch line; the pages AUP, ASH and FAB have no
SHADOW fields under a commit. -/
def profCommits (p u : Nat) : Bool :=
  decide (pageType p ∉ [0x043, 0x070, 0x072]) && decide (u < 0x201 ∨ p = pgFlow)

/-- Does what a unit governs run? -/
def State.unitRuns (s : State) (p u : Nat) : Bool :=
  if p = pgFlow then s.flowEn (u - 1)
  else if pageType p = 0x042 ∧ 0x101 ≤ u then s.slotOn (p - pgIpp 0) (u - 0x101)
  else s.running p

/-- The frame of a raster LOCKED to a timebase in which a profile commits: F, or the next where the capture instant of F has
passed. -/
def State.profRaster (s : State) (k frame p c u : Nat) : Option Nat :=
  let r := s.raster p c
  if r.running && decide (r.mode = modeLocked ∧ r.tb = k) then
    some (if s.rasterLate p c u frame then frame + 1 else frame)
  else none

/-- The frame in which a profile for frame F of a timebase commits at a unit; none where another timebase, or none, governs
it (R341). -/
def State.profFrame (s : State) (k frame p u : Nat) : Option Nat :=
  if p = pgFlow then (if s.get pgFlow (u - 1) F.flowwinCtx0Tb = k then some frame else none)
  else match pageType p with
    | 0x041 => s.profRaster k frame (pgSditx (s.txPort (p - pgSditx 0))) 0 u
    | 0x061 => s.profRaster k frame p 0 u
    | 0x042 =>
      if 0x101 ≤ u then
        (if (u - 0x101) / 64 = 1 then s.profRaster k frame p (s.get p (u - 0x101) F.ippStrmCfgRaster) u else none)
      else if u = 0 then none
      else s.profRaster k frame p (u - 1) u
    | 0x060 =>
      let n := p - pgCnv 0
      if s.cnvFollow n = false ∧ s.cnvTb n = k then some (if s.cnvLate n frame then frame + 1 else frame) else none
    | _ => none

/-- The profile's own request at a unit, for a frame; behind a captured commit it is for the commit point that follows. -/
def State.profRequest (s : State) (p u frame : Nat) : State :=
  let x := s.unit p u
  if s.commitPending p u then s.putUnit p u { x with next := some none }
  else (s.putCommit p u true).putUnit p u { x with captured := false, frame := some frame, handle := none, next := none }

/-- A request at the next commit point, as the unit's own commit register makes it. -/
def State.profLater (s : State) (p u : Nat) : State :=
  if p = pgFlow then s.requestCommit p u
  else if u = 0 then s.hdrRequest p false
  else if pageType p = 0x042 then
    (if 0x101 ≤ u then s.writeStrmCommit (p - pgIpp 0) (u - 0x101) 1 else s.writeRstCommit p (u - 1) 1)
  else if pageType p = 0x061 then s.writeLayerCommit (p - pgCpo 0) (u - 1) 1
  else s

/-! ### One word of a profile (R340) -/

/-- Does what a register governs run? A stream slot runs by itself. -/
def State.profRuns (s : State) (p c off : Nat) : Bool :=
  if p = pgFlow then s.flowEn c
  else if pageType p = 0x042 ∧ 0x284 ≤ off ∧ off < 0x300 then s.slotOn (p - pgIpp 0) c
  else s.running p

/-- Is a field written during preparation? SHADOW fields, and IDLE fields of what is stopped. -/
def profNow (run : Bool) (f : Field) : Bool :=
  decide (f.access = .rw) && (decide (f.cls = .shadow) || (decide (f.cls = .idle) && !run))

/-- Is a field held for the switch point? -/
def profHeld (f : Field) : Bool :=
  (decide (f.access = .rw) && decide (f.cls = .live ∨ f.cls = .none)) || decide (f.access = .wo ∨ f.access = .w1s)

/-- A word that writes the fields of a choice from a profile's word and leaves every other field. -/
def State.mergeWord (s : State) (p c off w : Nat) (take : Field → Bool) : Nat :=
  (fieldsAt p off).foldl (fun n f =>
    n + (if take f then f.extract w else if f.access = .rw then s.getLast p c f else 0) * 2 ^ f.lo) 0

/-- A unit is written for the first time: a commit that is pending on it is withdrawn, and the profile carries its own (R342). -/
def State.profTouch (s : State) (x : ProfilePrep) (p u : Nat) : State × ProfilePrep :=
  if !profCommits p u || decide ((p, u) ∈ x.units) then (s, x)
  else (s.cancelCommit p u, { x with units := x.units ++ [(p, u)] })

/-- What a preparation keeps of the shadow copies of a word before it writes them. -/
def State.profSaves (s : State) (p c off : Nat) : List (Key × Nat) :=
  ((fieldsAt p off).filter fun f => decide (f.cls = .shadow)).map fun f => (f.key p c, s.getShadow p c f)

/-- A word of a profile at a cell: its SHADOW fields, and the IDLE fields of what is stopped, are written; LIVE fields are held;
other IDLE fields count as one entry skipped. `cell` names the cell for the held write. -/
def State.profWord (s0 : State) (x0 : ProfilePrep) (p c cell off w : Nat) : State × ProfilePrep :=
  let fs := fieldsAt p off
  let (s, x1) := s0.profTouch x0 p (unitOf p c (off * 32))
  let run := s.profRuns p c off
  let now := fs.any (profNow run)
  let skip := run && fs.any fun f => decide (f.access = .rw ∧ f.cls = .idle)
  let x2 := { x1 with
    held := if fs.any profHeld then x1.held ++ [(p, cell, off, w)] else x1.held
    saved := if run && now then s.profSaves p c off ++ x1.saved else x1.saved
    skip := x1.skip + ofBool skip }
  (if now then s.writeAt p cell off (s.mergeWord p c off w (profNow run)) else s, x2)

/-- A WRITES entry: an index register is the profile engine's own; a resetting engine takes nothing (R34). -/
def State.profEntry (y : State × ProfilePrep × ProfIndex) (b : Bytes) : State × ProfilePrep × ProfIndex :=
  let (s, x, t) := y
  let (p, off, w) := profWrite b
  if isIndexReg p off then
    (if s.indexBad p off w then (s.setErr p errBadValue, x, t) else (s, x, Tab.put (profIndexKey p off) w t))
  else if s.resetting p then (s.setErr p errResetWrite, x, t)
  else
    let scratch := s.asProfile t p
    let (s1, x1) := s.profWord x p (scratch.cellOf 3 p off) (scratch.mirrorCell 3 p off) off w
    (s1, x1, t)

/-! ### FLOWS (R340) -/

/-- The words CTX0 to CTX6 of a FLOWS entry at an allocated flow; what is skipped of them counts as one entry. -/
def State.profContext (s : State) (x : ProfilePrep) (f : Nat) (b : Bytes) : State × ProfilePrep :=
  let y := [1, 2, 3, 4, 5, 6, 0].foldl (fun (y : State × ProfilePrep) n =>
    y.1.profWord y.2 pgFlow f f (F.flowwinCtx0En.off + 4 * n) (profCtx b n)) (s, x)
  (y.1, { y.2 with skip := min y.2.skip (x.skip + 1) })

/-- A FLOWS entry: a flow to be freed, a free flow ID to be allocated, a flow to be updated, or an entry that is skipped. -/
def State.profFlowEntry (y : State × ProfilePrep) (b : Bytes) : State × ProfilePrep :=
  let (s, x) := y
  let f := profFlow b
  let w := profCtx b 0
  let dir := F.flowwinCtx0Dir.extract w
  let ty := F.flowwinCtx0Type.extract w
  if F.flowwinCtx0Valid.extract w = 0 then (s, { x with flows := x.flows ++ [f] })
  else if s.flowValid f then
    (if s.get pgFlow f F.flowwinCtx0Dir = dir ∧ s.flowType f = ty then s.profContext x f b
     else (s, { x with skip := x.skip + 1 }))
  else if ty = 3 then (s, { x with skip := x.skip + 1 })
  else
    let s1 := (((s.clearContext f).put pgFlow f F.flowwinCtx0Valid 1).put pgFlow f F.flowwinCtx0Dir dir).put pgFlow f
      F.flowwinCtx0Type ty
    s1.profContext x f b

/-! ### PROFILE_PREPARE (R340 to R342) -/

/-- The profile carries the commit of a unit: for frame F where its timebase governs it, else from the switch point on. What
does not run has taken its fields already. -/
def State.profCarry (k frame : Nat) (y : State × ProfilePrep) (u : Nat × Nat) : State × ProfilePrep :=
  let (s, x) := y
  if !s.unitRuns u.1 u.2 then (s, { x with units := x.units.filter fun v => decide (v ≠ u) })
  else match s.profFrame k frame u.1 u.2 with
    | some n => (s.profRequest u.1 u.2 (n % frameModulus), x)
    | none => (s, x)

/-- A preparation before its first step. -/
def prepOf (e : Event) : ProfilePrep :=
  { handle := e.handle, cell := e.arg, tb := e.tb, corrupt := false, frame := e.frame, held := [], flows := [], xps := []
    units := [], saved := [], skip := 0, refused := 0, done := false }

/-- The image of a profile cell. -/
def State.profImage (s : State) (n : Nat) : Bytes :=
  Memory.readBytes s.mem (profileBase n) (Tab.at ⟨false, 0⟩ s.profCells n).bytes

/-- A preparation whose image fails its CRC: nothing is applied, PROF_LAST reads CORRUPT, a fault is recorded. -/
def State.profCorrupted (s : State) (e : Event) : State :=
  let x := { prepOf e with corrupt := true }
  ((({ s with profPreps := s.profPreps ++ [x] }.profLast x profCorrupt).setErr pgProf 16).fault fltConfigUpset respNone 0
    pgProf e.arg 0).raise pgProf 18

/-- A PROFILE event is prepared: FLOWS, WRITES, XP in this order, then the commits that the profile carries. -/
def State.profPrepare (s : State) (e : Event) : State :=
  let image := s.profImage e.arg
  if !profCrcOk image then s.profCorrupted e
  else match profParse image with
    | none => s.profCorrupted e
    | some ss =>
      let y1 := (profEntries ss 1).foldl State.profFlowEntry (s, prepOf e)
      let (s2, x2, _) := (profEntries ss 2).foldl State.profEntry (y1.1, y1.2, [])
      let x3 := { x2 with xps := (profEntries ss 3).map fun b => xpDecode (leValue b) }
      let (s4, x4) := x3.units.foldl (State.profCarry e.tb e.frame) (s2, x3)
      { s4 with profPreps := s4.profPreps ++ [x4] }

/-- Is a profile event prepared? -/
def State.profPrep (s : State) (h : Nat) : Option ProfilePrep :=
  s.profPreps.find? fun x => decide (x.handle = h) && !x.done

/-- Preparations whose event has gone without them are given up. -/
def State.profAbandon (s : State) : State :=
  let lost := s.profPreps.filter fun x => !x.done && (s.pendingEvent x.handle).isNone
  if lost.isEmpty then s
  else
    let s1 := lost.foldl State.dropPrep s
    { s1 with profPreps := s1.profPreps.filter fun x => x.done || (s1.pendingEvent x.handle).isSome }

/-- PROFILE_PREPARE (R340): the deadline of a pending PROFILE event. -/
def execProfilePrepare (handle : BitVec 16) (s : State) : Host.Outcome State Fault Refusal :=
  .next (match s.pendingEvent handle.toNat with
    | some e => if decide (e.kind = .profile) && (s.profPrep e.handle).isNone then s.profAbandon.profPrepare e else s
    | none => s)

/-! ### The switch point (R341) -/

/-- The storage cell that a write at a cell reaches. -/
def State.cellAt (s : State) (p off cell : Nat) : Nat :=
  ((mirrorIndex p off cell).foldl (fun s x => s.put p x.1 x.2.1 x.2.2) s).cellOf 3 p off

/-- A held write: the word's LIVE fields. -/
def State.profLive (s : State) (h : Nat × Nat × Nat × Nat) : State :=
  let (p, cell, off, w) := h
  if s.resetting p then s.setErr p errResetWrite
  else s.writeAt p cell off (s.mergeWord p (s.cellAt p off cell) off w profHeld)

/-- A flow is freed where R85 allows it. -/
def State.profFree (s : State) (f : Nat) : State :=
  if !s.flowValid f || s.flowEn f || (s.isIngress f && !(s.readers f).isEmpty) then s
  else
    let s1 := if s.isEgress f then s.disconnect f else s.dropStore f
    ((s1.closeCommit pgFlow (f + 1)).putUnit pgFlow (f + 1) CommitUnit.idle).clearContext f

/-- The commits of units that the profile's timebase does not govern are requested at the switch point. -/
def State.profUngoverned (x : ProfilePrep) (s : State) (u : Nat × Nat) : State :=
  if (s.profFrame x.tb x.frame u.1 u.2).isSome then s
  else if s.unitRuns u.1 u.2 then s.profLater u.1 u.2
  else s.profSettled u.1 u.2

/-- PROF_LAST, and the interrupt of how the profile ended. -/
def State.profEnds (s : State) (x : ProfilePrep) : State :=
  if x.refused = 0 then (s.profLast x profApplied).raise pgProf 16 else (s.profLast x profPartial).raise pgProf 18

/-- A prepared profile applies: held writes with flow EN, crosspoints, frees, as one take; then PROF_LAST. Units whose commits are
still to come stay on record, so that a refusal there turns the profile PARTIAL. -/
def State.profApply (s : State) (x : ProfilePrep) : State :=
  let s1 := x.held.foldl State.profLive s
  let s2 := s1.applyTake x.tb x.xps []
  let s3 := x.flows.foldl State.profFree s2
  let s4 := x.units.foldl (State.profUngoverned x) s3
  let now : ProfilePrep := (s4.profPrep x.handle).getD x
  let others := s4.profPreps.filter fun (y : ProfilePrep) => !y.done && decide (y.handle ≠ x.handle)
  let s5 : State := { s4 with profPreps := others ++ (if now.units.isEmpty then [] else [{ now with done := true }]) }
  s5.profEnds now

/-- A PROFILE event reaches its switch point. -/
def State.profEvent (s0 : State) (e : Event) : State :=
  let s := if (s0.profPrep e.handle).isSome then s0 else s0.profAbandon.profPrepare e
  match s.profPrep e.handle with
  | none => s.appliedEvent e
  | some x =>
    let s1 := if x.corrupt then
        { s with profPreps := s.profPreps.filter fun y => decide (y.handle ≠ e.handle) }
      else s.profApply x
    s1.appliedEvent e

/-- The profiles of a switch point apply first (R79). -/
def State.profilesAt (s : State) (k line : Nat) : State :=
  (s.eventsAt .profile k (s.tb k).frame line).foldl State.profEvent s

end Sys2Proof.Machine
end

