-- ==== Sys2Proof/Machine/Boundary.lean ====
section
/-! DEFINITION. Commands that end a frame or reach a commit point or a switch point, the ends of key and life-cycle commands, and
the management SPI (R35, R60, R71, R368, R377, R419). -/

namespace Sys2Proof.Machine

/-! ### SWITCH_POINT (R71, R79) -/

/-- A switch point: profiles first, then everything else in its order. -/
def State.atSwitchPoint (s : State) (k line : Nat) : State := (s.profilesAt k line).switchPoint k line

/-- SWITCH_POINT (R71) of a switch line of a running timebase. -/
def execSwitchPoint (k : Fin 4) (line : Nat) (s : State) : Host.Outcome State Fault Refusal :=
  .next (if s.switchLineOf k line then s.atSwitchPoint k line else s)

/-! ### TB_FRAME_BOUNDARY (R60 to R62, R67, R69) -/

/-- Pending events of the frame that ends, in a line that a shortened frame did not reach, apply at its last line (R67). -/
def State.missedEvents (s : State) (k : Nat) : State :=
  let late := s.events.filter fun e => decide (e.tb = k ∧ e.frame = (s.tb k).frame ∧ e.origin ≠ .page)
  let lines := (switchLines (s.tb k).struct).filter fun l =>
    late.any fun e => decide (e.line = l ∧ e.kind ≠ .notify ∧ e.kind ≠ .rennet)
  let s1 := lines.foldl (fun s l => s.atSwitchPoint k l) s
  late.foldl (fun s e =>
    match e.kind with
    | .notify => s.appliedEvent e
    | .rennet => ((s.rennetStart 1 (some e.tb)).rennetPulse).appliedEvent e
    | _ => s) s1

/-- A page's own event that falls while its commit is no longer pending, since its engine stopped: it only clears COMMIT
(R38). -/
def State.strandedEvents (s : State) (k : Nat) : State :=
  let past := s.events.filter fun e =>
    decide (e.tb = k ∧ e.origin = .page ∧ e.frame ≤ (s.tb k).frame ∧ (s.unit e.page e.unit).handle ≠ some e.handle) &&
      (match (s.unit e.page e.unit).next with
        | some (some (_, h)) => decide (h ≠ e.handle)
        | _ => true)
  past.foldl (fun s e =>
    let s1 := s.endEvent e.handle .applied
    if s1.unitRuns e.page e.unit then s1 else s1.putCommit e.page e.unit false) s

/-- The synthesizers that take their commit points from a timebase pass theirs; a change of its frame rate leaves those it
drives behind (R349, R350). -/
def State.synsAt (s before : State) (k : Nat) : State :=
  let s1 := (List.range 16).foldl (fun s n => if s.synFollows n k then s.synPoint n else s) s
  if (s1.tb k).rate = (before.tb k).rate then s1 else s1.synTbMoved k

/-- A frame boundary of a running timebase and all that follows it. -/
def State.frameBoundary (s : State) (k : Nat) : State :=
  let s1 := (s.missedEvents k).tbBoundary k
  let s2 := (s1.synsAt s k).alignAt k
  ((s2.strandedEvents k).profAbandon).pairBoundary k

/-- TB_FRAME_BOUNDARY (R60). -/
def execTbFrameBoundary (k : Fin 4) (s : State) : Host.Outcome State Fault Refusal :=
  .next (if (s.tb k).state = .off then s else s.frameBoundary k)

/-! ### Header commits at their commit points (R35) -/

/-- The raster whose commit points a page's header commit follows. -/
def rasterOfPage (s : State) (p : Nat) : Option RasterId :=
  match pageType p with
  | 0x041 => if h : s.txPort (p - pgSditx 0) < 96 then some (.sditx ⟨_, h⟩) else none
  | 0x061 => if h : p - pgCpo 0 < 16 then some (.cpo ⟨_, h⟩) else none
  | _ => none

/-- The capture instant of a page's header commit. -/
def State.hdrCapture (s : State) (p : Nat) : State :=
  match pageType p with
  | 0x020 =>
    let k := p - pgTb 0
    if (s.tb k).state = .off then s else s.capture p 0 (s.nextFrame k).1
  | 0x022 =>
    let n := p - pgSyn 0
    let k := s.get p 0 F.synCtrlTb
    if s.synFollows n k && decide ((s.tb k).state ≠ .off) then s.capture p 0 (s.nextFrame k).1 else s
  | 0x040 => if s.lock (p - pgSdirx 0) = lockLocked then s.capture p 0 0 else s
  | 0x060 => if s.running p then s.cnvCapture (p - pgCnv 0) else s
  | _ => match rasterOfPage s p with
    | some r =>
      if s.rasterActs r && !(s.raster (rasterAt r).1 (rasterAt r).2).waiting then s.captureRaster r else s
    | none => s

/-- COMMIT_CAPTURE (R35). Pages without a commit point of their own complete a commit when it is requested. -/
def execCommitCapture (page : Fin 4096) (s : State) : Host.Outcome State Fault Refusal := .next (s.hdrCapture page)

/-- The commit point of a page's header commit. -/
def State.hdrPoint (s : State) (p : Nat) : State :=
  match pageType p with
  | 0x020 => if (s.tb (p - pgTb 0)).state = .off then s else s.tbCommitPoint (p - pgTb 0)
  | 0x022 => if s.running p then s.synPoint (p - pgSyn 0) else s
  | 0x040 => if s.running p then s.commitPoint p 0 else s
  | 0x060 => if s.running p then s.cnvCommitPoint (p - pgCnv 0) else s
  | _ => match rasterOfPage s p with
    | some (.sditx n) =>
      if s.rasterActs (.sditx n) && !(s.raster (pgSditx n) 0).waiting then s.commitTxRaster n else s
    | some (.cpo n) => if (s.raster p 0).running && !(s.raster p 0).waiting then s.cpoCommitPoint n else s
    | _ => s

/-- FRAME_COMMIT_POINT (R35). -/
def execFrameCommitPoint (page : Fin 4096) (s : State) : Host.Outcome State Fault Refusal := .next (s.hdrPoint page)

/-! ### Key commands and life cycle (R148, R205, R368, R377) -/

/-- Whatever holds a key looks at its slot again: MACsec associations, fabric sets, Bezel cells. -/
def State.keySweep (s : State) : State := ((s.saSweep).fabSweep).bezSweep

/-- KEY_CMD_DONE (R368). -/
def execKeyCmdDone (s : State) : Host.Outcome State Fault Refusal := .next s.keyDone.keySweep

/-- LC_TRANSITION_DONE (R377). -/
def execLcTransitionDone (ok : Bool) (s : State) : Host.Outcome State Fault Refusal := .next (s.lcDone ok).keySweep

/-! ### The management SPI (R419) -/

/-- The slave answers from 20 ms after POR_N. -/
def State.spiUp (s : State) : Bool := decide (20000000 ≤ s.now)

/-- Posted writes that the slave holds. -/
abbrev spiDepth : Nat := 2

/-- The oldest posted write completes, and one that was held back may follow; one that holds no entry of the tracker waits for it,
while M7's port takes requests (R44, R46). -/
def State.spiComplete (s : State) : State :=
  match s.spiPending with
  | [] => s
  | (n, w) :: rest =>
    if s.masterOpen 7 && decide (s.spiIssued = 0) then s.spiIssue
    else ({ s with spiPending := rest, spiIssued := s.spiIssued - 1 }.busNative 7 n w).spiIssue

/-- A complete WRITE frame: misaligned, or the third while two are pending, it is discarded with ERROR. -/
def State.spiPost (s : State) (a w : Nat) : State :=
  if a % 4 ≠ 0 ∨ spiDepth ≤ s.spiPending.length then { s with spiError := true }
  else { s with spiPending := s.spiPending ++ [(s.decoded a, w)] }.spiIssue

/-- SPI_WRITE (R419). -/
def execSpiWrite (addr : BitVec 40) (w : Word) (s : State) : Host.Outcome State Fault Refusal :=
  .next (if s.spiUp then s.spiPost addr.toNat w.toNat else s)

/-- A READ: the writes before it complete, then the word comes back after 0xA5, or zeros after 0x5A. -/
def State.spiFetch (s0 : State) (a : Nat) : State :=
  let s := s0.spiComplete.spiComplete.spiComplete.spiComplete
  let (v, s1) := if s.controlReset || !s.masterOpen 7 then (none, s) else s.busRead 7 a
  match v with
  | some w => s1.emit (.spi (165#8 :: (leBytes 4 w).reverse))
  | none => s1.emit (.spi (90#8 :: zeros 4))

/-- SPI_READ (R419). -/
def execSpiRead (addr : BitVec 40) (s : State) : Host.Outcome State Fault Refusal :=
  .next (
    if !s.spiUp then s
    else if addr.toNat % 4 ≠ 0 then { s with spiError := true }
    else s.spiFetch addr.toNat)

/-- SPI_STATUS (R419). -/
def execSpiStatus (s : State) : Host.Outcome State Fault Refusal :=
  .next (if s.spiUp then
    { s with spiError := false }.emit
      (.spi [BitVec.ofNat 8 (ofBool (!s.spiPending.isEmpty) + 2 * ofBool s.spiError)])
  else s)

/-! ### Time -/

/-- A nanosecond passes: the oldest posted SPI write completes, host frames that now have room on their links leave (R150; log
entry 4). -/
def State.tick (s : State) : State :=
  (List.range 8).foldl (fun s p => if (Tab.at [] s.txq p).isEmpty then s else s.txDrain p) { s with now := s.now + 1 }.spiComplete

end Sys2Proof.Machine
end

