-- ==== Sys2Proof/Machine/Ingress.lean ====
section
/-! DEFINITION. The commands that bring ingress flows their lines: segments, SDI lines, Ethernet frames, releases of aligned lines, Gylos
blocks and segment records (R16, R110, R131, R135, R155, R266, R277, R281). What they write goes on into the frames that converter cells
form (R164). -/

namespace Sys2Proof.Machine

/-- May an ingress flow produce segments of a line: an SDI port's only with a matching TYPE and STREAM, while its receiver is LOCKED to the
flow's format, on the lead's port of a group, beginning with a frame (R106, R107, R117); an IP port's while its slot receives (R133); a
fabric port's while the port is UP (R297); a converter's or a compositor's while the cell or the page produces, the video with the format
put out (R155, R177). -/
def State.mayProduce (s : State) (f line : Nat) : Bool :=
  let (kind, port, stream) := s.flowPort f
  let video := decide (s.flowType f = typeVideo)
  if kind = kindSdi then
    decide (streamType stream = some (s.flowType f) ∧ s.lock port = lockLocked ∧ s.rxPort port = port) && !s.rxMismatch port &&
      ((s.run f).producing || decide (line ≤ (fmtFirstActive (s.get pgFlow f F.flowwinCtx1Struct)).headD 1))
  else if kind = kindIp then
    let c := strmCell 0 (stream % 64)
    s.slotOn port c && decide (s.slotFlow port c = some f) && s.flag (pgIpp port) c F.ippStrmStatusReceiving
  else if kind = kindFabric then s.fabOpen (pgFab port)
  else if kind = kindCnv then
    let c := stream % 0x20
    s.flag (pgCnv port) c F.cnvCellStatusProducing &&
      (!video || decide (s.cnvReturn port c (s.get (pgCnv port) c F.cnvSrcFlow) = some f))
  else if kind = kindCpo then s.running (pgCpo port) && (!video || decide (s.cpoReturn port = some f))
  else s.running (pgAup port)

/-- SEGMENT_INGRESS (R16, R17): a fragment of 8 bytes of an enabled ingress flow; `last` is its line's last, which may hold fewer. -/
def execSegmentIngress (flow : Fin 4096) (line seg frag : Nat) (bytes : List Byte) (last : Bool) (s : State) :
    Host.Outcome State Fault Refusal :=
  if s.isIngress flow && s.flowEn flow && s.mayProduce flow line &&
      decide (bytes.length ≤ fragBytes ∧ (bytes.length = fragBytes ∨ last = true) ∧ frag < 32) &&
      s.nextFrag flow line seg frag then
    let s1 := s.produce flow line seg frag bytes
    .next (if last then (s1.closeLine flow (decide ((s1.flowPort flow).1 ≠ kindSdi))).cnvFeed else s1)
  else .next s

/-- SDIRX_LINE (R110): a received line; in a group the lead's carries the group's picture (log entry 17). -/
def execSdirxLine (n : Fin 96) (l : SdiLine) (s : State) : Host.Outcome State Fault Refusal :=
  let s1 := s.rxResume n l
  .next (if s1.running (pgSdirx n) && decide (s1.lock n = lockLocked ∨ s1.lock n = lockWaitGroup) then (s1.rxLine n l).cnvFeed
    else s1)

/-- IP_FRAME_RECEIVE (R131). -/
def execIpFrameReceive (p : Fin 8) (link : Fin 4) (f : EthFrame) (s : State) : Host.Outcome State Fault Refusal :=
  .next (if s.running (pgIpp p) && s.linkUp p link then (s.linkFrame p link f).cnvFeed else s)

/-- IP_LINE_RELEASE (R135). -/
def execIpLineRelease (p : Fin 8) (slot : Fin 64) (s : State) : Host.Outcome State Fault Refusal :=
  .next (if s.slotOn p (strmCell 0 slot) then (s.lineRelease p (strmCell 0 slot)).cnvFeed else s)

/-- SEGMENT_RECORD_RECEIVE (R281): a record comes whole, in place of the blocks that carry it. -/
def execSegmentRecordReceive (p : Fin 16) (r : SegRecord) (s : State) : Host.Outcome State Fault Refusal :=
  .next (s.recordReceive (pgFab p) r).cnvFeed

/-- GYLOS_BLOCK_RECEIVE (R266): a block arrives on a lane that is aligning or UP, or whose signal returns with it; a fabric port takes the
records that it completes (R277, R281). -/
def execGylosBlockReceive (page : Fin 4096) (lane : Fin 4) (b : GylosBlock) (s : State) : Host.Outcome State Fault Refusal :=
  let s1 := if s.laneState page lane = laneDown then s.gylReturn page lane else s
  .next (if !isGylos page then s
    else if s1.laneState page lane = laneAligning ∨ s1.laneState page lane = laneUp then
      let (s2, l) := s1.receiveBlock page lane b
      let s3 := s2.gylChanged page lane
      if l.isEmpty then s3 else (l.foldl (fun s r => s.recordReceive page r) s3).cnvFeed
    else s1)

end Sys2Proof.Machine
end

