-- ==== Sys2Proof/Machine/Dispatch.lean ====
section
/-! DEFINITION. `exec`: one arm for each command, one direct call of its meaning. -/

namespace Sys2Proof.Machine

def exec (i : Instr) (s : State) : Host.Outcome State Fault Refusal :=
  match i with
  | .coldReset mapMode twinSide => Sys2Proof.Machine.execColdReset mapMode twinSide s
  | .warmReset => Sys2Proof.Machine.execWarmReset s
  | .watchdogExpiry => Sys2Proof.Machine.execWatchdogExpiry s
  | .devResetEngine m page => Sys2Proof.Machine.execDevResetEngine m page s
  | .devResetControl m => Sys2Proof.Machine.execDevResetControl m s
  | .devResetWarm m => Sys2Proof.Machine.execDevResetWarm m s
  | .engineResetDone page => Sys2Proof.Machine.execEngineResetDone page s
  | .controlResetDone => Sys2Proof.Machine.execControlResetDone s
  | .lockstepFault => Sys2Proof.Machine.execLockstepFault s
  | .pcieReset x => Sys2Proof.Machine.execPcieReset x s
  | .masterReset m x => Sys2Proof.Machine.execMasterReset m x s
  | .masterQuiesced n => Sys2Proof.Machine.execMasterQuiesced n s
  | .targetTimeout x => Sys2Proof.Machine.execTargetTimeout x s
  | .matrixParityError t => Sys2Proof.Machine.execMatrixParityError t s
  | .remapWrite m w => Sys2Proof.Machine.execRemapWrite m w s
  | .remapApply => Sys2Proof.Machine.execRemapApply s
  | .registerWrite m a w => Sys2Proof.Machine.execRegisterWrite m a w s
  | .lockWrite m page w => Sys2Proof.Machine.execLockWrite m page w s
  | .loRegisterRead m space off => Sys2Proof.Machine.execLoRegisterRead m space off s
  | .rcRead m page off => Sys2Proof.Machine.execRcRead m page off s
  | .msixUnmask vector => Sys2Proof.Machine.execMsixUnmask vector s
  | .commitRequest m page => Sys2Proof.Machine.execCommitRequest m page s
  | .commitAtFrame m page => Sys2Proof.Machine.execCommitAtFrame m page s
  | .commitCancel m page commit atFrame => Sys2Proof.Machine.execCommitCancel m page commit atFrame s
  | .commitCapture page => Sys2Proof.Machine.execCommitCapture page s
  | .frameCommitPoint page => Sys2Proof.Machine.execFrameCommitPoint page s
  | .configParityError page cell off lo => Sys2Proof.Machine.execConfigParityError page cell off lo s
  | .configComparePass => Sys2Proof.Machine.execConfigComparePass s
  | .tbRun m k w => Sys2Proof.Machine.execTbRun m k w s
  | .tbStop m k w => Sys2Proof.Machine.execTbStop m k w s
  | .presetArm m k => Sys2Proof.Machine.execPresetArm m k s
  | .refHEdge refB line => Sys2Proof.Machine.execRefHEdge refB line s
  | .tbLoss k => Sys2Proof.Machine.execTbLoss k s
  | .tbRateMismatch k => Sys2Proof.Machine.execTbRateMismatch k s
  | .tbFrameBoundary k => Sys2Proof.Machine.execTbFrameBoundary k s
  | .rindOpen k line => Sys2Proof.Machine.execRindOpen k line s
  | .rindClose k => Sys2Proof.Machine.execRindClose k s
  | .armPoint k line => Sys2Proof.Machine.execArmPoint k line s
  | .switchPoint k line => Sys2Proof.Machine.execSwitchPoint k line s
  | .eventSubmit m => Sys2Proof.Machine.execEventSubmit m s
  | .eventCancel m handle => Sys2Proof.Machine.execEventCancel m handle s
  | .notifyEvent handle => Sys2Proof.Machine.execNotifyEvent handle s
  | .doneRead m => Sys2Proof.Machine.execDoneRead m s
  | .salvoLoad m => Sys2Proof.Machine.execSalvoLoad m s
  | .salvoLoadDone => Sys2Proof.Machine.execSalvoLoadDone s
  | .salvoDelete m => Sys2Proof.Machine.execSalvoDelete m s
  | .salvoDeleteDone => Sys2Proof.Machine.execSalvoDeleteDone s
  | .lateCopyDone => Sys2Proof.Machine.execLateCopyDone s
  | .takePinEdge n => Sys2Proof.Machine.execTakePinEdge n s
  | .takePinRunt n => Sys2Proof.Machine.execTakePinRunt n s
  | .pinCfgWrite m n w => Sys2Proof.Machine.execPinCfgWrite m n w s
  | .flowAlloc m w => Sys2Proof.Machine.execFlowAlloc m w s
  | .flowFree m w => Sys2Proof.Machine.execFlowFree m w s
  | .flowCtxWrite m n w => Sys2Proof.Machine.execFlowCtxWrite m n w s
  | .flowCommit m => Sys2Proof.Machine.execFlowCommit m s
  | .flowCommitCancel m commit => Sys2Proof.Machine.execFlowCommitCancel m commit s
  | .segmentIngress flow line seg frag bytes last => Sys2Proof.Machine.execSegmentIngress flow line seg frag bytes last s
  | .egressSegmentRead flow line seg frag last bank ecc => Sys2Proof.Machine.execEgressSegmentRead flow line seg frag last bank ecc s
  | .vatFence m w => Sys2Proof.Machine.execVatFence m w s
  | .vatDrainDone bank => Sys2Proof.Machine.execVatDrainDone bank s
  | .vatTest m w => Sys2Proof.Machine.execVatTest m w s
  | .vatTestDone bank pass => Sys2Proof.Machine.execVatTestDone bank pass s
  | .vatUnfence m w => Sys2Proof.Machine.execVatUnfence m w s
  | .sourceLoss flow => Sys2Proof.Machine.execSourceLoss flow s
  | .egressFrameStart flow => Sys2Proof.Machine.execEgressFrameStart flow s
  | .sdiSignalDetect n => Sys2Proof.Machine.execSdiSignalDetect n s
  | .sdiRateTryTimeout n => Sys2Proof.Machine.execSdiRateTryTimeout n s
  | .sdirxLine n l => Sys2Proof.Machine.execSdirxLine n l s
  | .sdirxFrameEnd n f => Sys2Proof.Machine.execSdirxFrameEnd n f s
  | .quadGroupForm n skewNs => Sys2Proof.Machine.execQuadGroupForm n skewNs s
  | .sdiSignalLoss n => Sys2Proof.Machine.execSdiSignalLoss n s
  | .ancPacketReceive n p => Sys2Proof.Machine.execAncPacketReceive n p s
  | .regapDone n => Sys2Proof.Machine.execRegapDone n s
  | .ipLaneLoss p lane => Sys2Proof.Machine.execIpLaneLoss p lane s
  | .ipFrameReceive p link f => Sys2Proof.Machine.execIpFrameReceive p link f s
  | .strmCommit m p => Sys2Proof.Machine.execStrmCommit m p s
  | .strmCommitCancel m p commit => Sys2Proof.Machine.execStrmCommitCancel m p commit s
  | .ipLineRelease p slot => Sys2Proof.Machine.execIpLineRelease p slot s
  | .ipStreamLoss p slot => Sys2Proof.Machine.execIpStreamLoss p slot s
  | .ipPathLoss p slot path2 => Sys2Proof.Machine.execIpPathLoss p slot path2 s
  | .ipPacketSend p slot x => Sys2Proof.Machine.execIpPacketSend p slot x s
  | .ptpSyncReceive p link x => Sys2Proof.Machine.execPtpSyncReceive p link x s
  | .ptpDelayReqSend p link => Sys2Proof.Machine.execPtpDelayReqSend p link s
  | .ptpDelayRespReceive p link x => Sys2Proof.Machine.execPtpDelayRespReceive p link x s
  | .ptpClientRestart m p off w => Sys2Proof.Machine.execPtpClientRestart m p off w s
  | .rxqDataRead m p => Sys2Proof.Machine.execRxqDataRead m p s
  | .txqDataWrite m p w => Sys2Proof.Machine.execTxqDataWrite m p w s
  | .txqPush m p => Sys2Proof.Machine.execTxqPush m p s
  | .cnvStart m n w => Sys2Proof.Machine.execCnvStart m n w s
  | .cnvPipelineReady n => Sys2Proof.Machine.execCnvPipelineReady n s
  | .cnvStop m n w => Sys2Proof.Machine.execCnvStop m n w s
  | .cnvOutputFrame n cell x => Sys2Proof.Machine.execCnvOutputFrame n cell x s
  | .cnvCellReset m n => Sys2Proof.Machine.execCnvCellReset m n s
  | .lutLoad m n w => Sys2Proof.Machine.execLutLoad m n w s
  | .lutLoadDone n => Sys2Proof.Machine.execLutLoadDone n s
  | .datapathCheckFail x => Sys2Proof.Machine.execDatapathCheckFail x s
  | .cpoStart m n w => Sys2Proof.Machine.execCpoStart m n w s
  | .cpoStop m n w => Sys2Proof.Machine.execCpoStop m n w s
  | .layerCommit m n atFrame => Sys2Proof.Machine.execLayerCommit m n atFrame s
  | .layerCommitCancel m n commit atFrame => Sys2Proof.Machine.execLayerCommitCancel m n commit atFrame s
  | .cpoCommitPoint n => Sys2Proof.Machine.execCpoCommitPoint n s
  | .hbmWrite m addr bytes => Sys2Proof.Machine.execHbmWrite m addr bytes s
  | .bezelBind m w => Sys2Proof.Machine.execBezelBind m w s
  | .bezelMsgGo m => Sys2Proof.Machine.execBezelMsgGo m s
  | .bezelVerifyDone cell => Sys2Proof.Machine.execBezelVerifyDone cell s
  | .rasterCommit m p atFrame => Sys2Proof.Machine.execRasterCommit m p atFrame s
  | .rasterCommitCancel m p commit atFrame => Sys2Proof.Machine.execRasterCommitCancel m p commit atFrame s
  | .rasterCapture r => Sys2Proof.Machine.execRasterCapture r s
  | .rasterCommitPoint r => Sys2Proof.Machine.execRasterCommitPoint r s
  | .rasterLineStart r x => Sys2Proof.Machine.execRasterLineStart r x s
  | .rasterLastActiveLine r => Sys2Proof.Machine.execRasterLastActiveLine r s
  | .contentReadyLineTest r => Sys2Proof.Machine.execContentReadyLineTest r s
  | .rasterFrameEnd r => Sys2Proof.Machine.execRasterFrameEnd r s
  | .formatStart r => Sys2Proof.Machine.execFormatStart r s
  | .routeWrite m w => Sys2Proof.Machine.execRouteWrite m w s
  | .routeRampDone out => Sys2Proof.Machine.execRouteRampDone out s
  | .routeSetLoad m => Sys2Proof.Machine.execRouteSetLoad m s
  | .routeSetLoadDone => Sys2Proof.Machine.execRouteSetLoadDone s
  | .routeSetDelete m => Sys2Proof.Machine.execRouteSetDelete m s
  | .asrcLock unit ch => Sys2Proof.Machine.execAsrcLock unit ch s
  | .zeroCrossTimeout page channel cell => Sys2Proof.Machine.execZeroCrossTimeout page channel cell s
  | .aupEnable m n w => Sys2Proof.Machine.execAupEnable m n w s
  | .aupDisable m n w => Sys2Proof.Machine.execAupDisable m n w s
  | .aupStopped n => Sys2Proof.Machine.execAupStopped n s
  | .rennetEvent handle => Sys2Proof.Machine.execRennetEvent handle s
  | .rennetPinEdge => Sys2Proof.Machine.execRennetPinEdge s
  | .rennetOutEnd => Sys2Proof.Machine.execRennetOutEnd s
  | .aupFrame n x => Sys2Proof.Machine.execAupFrame n x s
  | .aupWsLoss n => Sys2Proof.Machine.execAupWsLoss n s
  | .aupRateMismatch n => Sys2Proof.Machine.execAupRateMismatch n s
  | .aupRateMeasure n rate => Sys2Proof.Machine.execAupRateMeasure n rate s
  | .aupLoopTick n => Sys2Proof.Machine.execAupLoopTick n s
  | .hoopPointerWrite m n rd w => Sys2Proof.Machine.execHoopPointerWrite m n rd w s
  | .laneAdapt m page => Sys2Proof.Machine.execLaneAdapt m page s
  | .laneAdaptDone page lane => Sys2Proof.Machine.execLaneAdaptDone page lane s
  | .eyeScanStart m page => Sys2Proof.Machine.execEyeScanStart m page s
  | .eyeScanAbort m page => Sys2Proof.Machine.execEyeScanAbort m page s
  | .eyeScanDone page lane r => Sys2Proof.Machine.execEyeScanDone page lane r s
  | .gylosBlockSend page lane => Sys2Proof.Machine.execGylosBlockSend page lane s
  | .gylosBlockReceive page lane b => Sys2Proof.Machine.execGylosBlockReceive page lane b s
  | .linkNak page lane seq => Sys2Proof.Machine.execLinkNak page lane seq s
  | .linkReplay page lane lost => Sys2Proof.Machine.execLinkReplay page lane lost s
  | .linkNakTimeout page lane => Sys2Proof.Machine.execLinkNakTimeout page lane s
  | .gylosLaneLoss page lane signal => Sys2Proof.Machine.execGylosLaneLoss page lane signal s
  | .fabPortStart m p w => Sys2Proof.Machine.execFabPortStart m p w s
  | .helloSend p => Sys2Proof.Machine.execHelloSend p s
  | .hello p dev port => Sys2Proof.Machine.execHello p dev port s
  | .neighbourTimeout p => Sys2Proof.Machine.execNeighbourTimeout p s
  | .segmentRecordReceive p r => Sys2Proof.Machine.execSegmentRecordReceive p r s
  | .delayReqSend p lane => Sys2Proof.Machine.execDelayReqSend p lane s
  | .delayReq p lane x => Sys2Proof.Machine.execDelayReq p lane x s
  | .delayResp p lane x => Sys2Proof.Machine.execDelayResp p lane x s
  | .beaconSend p k => Sys2Proof.Machine.execBeaconSend p k s
  | .beacon p b => Sys2Proof.Machine.execBeacon p b s
  | .fevtSubmit m => Sys2Proof.Machine.execFevtSubmit m s
  | .fevt p x => Sys2Proof.Machine.execFevt p x s
  | .fevtAck p x => Sys2Proof.Machine.execFevtAck p x s
  | .fevtAckTimeout tag => Sys2Proof.Machine.execFevtAckTimeout tag s
  | .fevtAckRead m => Sys2Proof.Machine.execFevtAckRead m s
  | .mirrorReceive x => Sys2Proof.Machine.execMirrorReceive x s
  | .sealReceive x => Sys2Proof.Machine.execSealReceive x s
  | .changeover g => Sys2Proof.Machine.execChangeover g s
  | .coMismatch g => Sys2Proof.Machine.execCoMismatch g s
  | .coCmd m w => Sys2Proof.Machine.execCoCmd m w s
  | .claspLead m => Sys2Proof.Machine.execClaspLead m s
  | .claspJoin m partner => Sys2Proof.Machine.execClaspJoin m partner s
  | .joinCopyDone image => Sys2Proof.Machine.execJoinCopyDone image s
  | .joinAlignDone => Sys2Proof.Machine.execJoinAlignDone s
  | .alignTimeout => Sys2Proof.Machine.execAlignTimeout s
  | .joinFillDone => Sys2Proof.Machine.execJoinFillDone s
  | .joinCompareDone agree => Sys2Proof.Machine.execJoinCompareDone agree s
  | .tbSkewExceeded k ps => Sys2Proof.Machine.execTbSkewExceeded k ps s
  | .claspRelease m => Sys2Proof.Machine.execClaspRelease m s
  | .heartbeatSend => Sys2Proof.Machine.execHeartbeatSend s
  | .twinLoss laneOnly pinOnly => Sys2Proof.Machine.execTwinLoss laneOnly pinOnly s
  | .clockStop domain => Sys2Proof.Machine.execClockStop domain s
  | .clockFreqError domain => Sys2Proof.Machine.execClockFreqError domain s
  | .supplyOutOfWindow rail above => Sys2Proof.Machine.execSupplyOutOfWindow rail above s
  | .memEccError x => Sys2Proof.Machine.execMemEccError x s
  | .thermAlert => Sys2Proof.Machine.execThermAlert s
  | .caveRecordWrite page => Sys2Proof.Machine.execCaveRecordWrite page s
  | .caveJournalCopy => Sys2Proof.Machine.execCaveJournalCopy s
  | .caveClear m w => Sys2Proof.Machine.execCaveClear m w s
  | .imageWriteDone page => Sys2Proof.Machine.execImageWriteDone page s
  | .fwDataWrite m w => Sys2Proof.Machine.execFwDataWrite m w s
  | .fwGo m => Sys2Proof.Machine.execFwGo m s
  | .fwVerifyDone => Sys2Proof.Machine.execFwVerifyDone s
  | .hbmTrainingDone pass failed => Sys2Proof.Machine.execHbmTrainingDone pass failed s
  | .hbmwinWrite m w inFlight => Sys2Proof.Machine.execHbmwinWrite m w inFlight s
  | .bar2Read off len => Sys2Proof.Machine.execBar2Read off len s
  | .bar2Write off bytes enables => Sys2Proof.Machine.execBar2Write off bytes enables s
  | .devregWrite m w => Sys2Proof.Machine.execDevregWrite m w s
  | .profileLoad m => Sys2Proof.Machine.execProfileLoad m s
  | .profileLoadDone => Sys2Proof.Machine.execProfileLoadDone s
  | .profileErase m => Sys2Proof.Machine.execProfileErase m s
  | .devProfileGo m w => Sys2Proof.Machine.execDevProfileGo m w s
  | .profilePinsWrite m w => Sys2Proof.Machine.execProfilePinsWrite m w s
  | .profilePinSample enN sel => Sys2Proof.Machine.execProfilePinSample enN sel s
  | .profilePrepare handle => Sys2Proof.Machine.execProfilePrepare handle s
  | .powerRequest page purpose => Sys2Proof.Machine.execPowerRequest page purpose s
  | .powerGrant => Sys2Proof.Machine.execPowerGrant s
  | .powerRampStep => Sys2Proof.Machine.execPowerRampStep s
  | .powerRelease page purpose => Sys2Proof.Machine.execPowerRelease page purpose s
  | .powerTimeout => Sys2Proof.Machine.execPowerTimeout s
  | .pauTimeoutWrite m w => Sys2Proof.Machine.execPauTimeoutWrite m w s
  | .powerOverstay => Sys2Proof.Machine.execPowerOverstay s
  | .deferredRepost page purpose => Sys2Proof.Machine.execDeferredRepost page purpose s
  | .synStart m n w => Sys2Proof.Machine.execSynStart m n w s
  | .synLocked n => Sys2Proof.Machine.execSynLocked n s
  | .synDelayStep n out => Sys2Proof.Machine.execSynDelayStep n out s
  | .keyLoad m => Sys2Proof.Machine.execKeyLoad m s
  | .keyInvalidate m => Sys2Proof.Machine.execKeyInvalidate m s
  | .keyDerive m => Sys2Proof.Machine.execKeyDerive m s
  | .keyGenerate m => Sys2Proof.Machine.execKeyGenerate m s
  | .keyImport m => Sys2Proof.Machine.execKeyImport m s
  | .keyRewrap m => Sys2Proof.Machine.execKeyRewrap m s
  | .keyHallmark m => Sys2Proof.Machine.execKeyHallmark m s
  | .keyHelper m => Sys2Proof.Machine.execKeyHelper m s
  | .keyEnroll m => Sys2Proof.Machine.execKeyEnroll m s
  | .keyCmdDone => Sys2Proof.Machine.execKeyCmdDone s
  | .lcTransition m w => Sys2Proof.Machine.execLcTransition m w s
  | .lcTransitionDone ok => Sys2Proof.Machine.execLcTransitionDone ok s
  | .cvuStart m n => Sys2Proof.Machine.execCvuStart m n s
  | .cvuRestart m n => Sys2Proof.Machine.execCvuRestart m n s
  | .cvuAbort m n => Sys2Proof.Machine.execCvuAbort m n s
  | .cvuArm m n => Sys2Proof.Machine.execCvuArm m n s
  | .cvuFeed m n w => Sys2Proof.Machine.execCvuFeed m n w s
  | .cvuFeed1 m n w => Sys2Proof.Machine.execCvuFeed1 m n w s
  | .cvuJobDone n => Sys2Proof.Machine.execCvuJobDone n s
  | .pressSubmit m => Sys2Proof.Machine.execPressSubmit m s
  | .pressJobDone => Sys2Proof.Machine.execPressJobDone s
  | .pressDoneRead m => Sys2Proof.Machine.execPressDoneRead m s
  | .spiWrite addr w => Sys2Proof.Machine.execSpiWrite addr w s
  | .spiRead addr => Sys2Proof.Machine.execSpiRead addr s
  | .spiStatus => Sys2Proof.Machine.execSpiStatus s
  | .ipLinkUp p link => Sys2Proof.Machine.execIpLinkUp p link s
  | .pcieLinkUp => Sys2Proof.Machine.execPcieLinkUp s
  | .pinCopyDone n => Sys2Proof.Machine.execPinCopyDone n s
  | .heartbeatReceive pin => Sys2Proof.Machine.execHeartbeatReceive pin s
  | .coInChange g level => Sys2Proof.Machine.execCoInChange g level s
  | .healthTestFail => Sys2Proof.Machine.execHealthTestFail s
  | .extest => Sys2Proof.Machine.execExtest s

end Sys2Proof.Machine
end

