-- ==== Sys2Proof/Safety.lean ====
section
/-! DEFINITION. What counts as safe: the block goes on, and its state keeps the forms that its tables are held in. The terms
that the statements about commands are written in. -/

namespace Sys2Proof.Machine

/-- A step goes on: a next state, no fault, no refusal. -/
def Continues (o : Host.Outcome State Fault Refusal) : Prop := ∃ s, o = .next s

/-- The forms that every state keeps: memory is canonical. -/
def State.Inv (s : State) : Prop := Memory.wf s.mem = true

/-- A command completes: it answers a next state, of which the facts hold. -/
def Completes (i : Instr) (s : State) (facts : State → Prop) : Prop := ∃ t, exec i s = .next t ∧ facts t

/-- Every byte of memory reads as before. -/
def SameMemory (s t : State) : Prop := ∀ a, Memory.read t.mem a = Memory.read s.mem a

/-- Every register field but those named reads as before, in every cell of every page. -/
def OnlyFields (s t : State) (named : Nat → Nat → Field → Prop) : Prop :=
  ∀ p c f, ¬ named p c f → t.get p c f = s.get p c f

/-- A field is this one: the same bits of the same register of the same cell of the same page. -/
def Names (p c : Nat) (f : Field) (p' c' : Nat) (f' : Field) : Prop := p' = p ∧ c' = c ∧ f'.slot = f.slot

/-- Bit `b` of ERR of a page is set. -/
def State.errSet (s : State) (p b : Nat) : Prop := bit (s.get p 0 F.hdrErr) b = true

/-- Bit `b` of INT_STAT of a page is set. -/
def State.intSet (s : State) (p b : Nat) : Prop := bit (s.get p 0 F.hdrIntStat) b = true

/-- The newest record of the fault log has this class and this region (R323). -/
def State.logged (s : State) (cls region : Nat) : Prop := s.fltLog.head?.map (fun r => (r.cls, r.region)) = some (cls, region)

/-- What a master's last access answered. -/
def State.answered (s : State) (m : Nat) : Option Reply := Assoc.find id m s.reply

/-- A register whose read takes an entry from a queue: DONE, DONE_W0, RXQ_DATA, FEVT_ACK. -/
def fifoRead (p off : Nat) : Bool :=
  decide (p = pgSched ∧ off = F.schedDoneHandle.off) || decide (p = pgPress ∧ off = F.pressDoneW0Record.off) ||
    decide (pageType p = 0x042 ∧ off = F.ippRxqDataWord.off) || decide (p = pgFab 0 ∧ off = F.fabFevtAckTag.off)

/-- Can a command store into working SRAM or HBM? Writes of the buses, the commands whose engines write to memory, and those
that end in a reset of a port, an engine or the device. -/
def storesMemory : Instr → Bool
  | .coldReset .. | .warmReset | .watchdogExpiry | .devResetEngine .. | .devResetControl .. | .devResetWarm ..
  | .controlResetDone | .lockstepFault | .pcieReset .. | .masterReset .. | .registerWrite .. | .bar2Write ..
  | .hbmWrite .. | .fwDataWrite .. | .mirrorReceive .. | .joinCopyDone .. | .aupFrame .. | .aupLoopTick ..
  | .keyLoad .. | .keyInvalidate .. | .keyDerive .. | .keyGenerate .. | .keyImport .. | .keyRewrap .. | .keyHallmark ..
  | .keyHelper .. | .keyEnroll .. | .keyCmdDone .. | .pressJobDone .. | .profileLoadDone .. | .profilePrepare ..
  | .pauTimeoutWrite .. | .powerTimeout .. | .spiRead .. | .switchPoint .. | .tbFrameBoundary .. => true
  | _ => false

/-- The field is the error register or the interrupt status register of a page: what a rejected write may change. -/
def ErrorOf (p : Nat) (p' c' : Nat) (f' : Field) : Prop :=
  Names p 0 F.hdrErr p' c' f' ∨ Names p 0 F.hdrIntStat p' c' f'

end Sys2Proof.Machine
end

