-- ==== Sys2Proof/Certificates/Slice0/Obligations.lean ====
section
/-! DEFINITION. The statements for the provers: what each family of commands does, and what every step keeps. -/

open Sys2Proof Sys2Proof.Machine

/-- A step with a command at the front of the queue is `exec` of it on the state with the queue's rest. -/
def Obligations.StepRunsFrontCommand : Prop :=
  ∀ (i : Instr) (rest : List Instr) (s : State),
    step { s with pending := i :: rest } = exec i { s with pending := rest }

/-- A step on an empty queue: a nanosecond passes; the oldest posted SPI write completes as a write of master 7 once it has its
entry of the tracker, and waits while there is none (R44, R46), and host frames that have room leave (R150). The model's choice
(log entry 4). -/
def Obligations.IdleStepPassesANanosecond : Prop :=
  ∀ s : State, s.pending = [] →
    (s.spiPending = [] → (∀ p < 8, Tab.at [] s.txq p = []) → step s = .next { s with now := s.now + 1 }) ∧
    (∀ n w rest, s.spiPending = (n, w) :: rest →
      (s.spiIssued ≠ 0 ∨ s.masterOpen 7 = false → step s = .next
        ((List.range 8).foldl (fun x p => if (Tab.at [] x.txq p).isEmpty then x else x.txDrain p)
          ({ s with now := s.now + 1, spiPending := rest, spiIssued := s.spiIssued - 1 }.busNative 7 n w).spiIssue)) ∧
      (s.spiIssued = 0 → s.masterOpen 7 = true → s.trackerRoom 7 = 0 → (∀ p < 8, Tab.at [] s.txq p = []) →
        step s = .next { s with now := s.now + 1 }))

/-- Every command is answered by a next state: no ordinary command stops the block. -/
def Obligations.EveryCommandContinues : Prop := ∀ (i : Instr) (s : State), Continues (exec i s)

/-- The state after a cold reset keeps memory's form, and its registers hold the cold values of the register tables. -/
def Obligations.ResetStateIsCold : Prop :=
  State.reset.Inv ∧ (∀ p c f, State.reset.get p c f = coldOf p c f) ∧ (∀ a, Memory.read State.reset.mem a = 0) ∧
    State.reset.get pgDev 0 F.devDeviceIdPart = 0x1640 ∧ State.reset.get pgDev 0 F.devDeviceIdFamily = 2 ∧
    State.reset.get 0x009 1 F.mtxMstStatusQuiesced = 1 ∧ State.reset.pending = []

/-- Memory keeps its canonical form in every step, from any state that has it (the model's own form, log entry 5). -/
def Obligations.StepKeepsMemoryForm : Prop := ∀ s t : State, s.Inv → step s = .next t → t.Inv

/-- No command touches the queue of waiting commands, and none but a cold reset moves time: time passes on idle steps only
(log entries 1 and 4). -/
def Obligations.CommandsKeepQueueAndTime : Prop :=
  ∀ (i : Instr) (s t : State), exec i s = .next t → t.pending = s.pending ∧
    ((∀ mapMode twinSide, i ≠ .coldReset mapMode twinSide) → t.now = s.now)

/-- Only bus writes, the memory engines and resets store: every other command leaves every byte of memory as it was. -/
def Obligations.OnlyStoringCommandsStore : Prop :=
  ∀ (i : Instr) (s t : State), storesMemory i = false → exec i s = .next t → SameMemory s t

/-- A master's write into HBM (R197, R425): each byte is stored at its own address but in the device region or in a guarded
lease, where it is dropped; every other byte of memory reads as before. -/
def Obligations.HbmWriteStoresItsBytes : Prop :=
  ∀ (m : Fin 8) (addr : Nat) (bytes : List Byte) (s : State), s.controlReset = false → s.masterOpen m = true →
    s.hbm = .ready → inHbm addr bytes.length = true →
    Completes (.hbmWrite m addr bytes) s fun t =>
      (∀ n b, bytes[n]? = some b → addr + n < s.deviceBase → s.leaseAt (addr + n) = none →
        Memory.read t.mem (addr + n) = b) ∧
      (∀ a, (a < addr ∨ addr + bytes.length ≤ a ∨ s.deviceBase ≤ a ∨ (s.leaseAt a).isSome = true) →
        Memory.read t.mem a = Memory.read s.mem a)

/-- While a lock is held, another master's write to what it guards is dropped and sets LOCK_VIOLATION; reads and W1C writes
pass; the lock is released by a reset of its owner's port and by a reset of the engine (R32). -/
def Obligations.LockKeepsOthersOut : Prop :=
  (∀ (m : Fin 8) (page : Fin 4096) (off : Nat) (w : Word) (s : State), s.controlReset = false → s.masterOpen m = true →
    populated page = true → s.resetting page = false → s.role ≠ roleShadow →
    s.flag (home page) 0 F.hdrLockHeld = true → s.get (home page) 0 F.hdrLockOwner ≠ m →
    off ∈ [0x014, 0x01C, 0x020, 0x024, 0x028, 0x038] ∨ (0x080 ≤ off ∧ off < 0x800 ∧ off % 4 = 0) →
    Completes (.registerWrite m (.internal (0x40000000 + page.val * 0x1000 + off)) w) s fun t =>
      t.errSet page errLockViolation ∧ OnlyFields s t (ErrorOf page) ∧ SameMemory s t) ∧
  (∀ (m : Fin 8) (page : Fin 4096) (off : Nat) (s : State), s.controlReset = false → s.masterOpen m = true →
    Completes (.loRegisterRead m (.page page) off) s fun t => ∃ v, t.answered m = some (.data v)) ∧
  (∀ (m : Fin 8) (page : Fin 4096) (off : Nat) (w : Word) (s : State), s.controlReset = false → s.masterOpen m = true →
    populated page = true →
    ((off = 0x010 ∨ off = 0x018) →
      Completes (.registerWrite m (.internal (0x40000000 + page.val * 0x1000 + off)) w) s fun t =>
        ∀ f ∈ [F.hdrErr, F.hdrIntStat], f.off = off →
          t.get page 0 f = (s.get page 0 f &&& (2 ^ 32 - 1 - w.toNat)) % 2 ^ 32) ∧
    (F.hdrFaultValid.extract w.toNat = 1 →
      Completes (.registerWrite m (.internal (0x40000000 + page.val * 0x1000 + 0x03C)) w) s fun t =>
        t.get (home page) 0 F.hdrFaultValid = 0)) ∧
  (∀ (m : Fin 8) (x : ResetWrite) (page : Fin 4096) (s : State),
    s.accepts m 0x009 F.mtxMstCtrlReset.off = true →
    s.get 0x009 0 F.mtxMstIndexIndex ≠ m → populated page = true → s.flag (home page) 0 F.hdrLockHeld = true →
    s.get (home page) 0 F.hdrLockOwner = s.get 0x009 0 F.mtxMstIndexIndex →
    Completes (.masterReset m x) s fun t => t.get (home page) 0 F.hdrLockHeld = 0) ∧
  (∀ (m : Fin 8) (page : Fin 4096) (s : State), s.accepts m pgDev F.devResetKey.off = true → 0x010 ≤ page.val →
    populated page = true → s.resetting page = false → s.warmReset = false →
    Completes (.devResetEngine m page) s fun t => t.get (home page) 0 F.hdrLockHeld = 0)

/-- A _LO read latches its _HI register for the reading master alone; its next read of the _HI returns the latched value; with
no _LO read before it a read of the _HI returns the live value (R28). -/
def Obligations.LoReadLatchesHi : Prop :=
  ∀ (m : Fin 8) (page : Fin 4096) (lo : Nat) (s : State), s.controlReset = false → s.masterOpen m = true →
    populated page = true → lo < 0x7FC → lo % 4 = 0 → lo + 4 ∈ latchedBy page lo →
    (Assoc.find Key.code (latchKey m page lo) s.latch = none →
      Completes (.loRegisterRead m (.page page) lo) s fun t => t.answered m = some (.data (s.wordReads m page lo false)) ∧
        Assoc.find Key.code (latchKey m page (lo + 4)) t.latch = some (s.wordReads m page (lo + 4) false) ∧
        (∀ (m' : Fin 8) off, m' ≠ m → Assoc.find Key.code (latchKey m' page off) t.latch =
          Assoc.find Key.code (latchKey m' page off) s.latch) ∧ SameMemory s t) ∧
    (∀ v, Assoc.find Key.code (latchKey m page (lo + 4)) s.latch = some v →
      Completes (.loRegisterRead m (.page page) (lo + 4)) s fun t => t.answered m = some (.data v) ∧
        Assoc.find Key.code (latchKey m page (lo + 4)) t.latch = none ∧ OnlyFields s t (fun _ _ _ => False) ∧
        SameMemory s t) ∧
    (Assoc.find Key.code (latchKey m page (lo + 4)) s.latch = none →
      Completes (.loRegisterRead m (.page page) (lo + 4)) s fun t =>
        t.answered m = some (.data (s.wordReads m page (lo + 4) false)) ∧ SameMemory s t)

/-- A timebase's position reads as one (R63): a read of FRAME_LO latches FRAME_HI and POS for the reading master, and whatever
time passes before it reads them they are those of the FRAME_LO that it read. -/
def Obligations.FrameReadIsOnePosition : Prop :=
  ∀ (m : Fin 8) (k : Fin 4) (page : Fin 4096) (s : State) (later stillLater : Nat), page.val = pgTb k → s.controlReset = false → s.masterOpen m = true →
    Assoc.find Key.code (latchKey m (pgTb k) 0x0A8) s.latch = none → (s.tb k).state ≠ .off →
    Completes (.loRegisterRead m (.page page) 0x0A8) s fun t =>
      t.answered m = some (.data ((s.tb k).frame % 2 ^ 32)) ∧
      Completes (.loRegisterRead m (.page page) 0x0AC) { t with now := later } fun u =>
        u.answered m = some (.data ((s.tb k).frame / 2 ^ 32 % 2 ^ 16)) ∧
        Completes (.loRegisterRead m (.page page) 0x0B0) { u with now := stillLater } fun v =>
          v.answered m = some (.data ((s.tb k).line s.now % 2 ^ 13 * 2 ^ 16 + (s.tb k).sample s.now % 2 ^ 16))

/-- DEV.DEVICE_ID (R3): a read gives the part number, the family, the fused grade and the stepping; a write of it changes
nothing but ERR; a cold, warm or control reset and a reset of the PCI Express port leave it. -/
def Obligations.DeviceIdIsFixed : Prop :=
  ∀ s : State, (∀ f ∈ fieldsAt pgDev 0x080, s.get pgDev 0 f = coldOf pgDev 0 f) →
    (∀ m : Fin 8, s.controlReset = false → s.masterOpen m = true →
      Assoc.find Key.code (latchKey m pgDev 0x080) s.latch = none →
      Completes (.loRegisterRead m (.page 0) 0x080) s fun t =>
        t.answered m = some (.data (0x16402010 + Config.fusedGrade % 2 * 256))) ∧
    (∀ (m : Fin 8) (w : Word), Completes (.registerWrite m (.internal (0x40000000 + pgDev * 0x1000 + 0x080)) w) s fun t =>
      OnlyFields s t (ErrorOf pgDev) ∧ SameMemory s t) ∧
    (∀ mapMode twinSide loss m, ∀ i ∈ [Instr.coldReset mapMode twinSide, .warmReset, .watchdogExpiry, .devResetWarm m,
        .devResetControl m, .pcieReset loss],
      Completes i s fun t => ∀ f ∈ fieldsAt pgDev 0x080, t.get pgDev 0 f = s.get pgDev 0 f)

/-- Resets of the whole device complete: the state each leaves at once (R53, R56, R324, R327). -/
def Obligations.ResetsComplete : Prop :=
  (∀ (mapMode twinSide : Bool) (s : State), Completes (.coldReset mapMode twinSide) s fun t =>
    t.mem = [] ∧ t.now = 0 ∧ t.mapMode = mapMode ∧ t.twinSide = twinSide ∧ t.pending = s.pending ∧ t.fw = .missing ∧
      t.get pgDev 0 F.devResetCausePor = 1) ∧
  (∀ s : State, s.warmReset = false →
    Completes .warmReset s (fun t => t.warmReset = true ∧ t.fw = .verifying ∧ t.hbm = .untrained ∧
      t.get pgDev 0 F.devResetCauseWrstPin = 1 ∧ t.get pgDev 0 F.devResetCausePor = 0) ∧
    Completes .watchdogExpiry s (fun t => t.warmReset = true ∧ t.fw = .verifying ∧ t.hbm = .untrained ∧
      t.get pgDev 0 F.devResetCauseWatchdog = 1 ∧ t.get pgDev 0 F.devResetCausePor = 0)) ∧
  (∀ (m : Fin 8) (s : State), s.accepts m pgDev F.devResetKey.off = true → s.warmReset = false →
    Completes (.devResetWarm m) s (fun t => t.warmReset = true ∧ t.get pgDev 0 F.devResetCauseDevReset = 1) ∧
    Completes (.devResetControl m) s (fun t => t.controlReset = true ∧ t.fw = .verifying ∧
      t.get pgDev 0 F.devResetCauseControl = 1 ∧ t.get pgDev 0 F.devResetCauseLockstep = 0)) ∧
  (∀ s : State, s.flag pgFlt 0 F.fltCoverLockstep = true → s.controlReset = false → s.warmReset = false →
    Completes .lockstepFault s fun t => t.controlReset = true ∧ t.get pgDev 0 F.devResetCauseControl = 1 ∧
      t.get pgDev 0 F.devResetCauseLockstep = 1 ∧ t.logged fltLockstep pgHkc)

/-- An engine reset begins and ends (R54); a control reset ends (R53). -/
def Obligations.ResetPhasesComplete : Prop :=
  (∀ (m : Fin 8) (page : Fin 4096) (s : State), s.accepts m pgDev F.devResetKey.off = true → 0x010 ≤ page.val →
    populated page = true → s.resetting page = false → s.warmReset = false →
    Completes (.devResetEngine m page) s fun t => t.get (home page) 0 F.hdrErr = 0 ∧ t.get (home page) 0 F.hdrIntStat = 0 ∧
      t.get (home page) 0 F.hdrLockHeld = 0 ∧ t.get (home page) 0 F.hdrStatusResetting = 1) ∧
  (∀ (page : Fin 4096) (s : State), populated page = true → s.resetting page = true →
    s.get (home page) 0 F.hdrRestorePolicyPolicy = 2 → s.shadow = [] → s.staged = [] →
    Completes (.engineResetDone page) s fun t => t.get (home page) 0 F.hdrStatusResetting = 0) ∧
  (∀ s : State, s.controlReset = true → s.mirrorHeld = [] →
    Completes .controlResetDone s fun t => t.controlReset = false ∧ t.powerPaused = none ∧
      ∀ c, c < 8 → t.get 0x009 c F.mtxMstStatusQuiesced = 1)

/-- The matrix and its master ports (R47 to R52): each command completes with its effect. -/
def Obligations.MatrixCommandsComplete : Prop :=
  (∀ (x : PortLoss) (s : State), Completes (.pcieReset x) s fun t =>
    t.pcieUp = (s.pcieUp && !x.linkLost) ∧
    (s.controlReset = false → s.warmReset = false → t.get 0x009 0 F.mtxMstStatusQuiesced = 0) ∧
    (s.controlReset = true ∨ s.warmReset = true → OnlyFields s t (fun _ _ _ => False) ∧ SameMemory s t) ∧
    ((∀ b ∈ x.bursts, b.accepted = 0) → SameMemory s t)) ∧
  (∀ s : State, Completes .pcieLinkUp s fun t =>
    t.pcieUp = true ∧ OnlyFields s t (fun _ _ _ => False) ∧ SameMemory s t) ∧
  (∀ (m : Fin 8) (x : ResetWrite) (s : State),
    s.accepts m 0x009 F.mtxMstCtrlReset.off = true → s.get 0x009 0 F.mtxMstIndexIndex ≠ m →
    Completes (.masterReset m x) s fun t =>
      t.get 0x009 (s.get 0x009 0 F.mtxMstIndexIndex) F.mtxMstStatusQuiesced = 0 ∧
      ((∀ b ∈ x.bursts, b.accepted = 0) → s.get 0x009 0 F.mtxMstIndexIndex ∉ [2, 5] → SameMemory s t)) ∧
  (∀ (n : Fin 8) (s : State), Completes (.masterQuiesced n) s fun t =>
    t.get 0x009 n F.mtxMstStatusQuiesced = 1 ∧ t.get 0x009 n F.mtxMstStatusOutstanding = 0 ∧
    OnlyFields s t (fun p c f => Names 0x009 n F.mtxMstStatusQuiesced p c f ∨ Names 0x009 n F.mtxMstStatusOutstanding p c f) ∧
    SameMemory s t) ∧
  (∀ (x : Timeout) (s : State),
    Completes (.targetTimeout x) s (fun t => t.logged fltInterconnect pgMtx ∧ t.fltSeq = (s.fltSeq + 1) % 2 ^ 16 ∧
      t.get 0x00A x.target F.mtxTgtStatusTimeouts =
        (s.get 0x00A x.target F.mtxTgtStatusTimeouts + 1) % F.mtxTgtStatusTimeouts.modulus ∧
      SameMemory s t)) ∧
  (∀ (k : Fin 8) (s : State),
    Completes (.matrixParityError k) s (fun t => t.logged fltInterconnect pgMtx ∧ t.fltSeq = (s.fltSeq + 1) % 2 ^ 16 ∧
      t.get 0x00A k F.mtxTgtStatusParity = (s.get 0x00A k F.mtxTgtStatusParity + 1) % F.mtxTgtStatusParity.modulus ∧
      SameMemory s t)) ∧
  (∀ (m : Fin 8) (w : Word) (s : State), s.accepts m pgMtx F.mtxCfgRemap.off = true → s.mapMode = true →
    Completes (.remapWrite m w) s fun t => t.remapPending = some (bit w.toNat 0) ∧ SameMemory s t ∧
      OnlyFields s t (fun _ _ _ => False)) ∧
  (∀ (b : Bool) (s : State), s.remapPending = some b → Completes .remapApply s fun t =>
    t.remapPending = none ∧ t.get pgMtx 0 F.mtxCfgRemap = ofBool b ∧ OnlyFields s t (Names pgMtx 0 F.mtxCfgRemap) ∧
      SameMemory s t)

/-- The lock of an engine (R31): acquired, held, released, and refused to another master. -/
def Obligations.LockIsOneMasters : Prop :=
  ∀ (m : Fin 8) (page : Fin 4096) (w : Word) (s : State), s.accepts m page F.hdrLockHeld.off = true → s.role ≠ roleShadow →
    (F.hdrLockHeld.extract w.toNat = 1 → s.flag (home page) 0 F.hdrLockHeld = false →
      Completes (.lockWrite m page w) s fun t => t.get (home page) 0 F.hdrLockHeld = 1 ∧
        t.get (home page) 0 F.hdrLockOwner = m ∧ SameMemory s t ∧
        OnlyFields s t (fun p c f => Names (home page) 0 F.hdrLockHeld p c f ∨ Names (home page) 0 F.hdrLockOwner p c f)) ∧
    (F.hdrLockHeld.extract w.toNat = 1 → s.flag (home page) 0 F.hdrLockHeld = true →
      Completes (.lockWrite m page w) s fun t => OnlyFields s t (fun _ _ _ => False) ∧ SameMemory s t) ∧
    (F.hdrLockHeld.extract w.toNat = 0 → s.flag (home page) 0 F.hdrLockHeld = true →
      s.get (home page) 0 F.hdrLockOwner = m → Completes (.lockWrite m page w) s fun t =>
        t.get (home page) 0 F.hdrLockHeld = 0 ∧ OnlyFields s t (Names (home page) 0 F.hdrLockHeld) ∧ SameMemory s t) ∧
    (F.hdrLockHeld.extract w.toNat = 0 → s.flag (home page) 0 F.hdrLockHeld = true →
      s.get (home page) 0 F.hdrLockOwner ≠ m → Completes (.lockWrite m page w) s fun t =>
        t.get (home page) 0 F.hdrLockHeld = 1 ∧ t.errSet page errLockViolation ∧ SameMemory s t)

/-- Register writes and reads (R9, R28, R33, R40): a status register is cleared by ones; a `_LO` read latches its `_HI`; a read
clears an RC field; unmasking a vector. -/
def Obligations.RegisterAccessesComplete : Prop :=
  (∀ (m : Fin 8) (page : Fin 4096) (w : Word) (s : State), s.accepts m page F.hdrErr.off = true →
    Completes (.registerWrite m (.internal (0x40000000 + page.val * 0x1000 + F.hdrErr.off)) w) s fun t =>
      t.get page 0 F.hdrErr = (s.get page 0 F.hdrErr &&& (2 ^ 32 - 1 - w.toNat)) % 2 ^ 32 ∧
      OnlyFields s t (Names page 0 F.hdrErr) ∧ SameMemory s t) ∧
  (∀ (m : Fin 8) (page : Fin 4096) (s : State), s.controlReset = false → s.masterOpen m = true → populated page = true →
    Assoc.find Key.code (latchKey m page 0x024) s.latch = none →
    Completes (.loRegisterRead m (.page page) 0x024) s fun t =>
      t.answered m = some (.data (s.wordReads m page 0x024 false)) ∧
      Assoc.find Key.code (latchKey m page 0x028) t.latch = some (s.wordReads m page 0x028 false) ∧ SameMemory s t) ∧
  (∀ (m : Fin 8) (page : Fin 4096) (v : Nat) (s : State), s.controlReset = false → s.masterOpen m = true →
    populated page = true → Assoc.find Key.code (latchKey m page 0x028) s.latch = some v →
    Completes (.loRegisterRead m (.page page) 0x028) s fun t => t.answered m = some (.data v) ∧
      Assoc.find Key.code (latchKey m page 0x028) t.latch = none ∧ OnlyFields s t (fun _ _ _ => False) ∧ SameMemory s t) ∧
  (∀ (m : Fin 8) (page : Fin 4096) (off : Nat) (f : Field) (s : State), s.controlReset = false → s.masterOpen m = true →
    populated page = true → off < 0x800 → off % 4 = 0 → f ∈ fieldsAt page off → f.access = .rc →
    fifoRead page off = false →
    Assoc.find Key.code (latchKey m page off) s.latch = none →
    Completes (.rcRead m page off) s fun t => t.get page (if off < 0x080 then 0 else s.cellOf m page off) f = 0 ∧
      SameMemory s t) ∧
  (∀ (v : Fin 512) (s : State), s.masterOpen 0 = true → s.vectorMasked v = true → Tab.at false s.msixPending v = true →
    (∃ p ∈ allPages, s.get (home p) 0 F.hdrIntVecVector = v ∧ s.masked p ≠ 0) →
    Completes (.msixUnmask v) s fun t => t.vectorMasked v = false ∧ t.out = .msix v :: s.out ∧
      Tab.at false t.msixPending v = false ∧ OnlyFields s t (fun _ _ _ => False) ∧ SameMemory s t)

/-- A header commit of a timebase (R35, R37, R38): requested it waits for its commit point while the timebase runs and
completes at once while it is stopped; a scheduled one enters one event; cancelled it is withdrawn. -/
def Obligations.CommitRequestsComplete : Prop :=
  ∀ (m : Fin 8) (k : Fin 4) (page : Fin 4096) (s : State), page.val = pgTb k → s.accepts m page F.hdrCommit.off = true →
    s.inert page = false →
    (s.running page = true → s.commitPending page 0 = false →
      Completes (.commitRequest m page) s fun t => t.get page 0 F.hdrCommit = 1 ∧ t.get page 0 F.hdrCommitAtFrame = 0 ∧
        SameMemory s t) ∧
    (s.running page = false → Completes (.commitRequest m page) s fun t => t.get page 0 F.hdrCommit = 0 ∧
      t.intSet page intCommitDone ∧ SameMemory s t) ∧
    (s.commitPending page 0 = false → (s.tb k).state ≠ .off → s.events.length < scheduleSize →
      s.frameLate k (s.frame48 page 0 F.hdrCommitFrameLoFrameLo F.hdrCommitFrameHiFrameHi) = false →
      Completes (.commitAtFrame m page) s fun t => t.get page 0 F.hdrCommit = 1 ∧ t.get page 0 F.hdrCommitAtFrame = 1 ∧
        SameMemory s t ∧ ∃ e, t.events = s.events ++ [e] ∧ e.kind = .pageCommit ∧ e.tb = k.val ∧ e.page = page.val ∧
          e.frame = s.frame48 page 0 F.hdrCommitFrameLoFrameLo F.hdrCommitFrameHiFrameHi) ∧
    (∀ atFrame, s.commitPending page 0 = true → (s.unit page 0).captured = false → (s.unit page 0).next = none →
      Completes (.commitCancel m page false atFrame) s fun t => t.get page 0 F.hdrCommit = 0 ∧ SameMemory s t ∧
        ∀ h, (s.unit page 0).handle = some h → t.pendingEvent h = none)

/-- The points of a commit (R35, R37, R39, R330). COMMIT_CAPTURE freezes the shadow copy of a timebase or of a LOCKED receiver and
captures what is pending; FRAME_COMMIT_POINT ends the freeze, makes the captured shadow copy of a receiver or of a timebase active,
clears COMMIT and sets COMMIT_DONE; a configuration field that fails parity sets ERR.PARITY and writes a fault record, the register
keeping its value where its record's seal holds; a compare pass finds nothing to reload. -/
def Obligations.CommitPointsComplete : Prop :=
  (∀ (k : Fin 4) (page : Fin 4096) (s : State), page.val = pgTb k → (s.tb k).state ≠ .off →
    (s.commitPending page 0 = true → (s.unit page 0).frame = none →
      Completes (.commitCapture page) s fun t => t.unit page 0 = { s.unit page 0 with frozen := true, captured := true } ∧
        OnlyFields s t (fun _ _ _ => False) ∧ SameMemory s t) ∧
    (s.commitPending page 0 = false →
      Completes (.commitCapture page) s fun t => t.unit page 0 = { s.unit page 0 with frozen := true } ∧
        OnlyFields s t (fun _ _ _ => False) ∧ SameMemory s t)) ∧
  (∀ (n : Fin 96) (page : Fin 4096) (s : State), page.val = pgSdirx n → s.lock n = lockLocked → s.commitPending page 0 = true →
    (s.unit page 0).frame = none →
    Completes (.commitCapture page) s fun t => t.unit page 0 = { s.unit page 0 with frozen := true, captured := true } ∧
      OnlyFields s t (fun _ _ _ => False) ∧ SameMemory s t) ∧
  (∀ (n : Fin 96) (page : Fin 4096) (c v : Nat) (f : Field) (s : State), page.val = pgSdirx n → s.running page = true →
    (s.unit page 0).captured = true → (s.unit page 0).next = none → f ∈ F.sdirxFields → f.cls = .shadow →
    s.shadow = [(f.key page c, v)] →
    Completes (.frameCommitPoint page) s fun t => t.get page c f = v ∧ t.get page 0 F.hdrCommit = 0 ∧
      t.intSet page intCommitDone ∧ (t.unit page 0).frozen = false ∧ (t.unit page 0).captured = false ∧ SameMemory s t) ∧
  (∀ (k : Fin 4) (page : Fin 4096) (c v : Nat) (f : Field) (s : State), page.val = pgTb k → (s.tb k).state ≠ .off →
    (s.unit page 0).captured = true → (s.unit page 0).next = none → f ∈ F.tbFields → f.cls = .shadow →
    s.shadow = [(f.key page c, v)] →
    Completes (.frameCommitPoint page) s fun t => t.get page c f = v ∧ t.get page 0 F.hdrCommit = 0 ∧
      t.intSet page intCommitDone ∧ (t.unit page 0).frozen = false ∧ SameMemory s t) ∧
  (∀ (page : Fin 4096) (cell off lo : Nat) (f : Field) (s : State), fieldAtSlot page (off * 32 + lo) = some f →
    populated page = true → f.cls ≠ .none →
    Completes (.configParityError page cell off lo) s fun t => t.logged fltConfigUpset (home page) ∧
      t.errSet (home page) errParity ∧
      ((Assoc.find id (home page) s.cave).map CaveRecord.sealOk = some true → t.get page cell f = s.get page cell f) ∧
      SameMemory s t) ∧
  (∀ s : State, Completes .configComparePass s fun t => t = s)

/-- Timebase commands complete (R61, R62, R69): RUN starts the counter now and at a preset only where one is armed, RUN = 0
stops it and flushes its events. -/
def Obligations.TimebaseControlCompletes : Prop :=
  ∀ (m : Fin 8) (k : Fin 4) (s : State),
    (∀ w : Word, s.accepts m (pgTb k) 0x080 = true → s.running (pgTb k) = false → s.acts (pgTb k) = true →
      s.flag (pgTb k) 0 F.tbPresetArmArm = false →
      Completes (.tbRun m k w) s fun t => t.running (pgTb k) = true ∧ (t.tb k).state ≠ .off ∧ (t.tb k).startNs = s.now ∧
        (t.tb k).frame = 0 ∧ t.get (pgTb k) 0 F.tbCtrlRun = 1 ∧ SameMemory s t) ∧
    (∀ w : Word, s.accepts m (pgTb k) 0x080 = true → s.running (pgTb k) = true → s.commitPending (pgTb k) 0 = false →
      Completes (.tbStop m k w) s fun t => t.running (pgTb k) = false ∧ (t.tb k).state = .off ∧
        t.get (pgTb k) 0 F.tbCtrlRun = 0 ∧ (∀ e ∈ t.events, e.tb ≠ k.val) ∧ SameMemory s t) ∧
    (s.accepts m (pgTb k) 0x0A0 = true → s.tbSource k ≤ srcRefB →
      Completes (.presetArm m k) s fun t => t.get (pgTb k) 0 F.tbPresetArmArm = 1 ∧
        OnlyFields s t (Names (pgTb k) 0 F.tbPresetArmArm) ∧ SameMemory s t)

/-- What a timebase's reference and its own count do to it (R60, R64, R65, R68). -/
def Obligations.TimebaseEventsComplete : Prop :=
  ∀ (k : Fin 4) (s : State),
    (∀ (refB : Bool) (line : Nat), s.tbSource k = (if refB then srcRefB else srcRefA) → (s.tb k).state ≠ .off →
      (s.tb k).state ≠ .free → s.resetting (pgTb k) = false →
      Completes (.refHEdge refB line) s fun t => (t.tb k).lastSync = some s.now ∧ SameMemory s t) ∧
    (s.tbSilent k = true →
      Completes (.tbLoss k) s fun t => (t.tb k).state = .holdover ∧ t.logged fltRefLoss (pgTb k) ∧
        t.intSet (pgTb k) 16 ∧ (t.tb k).slewErr = 0 ∧ (t.tb k).ppt = (s.tb k).average s.now ∧ SameMemory s t) ∧
    ((s.tb k).state = .locked →
      Completes (.tbRateMismatch k) s fun t => (t.tb k).state = .holdover ∧ (t.tb k).badFrames = 1 ∧
        OnlyFields s t (fun _ _ _ => False) ∧ SameMemory s t) ∧
    ((s.tb k).state = .holdover → 2 ≤ (s.tb k).badFrames →
      Completes (.tbRateMismatch k) s fun t => (t.tb k).state = .mismatch ∧ t.intSet (pgTb k) 19 ∧
        OnlyFields s t (Names (pgTb k) 0 F.hdrIntStat) ∧ SameMemory s t) ∧
    ((s.tb k).state ≠ .off → s.events = [] → s.profPreps = [] → s.handOver = false → (s.unit (pgTb k) 0).captured = false →
      Completes (.tbFrameBoundary k) s fun t => (t.tb k).frame = (s.nextFrame k).1 ∧ (t.tb k).startNs = s.now ∧
        SameMemory s t)

/-- A switch line of a timebase (R71 to R73, R79, R94 to R96). RIND_OPEN freezes the flow contexts of the timebase, captures what
is pending there and begins the copies of the line's takes; RIND_CLOSE ends the freeze; ARM_POINT arms the copies that are done;
SWITCH_POINT applies an armed take: its entry is the egress flow's in the crosspoint map, TAKE_CNT counts it, its event is over. -/
def Obligations.SwitchLinesComplete : Prop :=
  ∀ (k : Fin 4) (line : Nat) (s : State),
    (s.switchLineOf k line = true →
      Completes (.rindOpen k line) s fun t => (t.tb k).rind = some line ∧
        (∀ f ∈ s.flowsOf k, (t.unit pgFlow (f + 1)).frozen = true ∧
          (s.commitPending pgFlow (f + 1) = true → (s.unit pgFlow (f + 1)).frame = none →
            (t.unit pgFlow (f + 1)).captured = true)) ∧
        (∀ e ∈ s.events, e.kind = .take → e.tb = k.val → e.frame = (s.tb k).frame → e.line = line →
          ∃ c ∈ t.bank, c.owner = .event e.handle ∧ c.entries = s.salvo e.arg ∧ c.state = .copying) ∧
        OnlyFields s t (fun _ _ _ => False) ∧ SameMemory s t) ∧
    ((s.tb k).rind.isSome = true →
      Completes (.rindClose k) s fun t => (t.tb k).rind = none ∧ (∀ f ∈ s.flowsOf k, (t.unit pgFlow (f + 1)).frozen = false) ∧
        OnlyFields s t (fun _ _ _ => False) ∧ SameMemory s t) ∧
    (s.switchLineOf k line = true →
      Completes (.armPoint k line) s fun t =>
        (∀ e ∈ s.events, e.kind = .take → e.tb = k.val → e.frame = (s.tb k).frame → e.line = line →
          ∀ c ∈ s.bank, c.owner = .event e.handle → c.state = .done →
            { c with state := .armed, phases := s.phasesOf c.entries } ∈ t.bank) ∧
        OnlyFields s t (fun _ _ _ => False) ∧ SameMemory s t) ∧
    (∀ e : Event, s.switchLineOf k line = true → s.events = [e] → e.kind = .take → e.tb = k.val → e.frame = (s.tb k).frame →
      e.line = line → Completes (.switchPoint k line) s fun t => t.pendingEvent e.handle = none ∧ SameMemory s t) ∧
    (∀ (e : Event) (c : BankCopy) (x : XpEntry), s.switchLineOf k line = true → s.events = [e] → e.kind = .take → e.tb = k.val →
      e.frame = (s.tb k).frame → e.line = line → s.bank = [c] → c.owner = .event e.handle → c.entries = [x] →
      s.entryBad x = false → s.flowType x.egress = typeVideo → x.audioFollow = false →
      (∀ n, n < 4 → (s.pin n).pending = false) → (∀ p u, (s.unit p u).captured = false) →
      Completes (.switchPoint k line) s fun t => t.xpOf x.egress = x ∧
        t.get pgCore 0 F.coreTakeCntCount = (s.get pgCore 0 F.coreTakeCntCount + 1) % F.coreTakeCntCount.modulus ∧
        t.get pgCore 0 F.coreTakeSkipCount = s.get pgCore 0 F.coreTakeSkipCount ∧ t.bank = [] ∧ SameMemory s t)

/-- Submitting and withdrawing events (R77, R80): an event that passes the checks is entered whole under the next handle; one
that fails leaves the schedule as it was; a cancelled one is pending no more. -/
def Obligations.ScheduleCommandsComplete : Prop :=
  ∀ (m : Fin 8) (s : State), s.fw = .running →
    (∀ (kind : EvKind) (e : Event), s.accepts m pgSched 0x090 = true →
      evKindOf (bits (s.get pgSched m F.schedEvW0Word) 28 4) = some kind →
      e = eventOf (s.get pgSched m F.schedEvW0Word) (s.get pgSched m F.schedEvW1Word) (s.get pgSched m F.schedEvW2Word)
        (s.get pgSched m F.schedEvW3Word) kind (.submit m) →
      (s.evCheck e = evOk → Completes (.eventSubmit m) s fun t => t.events = s.events ++ [{ e with handle := s.nextHandle }] ∧
        t.get pgSched m F.schedEvResultCode = evOk ∧
        t.get pgSched m F.schedEvResultHandle = s.nextHandle % F.schedEvResultHandle.modulus ∧ SameMemory s t) ∧
      (s.evCheck e ≠ evOk → Completes (.eventSubmit m) s fun t => t.events = s.events ∧ t.evSlots = s.evSlots ∧
        t.get pgSched m F.schedEvResultCode = s.evCheck e % F.schedEvResultCode.modulus ∧ SameMemory s t)) ∧
    (∀ (h : BitVec 16) (e : Event), s.accepts m pgSched 0x098 = true → s.pendingEvent h.toNat = some e →
      e.kind ≠ .pageCommit → e.kind ≠ .layerCommit → s.deadlinePassed e.kind e.tb e.frame e.line e.sample = false →
      Completes (.eventCancel m h) s fun t => t.pendingEvent h.toNat = none ∧
        t.get pgSched m F.schedEvResultCode = evOk ∧ (t.evSlot (handleSlot h.toNat)).state = .cancelled ∧ SameMemory s t)

/-- The done log (R81): every event applied with NOTIFY pushes its handle and sets DONE, an event of the NOTIFY kind at its own
point too; when the log holds 64 the handle is discarded and OVF is held for the next read; a read answers the oldest handle and
removes it. -/
def Obligations.DoneLogKeepsOrder : Prop :=
  (∀ (e : Event) (s : State), e.notify = true →
    (s.appliedEvent e).intSet pgSched 16 ∧
    (s.doneLog.length < 64 → (s.appliedEvent e).doneLog = s.doneLog ++ [e.handle] ∧ (s.appliedEvent e).doneOvf = s.doneOvf) ∧
    (64 ≤ s.doneLog.length → (s.appliedEvent e).doneLog = s.doneLog ∧ (s.appliedEvent e).doneOvf = true)) ∧
  (∀ (e : Event) (s : State), e.notify = false → e.kind ≠ .notify → (s.appliedEvent e).doneLog = s.doneLog) ∧
  (∀ (h : BitVec 16) (e : Event) (s : State), s.pendingEvent h.toNat = some e → e.kind = .notify →
    Completes (.notifyEvent h) s fun t => t.pendingEvent h.toNat = none ∧ t.intSet pgSched 16 ∧
      (s.doneLog.length < 64 → t.doneLog = s.doneLog ++ [h.toNat] ∧ t.doneOvf = s.doneOvf) ∧
      (64 ≤ s.doneLog.length → t.doneLog = s.doneLog ∧ t.doneOvf = true) ∧
      OnlyFields s t (Names pgSched 0 F.hdrIntStat) ∧ SameMemory s t) ∧
  (∀ (m : Fin 8) (s : State), s.controlReset = false → s.masterOpen m = true →
    Assoc.find Key.code (latchKey m pgSched F.schedDoneHandle.off) s.latch = none →
    (∀ h rest, s.doneLog = h :: rest → Completes (.doneRead m) s fun t =>
      t.answered m = some (.data (2 ^ 31 + ofBool s.doneOvf * 2 ^ 30 + h)) ∧ t.doneLog = rest ∧ t.doneOvf = false ∧
      OnlyFields s t (fun _ _ _ => False) ∧ SameMemory s t) ∧
    (s.doneLog = [] → Completes (.doneRead m) s fun t => t.answered m = some (.data (ofBool s.doneOvf * 2 ^ 30)) ∧
      t.doneLog = [] ∧ t.doneOvf = false ∧ OnlyFields s t (fun _ _ _ => False) ∧ SameMemory s t))

/-- Salvo operations (R82): one begins where the salvo is free, and its end stores or removes the salvo. -/
def Obligations.SalvoCommandsComplete : Prop :=
  (∀ (m : Fin 8) (s : State), s.accepts m pgSched 0x0C0 = true → s.fw = .running → s.salvoOp = none →
    s.salvoBusy (s.get pgSched 0 F.schedSalvoIndexSalvo) = false →
    (1 ≤ s.get pgSched 0 F.schedSalvoCountCount → s.get pgSched 0 F.schedSalvoCountCount ≤ 1024 →
      s.get pgSched 0 F.schedSalvoCountCount ≤ s.poolFree →
      Completes (.salvoLoad m) s fun t => t.salvoOp = some (.load (s.get pgSched 0 F.schedSalvoIndexSalvo)
          ((s.readBytes (s.addr40 pgSched 0 F.schedSalvoSrcLoAddr F.schedSalvoSrcHiAddr)
            (8 * s.get pgSched 0 F.schedSalvoCountCount)).map (xpEntries (s.get pgSched 0 F.schedSalvoCountCount)))) ∧
        t.get pgSched 0 F.schedSalvoResultBusy = 1 ∧ OnlyFields s t (Names pgSched 0 F.schedSalvoResultBusy) ∧
        SameMemory s t) ∧
    Completes (.salvoDelete m) s (fun t => t.salvoOp = some (.delete (s.get pgSched 0 F.schedSalvoIndexSalvo)) ∧
      t.get pgSched 0 F.schedSalvoResultBusy = 1 ∧ OnlyFields s t (Names pgSched 0 F.schedSalvoResultBusy) ∧
      SameMemory s t)) ∧
  (∀ (v : Nat) (es : List XpEntry) (s : State), s.salvoOp = some (.load v (some es)) →
    Completes .salvoLoadDone s fun t => t.salvo v = es ∧ t.salvoOp = none ∧ t.get pgSched 0 F.schedSalvoResultBusy = 0 ∧
      t.get pgSched 0 F.schedSalvoResultCode = 0 ∧ SameMemory s t) ∧
  (∀ (v : Nat) (s : State), s.salvoOp = some (.delete v) →
    Completes .salvoDeleteDone s fun t => t.salvo v = [] ∧ t.salvoOp = none ∧ t.get pgSched 0 F.schedSalvoResultBusy = 0 ∧
      SameMemory s t)

/-- Copies and TAKE pins (R95 to R98). -/
def Obligations.TakePinsComplete : Prop :=
  (∀ s : State, Completes .lateCopyDone s fun t =>
    (∀ c ∈ s.bank, c.late = true → c.state = .copying → { c with state := .done } ∈ t.bank) ∧
    OnlyFields s t (fun _ _ _ => False) ∧ SameMemory s t) ∧
  (∀ (n : Fin 4) (s : State), Completes (.pinCopyDone n) s fun t =>
    (∀ c ∈ s.bank, c.owner = .pin n.val → c.state = .copying → { c with state := .done } ∈ t.bank) ∧
    OnlyFields s t (fun _ _ _ => False) ∧ SameMemory s t) ∧
  (∀ (n : Fin 4) (s : State), s.pinActs n = true → s.role ≠ roleShadow → (s.pin n).pending = false →
    Completes (.takePinEdge n) s fun t => (t.pin n).pending = true ∧ (∃ c ∈ t.bank, c.owner = .pin n.val) ∧ SameMemory s t) ∧
  (∀ (n : Fin 4) (s : State) (g r : Bool), (s.pin n).edge = .take g r → (s.pin n).heldCfg = none → s.role ≠ roleShadow →
    Completes (.takePinRunt n) s fun t => (t.pin n).pending = false ∧ (∀ c ∈ t.bank, c.owner ≠ .pin n.val) ∧
      (g = true → (t.get pgCore 0 F.corePinStatusGated).testBit n = false) ∧
      OnlyFields s t (fun p c f => p = pgCore ∧ c = 0 ∧ (f = F.corePinStatusGated ∨ f = F.hdrIntStat)) ∧ SameMemory s t) ∧
  (∀ (n : Fin 4) (s : State), (s.pin n).edge = .none → Completes (.takePinRunt n) s fun t => t = s) ∧
  (∀ (m : Fin 8) (n : Fin 4) (w : Word) (s : State), s.accepts m pgCore (0x090 + 4 * n) = true →
    ((s.pin n).pending = true → Completes (.pinCfgWrite m n w) s fun t => (t.pin n).heldCfg = some w.toNat ∧
      OnlyFields s t (fun _ _ _ => False) ∧ SameMemory s t) ∧
    ((s.pin n).pending = false → Completes (.pinCfgWrite m n w) s fun t =>
      t.get pgCore 0 (pinSalvo n) = bits w.toNat 0 8 ∧ t.get pgCore 0 (pinTb n) = bits w.toNat 24 2 ∧
      t.get pgCore 0 (pinArm n) = ofBool (bit w.toNat 31 && !(s.salvo (bits w.toNat 0 8)).isEmpty) ∧ SameMemory s t))

/-- Flow contexts (R35, R38, R85, R86): ALLOC gives the lowest free context with the wanted direction and type, FREE releases
it, a write of a word of a stopped flow's context is what the context then holds; a commit pends while the flow runs, completes at
once while it is stopped, and is withdrawn by CANCEL. -/
def Obligations.FlowContextsComplete : Prop :=
  (∀ (m : Fin 8) (w : Word) (s : State),
    (s.accepts m pgFlow 0x084 = true → bits w.toNat 24 2 ≠ 3 → firstFree s.flows 0 flowCount < flowCount →
      Completes (.flowAlloc m w) s fun t =>
        t.flowValid (firstFree s.flows 0 flowCount) = true ∧ t.flowEn (firstFree s.flows 0 flowCount) = false ∧
        t.get pgFlow (firstFree s.flows 0 flowCount) F.flowwinCtx0Dir = bits w.toNat 20 1 ∧
        t.get pgFlow (firstFree s.flows 0 flowCount) F.flowwinCtx0Type = bits w.toNat 24 2 ∧
        t.get pgFlow m F.flowwinFlowResultCode = flowOk ∧
        t.get pgFlow m F.flowwinFlowResultFlow = firstFree s.flows 0 flowCount ∧ SameMemory s t) ∧
    (s.accepts m pgFlow 0x084 = true → s.isIngress (s.flowIndex m) = true → s.flowEn (s.flowIndex m) = false →
      s.readers (s.flowIndex m) = [] →
      Completes (.flowFree m w) s fun t => t.flowValid (s.flowIndex m) = false ∧
        t.get pgFlow m F.flowwinFlowResultCode = flowOk ∧ SameMemory s t) ∧
    (∀ (n : Fin 8) (f : Field), s.accepts m pgFlow (0x0A0 + 4 * n) = true → s.flowValid (s.flowIndex m) = true →
      s.flowEn (s.flowIndex m) = false → f ∈ fieldsAt pgFlow (0x0A0 + 4 * n) →
      f.access = .rw → f.legal.ok (f.extract w.toNat) = true →
      (n ≠ 0 → n ≠ 1 → n ≠ 2 → n ≠ 4 →
        Completes (.flowCtxWrite m n w) s fun t => t.get pgFlow (s.flowIndex m) f = f.extract w.toNat ∧ SameMemory s t) ∧
      (n = 0 → f ≠ F.flowwinCtx0En → F.flowwinCtx0En.extract w.toNat = 0 →
        s.isEgress (s.flowIndex m) = false ∨ (F.flowwinCtx0PortKind.extract w.toNat ≠ kindCnv ∧
          F.flowwinCtx0PortKind.extract w.toNat ≠ kindCpo) →
        F.flowwinCtx0PortKind.extract w.toNat ≤ 6 →
        streamLegal (F.flowwinCtx0PortKind.extract w.toNat) (F.flowwinCtx0Stream.extract w.toNat) = true →
        Completes (.flowCtxWrite m n w) s fun t => t.get pgFlow (s.flowIndex m) f = f.extract w.toNat ∧ SameMemory s t) ∧
      (n = 1 → fmtLegal (F.flowwinCtx1Struct.extract w.toNat) (F.flowwinCtx1Rate.extract w.toNat) = true →
        (s.run (s.flowIndex m)).store = none →
        Completes (.flowCtxWrite m n w) s fun t => t.get pgFlow (s.flowIndex m) f = f.extract w.toNat ∧ SameMemory s t) ∧
      (n = 2 → F.flowwinCtx2FsEn.extract w.toNat = 0 → s.get pgFlow (s.flowIndex m) F.flowwinCtx2FsEn = 0 →
        (s.run (s.flowIndex m)).store = none →
        Completes (.flowCtxWrite m n w) s fun t => t.get pgFlow (s.flowIndex m) f = f.extract w.toNat ∧ SameMemory s t) ∧
      (n = 4 → F.flowwinCtx4Offset.extract w.toNat ≤ s.offsetLimit (s.flowIndex m) →
        Completes (.flowCtxWrite m n w) s fun t => t.get pgFlow (s.flowIndex m) f = f.extract w.toNat ∧ SameMemory s t))) ∧
  (∀ (m : Fin 8) (s : State), s.accepts m pgFlow 0x08C = true → s.flowValid (s.flowIndex m) = true →
    (s.flowEn (s.flowIndex m) = true → s.commitPending pgFlow (s.flowIndex m + 1) = false →
      Completes (.flowCommit m) s fun t => t.commitPending pgFlow (s.flowIndex m + 1) = true ∧
        SameMemory s t) ∧
    (s.flowEn (s.flowIndex m) = false → Completes (.flowCommit m) s fun t =>
      t.commitPending pgFlow (s.flowIndex m + 1) = false ∧ t.intSet pgFlow intCommitDone ∧ SameMemory s t) ∧
    (s.commitPending pgFlow (s.flowIndex m + 1) = true → (s.unit pgFlow (s.flowIndex m + 1)).captured = false →
      (s.unit pgFlow (s.flowIndex m + 1)).next = none →
      Completes (.flowCommitCancel m false) s fun t => t.commitPending pgFlow (s.flowIndex m + 1) = false ∧ SameMemory s t))

/-- The Vat (R99 to R103, R109): an ingress segment is resident from now, a corrected word is counted on its bank, an
uncorrectable one sets VAT_UE; a fenced bank drains, is FENCED, is tested and may come back. -/
def Obligations.VatCommandsComplete : Prop :=
  ((∀ (flow : Fin 4096) (line seg frag : Nat) (bytes : List Byte) (last : Bool) (s : State), s.isIngress flow = true →
    s.flowEn flow = true → s.mayProduce flow line = true → bytes.length = fragBytes ∨ bytes.length < fragBytes ∧ last = true →
    frag < 32 → s.nextFrag flow line seg frag = true → (∀ e ∈ s.cnvCells, e.2.job = none) →
    Completes (.segmentIngress flow line seg frag bytes last) s fun t => (t.run flow).producing = true ∧
      (t.run flow).lastSegNs = s.now ∧
      (t.readFrag flow line seg frag).map (fun x => (x.atNs, x.bytes)) = some (s.now, bytes) ∧
      OnlyFields s t (fun _ _ _ => False) ∧ SameMemory s t) ∧
  (∀ (flow : Fin 4096) (line seg frag : Nat) (last : Bool) (bank : Fin 66) (s : State),
    Completes (.egressSegmentRead flow line seg frag last bank .corrected) s (fun t =>
      (t.bank_ bank).ce = satNat 8 ((s.bank_ bank).ce + 1) ∧ SameMemory s t) ∧
    Completes (.egressSegmentRead flow line seg frag last bank .uncorrectable) s (fun t =>
      (t.bank_ bank).ue = satNat 8 ((s.bank_ bank).ue + 1) ∧ t.errSet pgCore 17 ∧ t.intSet pgCore 19 ∧ SameMemory s t))) ∧
  ((∀ (m : Fin 8) (w : Word) (s : State), s.accepts m pgCore 0x0B4 = true → bit w.toNat 31 = false → bit w.toNat 30 = false →
    bit w.toNat 29 = false →
    (s.fenceRefused (s.get pgCore 0 F.coreVatIndexBank) = false →
      Completes (.vatFence m w) s fun t => (t.bank_ (s.get pgCore 0 F.coreVatIndexBank)).state = .draining ∧
        (t.bank_ (s.get pgCore 0 F.coreVatIndexBank)).tested = false ∧ SameMemory s t) ∧
    ((s.bank_ (s.get pgCore 0 F.coreVatIndexBank)).state = .fenced →
      Completes (.vatTest m w) s fun t => (t.bank_ (s.get pgCore 0 F.coreVatIndexBank)).state = .testing ∧
        OnlyFields s t (fun _ _ _ => False) ∧ SameMemory s t) ∧
    ((s.bank_ (s.get pgCore 0 F.coreVatIndexBank)).state = .fenced →
      (s.bank_ (s.get pgCore 0 F.coreVatIndexBank)).tested = true → 64 ≤ s.slotsHeld →
      Completes (.vatUnfence m w) s fun t => (t.bank_ (s.get pgCore 0 F.coreVatIndexBank)).state = .spare ∧
        OnlyFields s t (fun _ _ _ => False) ∧ SameMemory s t)) ∧
  (∀ (bank : Fin 66) (s : State), (s.bank_ bank).state = .draining → Completes (.vatDrainDone bank) s fun t =>
    (t.bank_ bank).state = .fenced ∧ t.intSet pgCore 18 ∧ OnlyFields s t (Names pgCore 0 F.hdrIntStat) ∧ SameMemory s t) ∧
  (∀ (bank : Fin 66) (pass : Bool) (s : State), (s.bank_ bank).state = .testing → Completes (.vatTestDone bank pass) s fun t =>
    (t.bank_ bank).state = (if pass then .fenced else .testFailed) ∧ (t.bank_ bank).tested = pass ∧
    OnlyFields s t (fun _ _ _ => False) ∧ SameMemory s t))

/-- A source that falls silent, and its return (R93, R105). -/
def Obligations.SourceLossCompletes : Prop :=
  (∀ (flow : Fin 4096) (s : State), s.isIngress flow = true →
    s.linesNs flow 2 ≤ s.now - (s.run flow).lastSegNs →
    Completes (.sourceLoss flow) s fun t => (t.run flow).producing = false ∧
      (∀ e ∈ s.readers flow, t.get pgFlow e F.flowwinCtx7SrcLost = 1 ∧ (t.run e).lost = true) ∧ SameMemory s t) ∧
  (∀ (flow : Fin 4096) (src : Nat) (s : State), s.isEgress flow = true → s.flowEn flow = true → s.sourceOf flow = some src →
    (s.run flow).lost = true → (s.run src).producing = true → (s.run src).lost = false →
    Completes (.egressFrameStart flow) s fun t => t.get pgFlow flow F.flowwinCtx7SrcLost = 0 ∧ (t.run flow).lost = false ∧
      SameMemory s t)

/-- SDI reception (R107 to R111, R116, R119): a receiver finds its signal, follows it and loses it; ancillary packets are taken
by its filters, and a transmitter's re-rate gap ends (R118, R124). -/
def Obligations.SdiReceptionCompletes : Prop :=
  (∀ (n : Fin 96) (s : State),
    (s.running (pgSdirx n) = true → s.lock n = lockNoSignal → s.commitPending (pgSdirx n) 0 = false →
      Completes (.sdiSignalDetect n) s fun t => t.lock n = lockWaitPower ∧ t.intSet (pgSdirx n) 16 ∧ SameMemory s t) ∧
    (s.lock n = lockAligning → s.get (pgSdirx n) 0 F.sdirxCtrlRate = 0 → (s.rx n).seen = none →
      Completes (.sdiRateTryTimeout n) s fun t =>
        (t.rx n).trying = (if (s.rx n).trying ≤ 1 then 5 else (s.rx n).trying - 1) ∧ OnlyFields s t (fun _ _ _ => False) ∧
        SameMemory s t) ∧
    (∀ l : SdiLine, s.running (pgSdirx n) = true → s.lock n = lockLocked → l.trsOk = false → (s.rx n).errored < 7 →
      Completes (.sdirxLine n l) s fun t => t.get (pgSdirx n) 0 F.sdirxCrcCntLines =
        (s.get (pgSdirx n) 0 F.sdirxCrcCntLines + 1) % 2 ^ 32 ∧ (t.rx n).errored = (s.rx n).errored + 1 ∧ SameMemory s t) ∧
    (∀ (x : SdiFrame) (w : Nat), s.running (pgSdirx n) = true → s.lock n = lockLocked → x.link ≠ 1 → x.payload = some w →
      s.commitPending (pgSdirx n) 0 = false →
      Completes (.sdirxFrameEnd n x) s fun t => t.get (pgSdirx n) 0 F.sdirxPidBytes = w % 2 ^ 32 ∧ SameMemory s t) ∧
    (∀ (skewNs : Nat) (f : SdiFmt) (q : Option Nat), s.rxLead n = some n.val → (s.rxMembers n).length = 4 → skewNs ≤ 4000 →
      f.link = 7 →
      (∀ k ∈ s.rxMembers n, s.lock k = lockWaitGroup ∧ (s.rx k).seen.map (fun y => y.1) = some (some f)) →
      (s.rx n).seen = some (some f, q) → (∀ l ∈ [1, 2, 3, 4], ∃ k ∈ s.rxMembers n, (s.rx k).quadLink = some l) →
      Completes (.quadGroupForm n skewNs) s fun t =>
        (∀ k ∈ s.rxMembers n, t.lock k = lockLocked ∧ t.stat (pgSdirx k) 20 = true) ∧ SameMemory s t) ∧
    (s.running (pgSdirx n) = true → s.lock n ≠ lockNoSignal → s.commitPending (pgSdirx n) 0 = false →
      Completes (.sdiSignalLoss n) s fun t => t.lock n = lockNoSignal ∧ t.get (pgSdirx n) 0 F.sdirxFmtValid = 0 ∧
        t.logged fltLaneLoss (pgSdirx n) ∧ SameMemory s t)) ∧
  (∀ (n : Fin 96) (s : State),
    (∀ x : AncPacket, s.running (pgSdirx n) = true → s.lock n = lockLocked → s.rxCarriesAnc n = true →
      isAudioDid (s.get (pgSdirx n) 0 F.sdirxFmtLink) x.did = false → isPayloadId x.did x.sdid = false →
      (x.sumOk = false → Completes (.ancPacketReceive n x) s fun t =>
        t.get (pgSdirx n) 0 F.sdirxAncCntCsErr = (s.get (pgSdirx n) 0 F.sdirxAncCntCsErr + 1) % 2 ^ 16 ∧
        OnlyFields s t (Names (pgSdirx n) 0 F.sdirxAncCntCsErr) ∧ SameMemory s t) ∧
      (x.sumOk = true → (∀ c < 16, s.ancMatches (pgSdirx n) c x = false) →
        Completes (.ancPacketReceive n x) s fun t =>
          t.get (pgSdirx n) 0 F.sdirxAncCntUnmatched = (s.get (pgSdirx n) 0 F.sdirxAncCntUnmatched + 1) % 2 ^ 16 ∧
          OnlyFields s t (Names (pgSdirx n) 0 F.sdirxAncCntUnmatched) ∧ SameMemory s t)) ∧
    (s.stat (pgSditx n) 19 = true → Completes (.regapDone n) s fun t => t.stat (pgSditx n) 19 = false ∧
      t.intSet (pgSditx n) 16 ∧ SameMemory s t))

/-- Links of an IP port, frames on them and commits of its slots (R128, R129, R133). -/
def Obligations.IpPortsComplete : Prop :=
  ∀ (p : Fin 8) (s : State),
    (∀ lane : Fin 4, s.running (pgIpp p) = true → laneAligning ≤ s.laneState (pgIpp p) lane →
      s.laneState (pgIpp p) lane ≤ laneUp →
      Completes (.ipLaneLoss p lane) s fun t => t.laneState (pgIpp p) lane = laneDown ∧
        t.linkUp p (s.linkOfLane p lane) = false ∧ t.intSet (pgIpp p) 25 ∧ SameMemory s t) ∧
    (∀ link : Fin 4, s.running (pgIpp p) = true → link.val < s.linkCount p → s.linkUp p link = false →
      (∀ n ∈ s.linkLanes p link, s.laneState (pgIpp p) n = laneDown ∨ s.laneState (pgIpp p) n = laneAligning ∨
        s.laneState (pgIpp p) n = laneUp) → (∀ n ∈ s.linkLanes p link, s.ipLaneStale (pgIpp p) n = false) →
      Completes (.ipLinkUp p link) s fun t => t.linkUp p link = true ∧ t.intSet (pgIpp p) 16 ∧ SameMemory s t) ∧
    (∀ (link : Fin 4) (f : EthFrame), s.running (pgIpp p) = true → s.linkUp p link = true → frameOk f.bytes = false →
      Completes (.ipFrameReceive p link f) s fun t =>
        t.get (pgIpp p) link F.ippLinkCntBadFrame = (s.get (pgIpp p) link F.ippLinkCntBadFrame + 1) % 2 ^ 16 ∧
        t.get (pgIpp p) link F.ippLinkCntFecUe = (s.get (pgIpp p) link F.ippLinkCntFecUe + f.fecUe) % 2 ^ 16 ∧
        SameMemory s t) ∧
    (∀ m : Fin 8, s.accepts m (pgIpp p) 0x2B0 = true → s.slotOn p (s.strmSelected p) = true →
      s.strmSelected p / 64 = 1 → s.commitPending (pgIpp p) (unitStrm (s.strmSelected p)) = false →
      Completes (.strmCommit m p) s fun t => t.commitPending (pgIpp p) (unitStrm (s.strmSelected p)) = true ∧
        SameMemory s t) ∧
    (∀ m : Fin 8, s.accepts m (pgIpp p) 0x2B0 = true → s.commitPending (pgIpp p) (unitStrm (s.strmSelected p)) = true →
      (s.unit (pgIpp p) (unitStrm (s.strmSelected p))).captured = false →
      (s.unit (pgIpp p) (unitStrm (s.strmSelected p))).next = none →
      Completes (.strmCommitCancel m p false) s fun t =>
        t.commitPending (pgIpp p) (unitStrm (s.strmSelected p)) = false ∧
        (t.ipSlot p (s.strmSelected p)).target = none ∧ SameMemory s t)

/-- What the slots of an IP port receive and send (R135 to R137, R152). -/
def Obligations.IpSlotsComplete : Prop :=
  ∀ (p : Fin 8) (slot : Fin 64) (s : State),
    (∀ (e : RelPiece) (f : Nat), s.slotOn p (strmCell 0 slot) = true → s.slotFlow p (strmCell 0 slot) = some f →
      (s.ipSlot p (strmCell 0 slot)).buffer = [e] → e.dueNs ≤ s.now →
      Completes (.ipLineRelease p slot) s fun t => (t.ipSlot p (strmCell 0 slot)).buffer = [] ∧ SameMemory s t) ∧
    (s.receiving p (strmCell 0 slot) = true →
      s.streamSilence p (strmCell 0 slot) ≤ s.now - (s.ipSlot p (strmCell 0 slot)).lastNs →
      s.commitPending (pgIpp p) (unitStrm (strmCell 0 slot)) = false →
      Completes (.ipStreamLoss p slot) s fun t => t.receiving p (strmCell 0 slot) = false ∧
        (t.ipSlot p (strmCell 0 slot)).buffer = [] ∧ (t.ipSlot p (strmCell 0 slot)).waiting = true ∧ SameMemory s t) ∧
    (s.flag (pgIpp p) (strmCell 0 slot) F.ippStrmStatusPath1Up = true →
      1000000 ≤ s.now - (s.ipSlot p (strmCell 0 slot)).last1 →
      Completes (.ipPathLoss p slot false) s fun t => t.get (pgIpp p) (strmCell 0 slot) F.ippStrmStatusPath1Up = 0 ∧
        t.intSet (pgIpp p) 17 ∧ SameMemory s t) ∧
    (s.flag (pgIpp p) (strmCell 0 slot) F.ippStrmStatusPath2Up = true →
      1000000 ≤ s.now - (s.ipSlot p (strmCell 0 slot)).last2 →
      Completes (.ipPathLoss p slot true) s fun t => t.get (pgIpp p) (strmCell 0 slot) F.ippStrmStatusPath2Up = 0 ∧
        t.intSet (pgIpp p) 17 ∧ SameMemory s t) ∧
    (∀ (x : IpPacket) (f : Nat), s.slotOn p (strmCell 1 slot) = true → s.slotFlow p (strmCell 1 slot) = some f →
      s.slotAudio p (strmCell 1 slot) = false → s.essence p (strmCell 1 slot) ≠ 3 →
      (s.packetFrame p (strmCell 1 slot) x.parts).isSome = true →
      s.partsOk p (strmCell 1 slot) f (s.raster (pgIpp p) (s.get (pgIpp p) (strmCell 1 slot) F.ippStrmCfgRaster)).struct
        x.parts = true → s.onSchedule p (strmCell 1 slot) f x.parts = true →
      Completes (.ipPacketSend p slot x) s fun t =>
        (t.ipSlot p (strmCell 1 slot)).seq = ((s.ipSlot p (strmCell 1 slot)).seq + 1) % 2 ^ 32 ∧ SameMemory s t) ∧
    (∀ (x : IpPacket) (f : Nat) (r : Raster), s.slotOn p (strmCell 1 slot) = true → s.slotFlow p (strmCell 1 slot) = some f →
      s.slotAudio p (strmCell 1 slot) = false → s.essence p (strmCell 1 slot) = 3 →
      r = s.raster (pgIpp p) (s.get (pgIpp p) (strmCell 1 slot) F.ippStrmCfgRaster) → r.running = true → r.waiting = false →
      r.line ≤ fmtLines r.struct → (s.sourceOf f).isSome = true →
      Completes (.ipPacketSend p slot x) s fun t =>
        (t.ipSlot p (strmCell 1 slot)).seq = ((s.ipSlot p (strmCell 1 slot)).seq + 1) % 2 ^ 32 ∧ SameMemory s t) ∧
    (∀ (x : IpPacket) (f n k : Nat) (a : AudRun), s.slotOn p (strmCell 1 slot) = true →
      s.slotFlow p (strmCell 1 slot) = some f → s.slotAudio p (strmCell 1 slot) = true →
      s.commitPending (pgIpp p) (unitStrm (strmCell 1 slot)) = false → s.audRun f = some a →
      n = packetSamples (srateHz (s.flowSrate f)) (s.flag (pgIpp p) (strmCell 1 slot) F.ippStrmCfgPtime) →
      k = (s.tb (s.get pgFlow f F.flowwinCtx0Tb)).mediaCount s.now (srateHz (s.flowSrate f)) + 1 → n ≤ k →
      (s.ipSlot p (strmCell 1 slot)).nextSample ≠ (k / n - 1) * n + n →
      Completes (.ipPacketSend p slot x) s fun t =>
        (t.ipSlot p (strmCell 1 slot)).seq = ((s.ipSlot p (strmCell 1 slot)).seq + 1) % 2 ^ 32 ∧
        (t.ipSlot p (strmCell 1 slot)).nextSample = (k / n - 1) * n + n ∧ SameMemory s t)

/-- The PTP client of a link (R144, R145). -/
def Obligations.PtpCommandsComplete : Prop :=
  ∀ (p : Fin 8) (link : Fin 4) (s : State),
    (∀ x : PtpSync, s.ptpFrom p link x.clock x.port x.domain = true →
      Completes (.ptpSyncReceive p link x) s fun t => (t.ptpClient p link).sync.map (fun y => y.1) = some s.now ∧
        SameMemory s t) ∧
    (∀ d, s.linkUp p link = true → s.reqDue p link = true → s.ptpDomain p link = some d →
      Completes (.ptpDelayReqSend p link) s fun t =>
        (t.ptpClient p link).req = some ((s.ptpClient p link).seq, s.now) ∧ (t.ptpClient p link).reqNs = some s.now ∧
        (t.ptpClient p link).seq = ((s.ptpClient p link).seq + 1) % 2 ^ 16 ∧ SameMemory s t) ∧
    (∀ (x : PtpResp) (t3 : Nat), s.ptpFrom p link x.clock x.port x.domain = true →
      (s.ptpClient p link).req = some (x.seq, t3) → (s.ptpClient p link).sync.isSome = true →
      Completes (.ptpDelayRespReceive p link x) s fun t => (t.ptpClient p link).req = none ∧
        (t.ptpClient p link).delays.length = min ptpAveraged ((s.ptpClient p link).delays.length + 1) ∧
        OnlyFields s t (fun _ _ _ => False) ∧ SameMemory s t) ∧
    (∀ (m : Fin 8) (w : Word), s.accepts m (pgIpp p) 0x0A0 = true → s.get (pgIpp p) 0 F.ippLinkIndexLink = link.val →
      Completes (.ptpClientRestart m p 0x0A0 w) s fun t => (t.ptpClient p link).sync = none ∧
        (t.ptpClient p link).delays = [] ∧ (t.ptpClient p link).seq = (s.ptpClient p link).seq ∧ SameMemory s t)

/-- The host's frames through an IP port (R150, R151). -/
def Obligations.HostFramesComplete : Prop :=
  ∀ (m p : Fin 8) (s : State),
    (∀ (w v : Nat) (rest : List Nat) (more : List (List Nat)), s.controlReset = false → s.masterOpen m = true →
      Assoc.find Key.code (latchKey m (pgIpp p) F.ippRxqDataWord.off) s.latch = none →
      s.rxRecords p = (w :: v :: rest) :: more →
      Completes (.rxqDataRead m p) s fun t => t.answered m = some (.data w) ∧ t.rxRecords p = (v :: rest) :: more ∧
        OnlyFields s t (fun _ _ _ => False) ∧ SameMemory s t) ∧
    (∀ w : Word, s.accepts m (pgIpp p) 0x308 = true → Completes (.txqDataWrite m p w) s fun t =>
      Tab.at [] t.txBuild p = Tab.at [] s.txBuild p ++ [w.toNat] ∧ OnlyFields s t (fun _ _ _ => False) ∧ SameMemory s t) ∧
    (∀ (w : Nat) (l : List Nat), s.accepts m (pgIpp p) 0x30C = true → Tab.at [] s.txBuild p = w :: l →
      60 ≤ w % 2 ^ 16 → w % 2 ^ 16 ≤ 1518 → w % 2 ^ 16 ≤ 4 * l.length → w / 2 ^ 30 < s.linkCount p →
      Tab.at [] s.txq p = [] → 4 * (l.length + 1) ≤ txqBytes → s.linkUp p (w / 2 ^ 30) = false →
      Completes (.txqPush m p) s fun t => Tab.at [] t.txBuild p = [] ∧
        (Tab.at [] t.txq p).map (fun r => (r.link, r.bytes.length)) = [(w / 2 ^ 30, w % 2 ^ 16)] ∧
        OnlyFields s t (fun _ _ _ => False) ∧ SameMemory s t) ∧
    (∀ (w : Nat) (l : List Nat), s.accepts m (pgIpp p) 0x30C = true → Tab.at [] s.txBuild p = w :: l →
      60 ≤ w % 2 ^ 16 → w % 2 ^ 16 ≤ 1518 → w % 2 ^ 16 ≤ 4 * l.length → w / 2 ^ 30 < s.linkCount p →
      Tab.at [] s.txq p = [] → 4 * (l.length + 1) ≤ txqBytes → s.linkUp p (w / 2 ^ 30) = true →
      s.hasRoom p { link := w / 2 ^ 30, tsReq := bit w 29, tag := bits w 16 12
                    bytes := (l.flatMap (leBytes 4)).take (w % 2 ^ 16) } = true →
      Completes (.txqPush m p) s fun t => Tab.at [] t.txBuild p = [] ∧ Tab.at [] t.txq p = [] ∧ SameMemory s t)

/-- A conversion slice starts, becomes ready, stops, and resets a cell (R173 to R175, R178). -/
def Obligations.SliceControlCompletes : Prop :=
  ∀ (n : Fin 16) (s : State),
    (∀ (m : Fin 8) (w : Word), s.accepts m (pgCnv n) 0x080 = true → s.flag (pgCnv n) 0 F.cnvCtrlEn = false →
      s.running (pgCnv n) = false → s.acts (pgCnv n) = true → s.powerSought (pgCnv n) .slice false = false →
      s.powerQueue.length < powerQueueSize → 3200 ≤ s.get pgPau 0 F.pauBudgetMw →
      Completes (.cnvStart m n w) s fun t => t.get (pgCnv n) 0 F.cnvCtrlEn = 1 ∧ t.asks (pgCnv n) .slice = true ∧
        t.get (pgCnv n) 0 F.hdrReady = 0 ∧ t.get (pgCnv n) 0 F.hdrReadyCause = causeWaitPower ∧ SameMemory s t) ∧
    (s.holds (pgCnv n) .slice = true → s.flag (pgCnv n) 0 F.cnvCtrlEn = true → s.running (pgCnv n) = false →
      Completes (.cnvPipelineReady n) s fun t => t.running (pgCnv n) = true ∧ t.get (pgCnv n) 0 F.hdrReady = 1 ∧
        SameMemory s t) ∧
    (∀ (m : Fin 8) (w : Word), s.accepts m (pgCnv n) 0x080 = true → s.flag (pgCnv n) 0 F.cnvCtrlEn = true →
      s.running (pgCnv n) = true → (∀ c ∈ [0, 1, 2, 3], s.flag (pgCnv n) c F.cnvCellStatusProducing = false) →
      s.commitPending (pgCnv n) 0 = false →
      Completes (.cnvStop m n w) s fun t => t.get (pgCnv n) 0 F.cnvCtrlEn = 0 ∧ t.running (pgCnv n) = false ∧
        t.holds (pgCnv n) .slice = false ∧ SameMemory s t) ∧
    (∀ (m : Fin 8) (w : Word), s.accepts m (pgCnv n) 0x080 = true → s.flag (pgCnv n) 0 F.cnvCtrlEn = true →
      s.running (pgCnv n) = true → (∃ c ∈ [0, 1, 2, 3], s.flag (pgCnv n) c F.cnvCellStatusProducing = true) →
      Completes (.cnvStop m n w) s fun t => t.get (pgCnv n) 0 F.cnvCtrlEn = 0 ∧ t.running (pgCnv n) = true ∧ SameMemory s t) ∧
    (∀ m : Fin 8, s.accepts m (pgCnv n) 0x0C0 = true → s.cnvQuad n = true →
      s.get (pgCnv n) (s.get (pgCnv n) 0 F.cnvCellIndexCell) F.cnvCellCtrlEn ≤ 1 →
      s.getLast (pgCnv n) (s.get (pgCnv n) 0 F.cnvCellIndexCell) F.cnvCellCtrlAudEn ≤ 1 →
      Completes (.cnvCellReset m n) s fun t =>
        (n.val, s.get (pgCnv n) 0 F.cnvCellIndexCell) ∉ t.cnvFaulted ∧
        t.get (pgCnv n) (s.get (pgCnv n) 0 F.cnvCellIndexCell) F.cnvCellStatusProducing = 0 ∧ SameMemory s t)

/-- A cell of a slice produces its output frame, and a load of a look-up table (R155, R166, R172). -/
def Obligations.SliceOutputCompletes : Prop :=
  ∀ (n : Fin 16) (s : State),
    (∀ (cell : Fin 4) (x : CnvFrame) (src : Nat) (st : FrameStore) (ch : CnvChoice),
      s.running (pgCnv n) = true → s.flag (pgCnv n) 0 F.cnvCtrlEn = true → s.cnvWorks n cell = true →
      src = s.cnvGet n cell F.cnvSrcFlow → s.isIngress src = true → (s.run src).store = some st →
      s.cnvFollow n = true ∨ s.cnvGet n cell F.cnvFrcMode ≠ 0 ∨ s.get pgFlow src F.flowwinCtx1Rate = s.cnvRate n src →
      cropFits (s.cnvGet n cell) (s.get pgFlow src F.flowwinCtx1Struct) = true →
      s.cnvRefusal n (fun k => s.cnvGet n k) = none → s.cnvLost src st = false → (s.cnvCell n cell).job = none →
      (s.cnvCadence n cell src x).cnvChosen n cell src st = some ch →
      Completes (.cnvOutputFrame n cell x) s fun t => t.get (pgCnv n) cell F.cnvCellStatusProducing = 1 ∧
        ((s.cnvCell n cell).second = false →
          t.get (pgCnv n) cell F.cnvSrcTagHiPhase = ch.phase % F.cnvSrcTagHiPhase.modulus ∧
          t.frame48 (pgCnv n) cell F.cnvSrcTagLoFrameLo F.cnvSrcTagHiFrameHi = ch.a.frame % 2 ^ 48) ∧
        t.get (pgCnv n) cell F.cnvCellStatusFsMissing = 0 ∧ SameMemory s t) ∧
    (∀ (m : Fin 8) (w : Word), s.accepts m (pgCnv n) 0x08C = true → bits w.toNat 28 2 ≠ 3 →
      Assoc.find id n.val s.lutLoads = none →
      Completes (.lutLoad m n w) s fun t => t.get (pgCnv n) 0 F.cnvLutStatusBusy = 1 ∧
        (Assoc.find id n.val t.lutLoads).map (fun x => (x.cell, x.sel)) =
          some (s.get (pgCnv n) 0 F.cnvCellIndexCell, bits w.toNat 28 2) ∧
        OnlyFields s t (Names (pgCnv n) 0 F.cnvLutStatusBusy) ∧ SameMemory s t) ∧
    (∀ x : LutLoad, Assoc.find id n.val s.lutLoads = some x → s.running (pgCnv n) = true →
      Completes (.lutLoadDone n) s fun t => t.get (pgCnv n) 0 F.cnvLutStatusBusy = 0 ∧
        t.get (pgCnv n) 0 F.cnvLutStatusCode = (if x.bytes.isSome then 0 else 1) ∧
        Assoc.find id n.val t.lutLoads = none ∧ t.intSet (pgCnv n) 19 ∧ SameMemory s t)

/-- Checks along the datapath (R317, R318): each failure is recorded against its engine and acts on what failed. -/
def Obligations.DatapathFaultsComplete : Prop :=
  (∀ (f : Fin 4096) (s : State), s.flag pgFlt 0 F.fltCoverSeals = true → s.flag pgFlow f F.flowwinCtx6SealEn = true →
    Completes (.datapathCheckFail (.flowSeal f)) s fun t => t.get pgFlow f F.flowwinCtx6SealErr = 1 ∧
      t.logged fltDatapath pgFlow ∧ SameMemory s t) ∧
  (∀ (n : Fin 16) (c : Fin 4) (s : State), Completes (.datapathCheckFail (.cnvCell n c)) s fun t =>
    (n.val, c.val) ∈ t.cnvFaulted ∧
      t.get (pgCnv n) (if s.cnvQuad n then c.val else 0) F.cnvCellStatusProducing = 0 ∧ t.logged fltDatapath (pgCnv n) ∧
      SameMemory s t) ∧
  (∀ (n : Fin 16) (c : Fin 8) (s : State), Completes (.datapathCheckFail (.cpoCell n c)) s fun t =>
    t.get (pgCpo n) c F.cpoLStatusFaulted = 1 ∧ t.logged fltDatapath (pgCpo n) ∧ SameMemory s t) ∧
  (∀ (b : Fin 24) (s : State), Completes (.datapathCheckFail (.ashBank b)) s fun t =>
    b.val ∈ t.ashFaulted ∧ t.get pgAsh 0 F.hdrReadyDegraded = 1 ∧ t.logged fltDatapath pgAsh ∧ SameMemory s t)

/-- A compositor starts and stops, and its layers' commits (R189, R208). -/
def Obligations.CompositorControlCompletes : Prop :=
  ∀ (m : Fin 8) (n : Fin 16) (s : State),
    (∀ w : Word, s.accepts m (pgCpo n) 0x080 = true → s.flag (pgCpo n) 0 F.cpoCtrlEn = false →
      s.running (pgCpo n) = false → s.acts (pgCpo n) = true → s.powerSought (pgCpo n) .compositor false = false →
      s.powerQueue.length < powerQueueSize → 1800 ≤ s.get pgPau 0 F.pauBudgetMw →
      Completes (.cpoStart m n w) s fun t => t.get (pgCpo n) 0 F.cpoCtrlEn = 1 ∧ t.asks (pgCpo n) .compositor = true ∧
        t.get (pgCpo n) 0 F.hdrReady = 0 ∧ t.get (pgCpo n) 0 F.hdrReadyCause = causeWaitPower ∧ SameMemory s t) ∧
    (∀ w : Word, s.accepts m (pgCpo n) 0x080 = true → s.flag (pgCpo n) 0 F.cpoCtrlEn = true →
      s.running (pgCpo n) = true → (s.raster (pgCpo n) 0).waiting = false →
      Completes (.cpoStop m n w) s fun t => t.get (pgCpo n) 0 F.cpoCtrlEn = 0 ∧ t.running (pgCpo n) = true ∧
        SameMemory s t) ∧
    (∀ w : Word, s.accepts m (pgCpo n) 0x080 = true → s.flag (pgCpo n) 0 F.cpoCtrlEn = true →
      s.running (pgCpo n) = true → (s.raster (pgCpo n) 0).waiting = true → (s.bezCell n).waiting = [] →
      (∀ u, u < 8 → s.commitPending (pgCpo n) u = false) →
      Completes (.cpoStop m n w) s fun t => t.get (pgCpo n) 0 F.cpoCtrlEn = 0 ∧ t.running (pgCpo n) = false ∧
        t.holds (pgCpo n) .compositor = false ∧ SameMemory s t) ∧
    (∀ w : Word, s.accepts m (pgCpo n) 0x080 = true → s.flag (pgCpo n) 0 F.cpoCtrlEn = true →
      s.running (pgCpo n) = false →
      Completes (.cpoStop m n w) s fun t => t.get (pgCpo n) 0 F.cpoCtrlEn = 0 ∧ t.holds (pgCpo n) .compositor = false ∧
        t.asks (pgCpo n) .compositor = false ∧ SameMemory s t) ∧
    (s.accepts m (pgCpo n) 0x234 = true → s.get (pgCpo n) 0 F.cpoCellIndexCell < 7 → s.running (pgCpo n) = true →
      s.commitPending (pgCpo n) (s.get (pgCpo n) 0 F.cpoCellIndexCell + 1) = false →
      Completes (.layerCommit m n false) s fun t =>
        t.commitPending (pgCpo n) (s.get (pgCpo n) 0 F.cpoCellIndexCell + 1) = true ∧ SameMemory s t) ∧
    (s.accepts m (pgCpo n) 0x234 = true → s.get (pgCpo n) 0 F.cpoCellIndexCell < 7 → s.running (pgCpo n) = false →
      (s.unstage (pgCpo n) (s.get (pgCpo n) 0 F.cpoCellIndexCell + 1)).cpoLayerRefusal n
        (s.get (pgCpo n) 0 F.cpoCellIndexCell) = none →
      Completes (.layerCommit m n false) s fun t =>
        t.commitPending (pgCpo n) (s.get (pgCpo n) 0 F.cpoCellIndexCell + 1) = false ∧
        t.intSet (pgCpo n) intCommitDone ∧ SameMemory s t) ∧
    (∀ atFrame, s.accepts m (pgCpo n) 0x234 = true → s.get (pgCpo n) 0 F.cpoCellIndexCell < 7 →
      s.commitPending (pgCpo n) (s.get (pgCpo n) 0 F.cpoCellIndexCell + 1) = true →
      (s.unit (pgCpo n) (s.get (pgCpo n) 0 F.cpoCellIndexCell + 1)).captured = false →
      (s.unit (pgCpo n) (s.get (pgCpo n) 0 F.cpoCellIndexCell + 1)).next = none →
      Completes (.layerCommitCancel m n false atFrame) s fun t =>
        t.commitPending (pgCpo n) (s.get (pgCpo n) 0 F.cpoCellIndexCell + 1) = false ∧ SameMemory s t) ∧
    ((s.raster (pgCpo n) 0).running = true → (s.raster (pgCpo n) 0).waiting = false →
      Completes (.cpoCommitPoint n) s fun t => (∀ u, u < 8 → (t.unit (pgCpo n) u).frozen = false) ∧ SameMemory s t)

/-- Bezel messages (R198 to R206). -/
def Obligations.BezelCommandsComplete : Prop :=
  (∀ (m : Fin 8) (w : Word) (s : State), s.accepts m pgBez 0x0C0 = true →
    s.bezState (s.get pgBez 0 F.bezCellIndexCell) = bezUnbound → s.decryptSlot (bits w.toNat 0 7) = true →
    Completes (.bezelBind m w) s fun t => t.get pgBez (s.get pgBez 0 F.bezCellIndexCell) F.bezCellKeyBind = 1 ∧
      t.get pgBez (s.get pgBez 0 F.bezCellIndexCell) F.bezCellKeySlot = bits w.toNat 0 7 ∧
      t.bezState (s.get pgBez 0 F.bezCellIndexCell) = bezBound ∧ SameMemory s t) ∧
  (∀ (m : Fin 8) (s : State), s.accepts m pgBez 0x0D0 = true →
    (s.bezCell (s.get pgBez 0 F.bezCellIndexCell)).op = none →
    (s.bezCell (s.get pgBez 0 F.bezCellIndexCell)).waiting = [] →
    s.bezState (s.get pgBez 0 F.bezCellIndexCell) ≠ bezUnbound → s.bezState (s.get pgBez 0 F.bezCellIndexCell) ≠ bezKeyLost →
    Completes (.bezelMsgGo m) s fun t => (t.bezCell (s.get pgBez 0 F.bezCellIndexCell)).op.isSome = true ∧
      t.get pgBez (s.get pgBez 0 F.bezCellIndexCell) F.bezCellStatusBusy = 1 ∧
      OnlyFields s t (Names pgBez (s.get pgBez 0 F.bezCellIndexCell) F.bezCellStatusBusy) ∧ SameMemory s t) ∧
  (∀ (cell : Fin 16) (o : BezOp) (s : State), (s.bezCell cell).op = some o → s.bezPaired = false →
    (∀ code, (((s.putBez cell { s.bezCell cell with op := none }).put pgBez cell F.bezCellStatusBusy 0).bezVerdict cell o) =
        .inl code →
      Completes (.bezelVerifyDone cell) s fun t => t.get pgBez cell F.bezResultCode = code % F.bezResultCode.modulus ∧
        t.get pgBez cell F.bezCntRefused = (s.get pgBez cell F.bezCntRefused + 1) % 2 ^ 16 ∧
        (t.bezCell cell).op = none ∧ t.intSet pgBez 16 ∧ SameMemory s t) ∧
    (∀ kind alive b, (((s.putBez cell { s.bezCell cell with op := none }).put pgBez cell F.bezCellStatusBusy 0).bezVerdict cell
        o) = .inr (kind, alive, b) →
      Completes (.bezelVerifyDone cell) s fun t => t.get pgBez cell F.bezResultCode = bezOk ∧
        t.get pgBez cell F.bezLastAliveLoAlive = alive % 2 ^ 32 ∧
        t.get pgBez cell F.bezCntAccepted = (s.get pgBez cell F.bezCntAccepted + 1) % 2 ^ 16 ∧ SameMemory s t))

/-- Rasters (R210 to R229): commits, their capture, the frame that begins, its lines, its length and its end. -/
def Obligations.RasterCommandsComplete : Prop :=
  (∀ (m p : Fin 8) (s : State), s.accepts m (pgIpp p) 0x118 = true →
    (s.running (pgIpp p) = true → s.commitPending (pgIpp p) (s.get (pgIpp p) 0 F.ippRstIndexRaster + 1) = false →
      Completes (.rasterCommit m p false) s fun t =>
        t.commitPending (pgIpp p) (s.get (pgIpp p) 0 F.ippRstIndexRaster + 1) = true ∧ SameMemory s t) ∧
    (s.running (pgIpp p) = false →
      (s.unstage (pgIpp p) (s.get (pgIpp p) 0 F.ippRstIndexRaster + 1)).rasterRefused (pgIpp p)
        (s.get (pgIpp p) 0 F.ippRstIndexRaster) = false → Completes (.rasterCommit m p false) s fun t =>
        t.commitPending (pgIpp p) (s.get (pgIpp p) 0 F.ippRstIndexRaster + 1) = false ∧
        t.intSet (pgIpp p) intCommitDone ∧ SameMemory s t) ∧
    (∀ atFrame, s.commitPending (pgIpp p) (s.get (pgIpp p) 0 F.ippRstIndexRaster + 1) = true →
      (s.unit (pgIpp p) (s.get (pgIpp p) 0 F.ippRstIndexRaster + 1)).captured = false →
      (s.unit (pgIpp p) (s.get (pgIpp p) 0 F.ippRstIndexRaster + 1)).next = none →
      s.get (pgIpp p) 0 F.ippRstIndexRaster < 16 →
      Completes (.rasterCommitCancel m p false atFrame) s fun t =>
        t.commitPending (pgIpp p) (s.get (pgIpp p) 0 F.ippRstIndexRaster + 1) = false ∧ SameMemory s t)) ∧
  (∀ (k : Fin 8) (c : Fin 16) (s : State), s.rasterActs (.ipp k c) = true → (s.raster (pgIpp k) c).waiting = false →
    s.commitPending (pgIpp k) (c + 1) = true → (s.unit (pgIpp k) (c + 1)).frame = none →
    Completes (.rasterCapture (.ipp k c)) s fun t => (t.unit (pgIpp k) (c + 1)).captured = true ∧
      (t.unit (pgIpp k) (c + 1)).frozen = true ∧ SameMemory s t) ∧
  (∀ (n : Fin 16) (s : State), s.rasterActs (.cpo n) = true → (s.raster (pgCpo n) 0).mode ≠ modeFree →
    (s.raster (pgCpo n) 0).waiting = false →
    Completes (.rasterCommitPoint (.cpo n)) s fun t =>
      (t.raster (pgCpo n) 0).frame = s.rasterNumber (pgCpo n) 0 s.now false ∧ (t.raster (pgCpo n) 0).startNs = s.now ∧
      (t.raster (pgCpo n) 0).line = 0 ∧
      t.frame48 (pgCpo n) 0 F.rstFrameLo F.rstFrameHi = s.rasterNumber (pgCpo n) 0 s.now false % 2 ^ 48 ∧ SameMemory s t) ∧
  (∀ (r : RasterId) (s : State), s.rasterActs r = true → (s.raster (rasterAt r).1 (rasterAt r).2).mode ≠ modeFree →
    (s.raster (rasterAt r).1 (rasterAt r).2).waiting = false → (∀ p u, (s.unit p u).captured = false) →
    Completes (.rasterCommitPoint r) s fun t =>
      (t.raster (rasterAt r).1 (rasterAt r).2).frame = s.rasterNumber (rasterAt r).1 (rasterAt r).2 s.now false ∧
      (t.raster (rasterAt r).1 (rasterAt r).2).startNs = s.now ∧ (t.raster (rasterAt r).1 (rasterAt r).2).line = 0 ∧
      SameMemory s t) ∧
  (∀ (r : RasterId) (x : LineInput) (s : State), s.rasterActs r = true →
    (s.raster (rasterAt r).1 (rasterAt r).2).waiting = false →
    Completes (.rasterLineStart r x) s fun t => (t.raster (rasterAt r).1 (rasterAt r).2).line = x.line ∧ SameMemory s t) ∧
  (∀ (r : RasterId) (s : State), s.rasterActs r = true → (s.raster (rasterAt r).1 (rasterAt r).2).waiting = false →
    (s.raster (rasterAt r).1 (rasterAt r).2).mode = modeFree →
    Completes (.rasterLastActiveLine r) s fun t =>
      t.raster (rasterAt r).1 (rasterAt r).2 = (s.raster (rasterAt r).1 (rasterAt r).2).setLength 0 ∧
      t.get (rasterAt r).1 (rasterAt r).2 F.rstStatusSlewing = 0 ∧
      OnlyFields s t (Names (rasterAt r).1 (rasterAt r).2 F.rstStatusSlewing) ∧ SameMemory s t) ∧
  (∀ (n : Fin 16) (s : State), s.rasterActs (.cpo n) = true → (s.raster (pgCpo n) 0).waiting = false →
    (s.raster (pgCpo n) 0).mode = modeContent →
    fmtHeight (s.raster (pgCpo n) 0).struct + s.get (pgCpo n) 0 F.rstVbVbMin ≤ (s.raster (pgCpo n) 0).line →
    s.decided (pgCpo n) 0x200 = none → s.requiredReady n = true →
    Completes (.contentReadyLineTest (.cpo n)) s fun t =>
      (t.raster (pgCpo n) 0).lines = (s.raster (pgCpo n) 0).line ∧ SameMemory s t) ∧
  (∀ (k : Fin 8) (c : Fin 16) (s : State), s.rasterActs (.ipp k c) = true → (s.raster (pgIpp k) c).waiting = false →
    Completes (.rasterFrameEnd (.ipp k c)) s fun t => t.get (pgIpp k) c F.rstSigCrc =
        (s.raster (pgIpp k) c).sig % 2 ^ 32 ∧ (t.raster (pgIpp k) c).gap = false ∧ (t.raster (pgIpp k) c).black = false ∧
      SameMemory s t) ∧
  (∀ (r : RasterId) (s : State), s.rasterActs r = true → (s.raster (rasterAt r).1 (rasterAt r).2).waiting = true →
    Completes (.formatStart r) s fun t => (t.raster (rasterAt r).1 (rasterAt r).2).waiting = false ∧
      (t.raster (rasterAt r).1 (rasterAt r).2).startNs = s.now ∧
      (t.raster (rasterAt r).1 (rasterAt r).2).frame = s.rasterNumber (rasterAt r).1 (rasterAt r).2 s.now true ∧
      SameMemory s t)

/-- Audio routes and route sets (R234 to R237, R242, R243, R248): a write of ROUTE is what the output channel then holds, a ramp
ends, a set is loaded and deleted, a converter locks, a gate stops waiting for a crossing. -/
def Obligations.AudioRoutesComplete : Prop :=
  (∀ (m : Fin 8) (w : Word) (out : Nat) (s : State), s.accepts m pgAsh 0x094 = true → out = s.get pgAsh 0 F.ashRouteIndexOut →
    F.ashRouteRamp.legal.ok (bits w.toNat 24 6) = true → F.ashRouteSource.legal.ok (bits w.toNat 0 13) = true →
    s.samePeriod out (s.routeRun out).eventNs s.now = false →
    Completes (.routeWrite m w) s fun t => t.get pgAsh out F.ashRouteEn = bits w.toNat 31 1 ∧
      t.get pgAsh out F.ashRouteAsrc = bits w.toNat 30 1 ∧ t.get pgAsh out F.ashRouteRamp = bits w.toNat 24 6 ∧
      t.get pgAsh out F.ashRouteGain = bits w.toNat 16 8 ∧ t.get pgAsh out F.ashRouteSource = bits w.toNat 0 13 ∧
      SameMemory s t) ∧
  (∀ (out : Fin 6144) (s : State), (s.routeRun out).ramping = true → (s.routeRun out).held = false →
    Completes (.routeRampDone out) s fun t => t.routeRun out = { s.routeRun out with ramping := false } ∧
      OnlyFields s t (fun _ _ _ => False) ∧ SameMemory s t) ∧
  (∀ (m : Fin 8) (s : State), s.accepts m pgAsh 0x0B0 = true → s.acts pgAsh = true → s.setOp = none →
    s.setBusy (s.get pgAsh 0 F.ashRsIndexSet) = false →
    (1 ≤ s.get pgAsh 0 F.ashRsCountCount → s.get pgAsh 0 F.ashRsCountCount ≤ 6144 →
      s.get pgAsh 0 F.ashRsCountCount ≤ s.routeFree →
      Completes (.routeSetLoad m) s fun t => t.setOp.map SetLoadOp.set = some (s.get pgAsh 0 F.ashRsIndexSet) ∧
        t.get pgAsh 0 F.ashRsResultBusy = 1 ∧ OnlyFields s t (Names pgAsh 0 F.ashRsResultBusy) ∧ SameMemory s t) ∧
    Completes (.routeSetDelete m) s (fun t => t.routeSet (s.get pgAsh 0 F.ashRsIndexSet) = [] ∧
      t.get pgAsh 0 F.ashRsResultCode = 0 ∧ t.intSet pgAsh 16 ∧ SameMemory s t)) ∧
  (∀ (v : Nat) (es : List RouteEntry) (s : State), s.setOp = some ⟨v, some es⟩ →
    Completes .routeSetLoadDone s fun t => t.routeSet v = es ∧ t.setOp = none ∧ t.get pgAsh 0 F.ashRsResultBusy = 0 ∧
      t.get pgAsh 0 F.ashRsResultCode = 0 ∧ t.intSet pgAsh 16 ∧ SameMemory s t) ∧
  (∀ (unit : Fin 4) (ch : Fin 128) (s : State), s.flag (pgAsrc unit) ch F.asrcChStatusBound = true →
    Completes (.asrcLock unit ch) s fun t => t.get (pgAsrc unit) ch F.asrcChStatusLocked = 1 ∧ SameMemory s t ∧
      OnlyFields s t (fun p c f => Names (pgAsrc unit) ch F.asrcChStatusLocked p c f ∨
        Names (pgAsrc unit) ch F.asrcChRatioRatio p c f)) ∧
  (∀ (page : Fin 4096) (channel cell : Nat) (g : Gate) (s : State), s.gate ⟨page, channel, cell⟩ = some g →
    g.sinceNs + s.crossTimeout page ≤ s.now → Completes (.zeroCrossTimeout page channel cell) s fun t =>
      (g.state = .opening → t.gate ⟨page, channel, cell⟩ = some { g with state := .fadeIn, left := 64 }) ∧
      (g.state = .closing ∨ g.state = .leaving → t.gate ⟨page, channel, cell⟩ = some { g with state := .fadeOut, left := 64 }) ∧
      OnlyFields s t (fun _ _ _ => False) ∧ SameMemory s t)

/-- Serial audio ports (R251 to R253, R257, R259): enabled, stopped, their frames, the loss and the rate of their word clock,
the loop that holds a Hoop's level. -/
def Obligations.AudioPortsComplete : Prop :=
  ∀ (n : Fin 32) (s : State),
    (∀ (m : Fin 8) (w : Word), s.accepts m (pgAup n) 0x080 = true → s.flag (pgAup n) 0 F.aupCtrlEn = false →
      s.running (pgAup n) = false → s.acts (pgAup n) = true →
      Completes (.aupEnable m n w) s fun t => t.running (pgAup n) = true ∧ t.get (pgAup n) 0 F.aupCtrlEn = 1 ∧
        (t.aup n).state = (if t.get (pgAup n) 0 F.aupCtrlTrig = 0 then .starting else .armed) ∧ SameMemory s t) ∧
    (∀ (m : Fin 8) (w : Word), s.accepts m (pgAup n) 0x080 = true → s.flag (pgAup n) 0 F.aupCtrlEn = true →
      ((s.aup n).state = .running → Completes (.aupDisable m n w) s fun t => (t.aup n).state = .stopping ∧
        t.get (pgAup n) 0 F.aupCtrlEn = 0 ∧ SameMemory s t) ∧
      ((s.aup n).state = .armed → Completes (.aupDisable m n w) s fun t => (t.aup n).state = .stopped ∧
        t.running (pgAup n) = false ∧ t.intSet (pgAup n) 17 ∧ SameMemory s t)) ∧
    ((s.aup n).state = .stopping → s.flag (pgAup n) 0 F.aupCtrlEn = false → s.gateShut ⟨pgAup n, 0, 0⟩ = true →
      s.gateShut ⟨pgAup n, 1, 0⟩ = true → Completes (.aupStopped n) s fun t => (t.aup n).state = .stopped ∧ t.running (pgAup n) = false ∧
        t.intSet (pgAup n) 17 ∧ SameMemory s t) ∧
    (∀ x : AudioFrame,
      ((s.aup n).state = .starting → s.flag (pgAup n) 0 F.aupCtrlMaster = true → s.flag (pgAup n) 0 F.aupCtrlDir = false →
        s.leases = [] → Completes (.aupFrame n x) s fun t => (t.aup n).state = .running ∧ t.intSet (pgAup n) 16 ∧
          t.frame48 (pgAup n) 0 F.aupStartFrameLoFrame F.aupStartFrameHiFrame =
            (s.tb (s.get (pgAup n) 0 F.aupCtrlTb)).frame % 2 ^ 48) ∧
      ((s.aup n).state = .running → s.flag (pgAup n) 0 F.aupCtrlDir = true → s.flag (pgAup n) 0 F.aupCtrlSrc = true →
        s.hoopFill n = 0 → s.gate ⟨pgAup n, 0, 0⟩ = none → s.gate ⟨pgAup n, 1, 0⟩ = none → s.aupDue n = true →
        Completes (.aupFrame n x) s fun t => t.out.head? = some (.audio n [0, 0]) ∧ t.intSet (pgAup n) 19 ∧
          SameMemory s t)) ∧
    ((s.aup n).state = .running → s.flag (pgAup n) 0 F.aupCtrlMaster = false →
      ((s.aup n).edgeNs + 2 * (1000000000 / srateHz (s.get (pgAup n) 0 F.aupCtrlRate)) ≤ s.now →
        Completes (.aupWsLoss n) s (fun t => (t.aup n).state = .holdover ∧ t.intSet (pgAup n) 21 ∧ SameMemory s t)) ∧
      (∀ t0, (s.aup n).offSince = some t0 → t0 + mismatchNs ≤ s.now → Completes (.aupRateMismatch n) s fun t => (t.aup n).state = .mismatch ∧ t.intSet (pgAup n) 18 ∧ SameMemory s t)) ∧
    (∀ rate, s.running (pgAup n) = true → Completes (.aupRateMeasure n rate) s fun t =>
      t.get (pgAup n) 0 F.aupRateMeasRate = rate % F.aupRateMeasRate.modulus ∧
      t.get (pgAup n) 0 F.aupRateMeasClass = nearestRate rate % F.aupRateMeasClass.modulus ∧ SameMemory s t) ∧
    (s.flag (pgAup n) 0 F.aupCtrlNcoMode = true → s.flag (pgAup n) 0 F.aupCtrlDir = true →
      s.flag (pgAup n) 0 F.aupCtrlMaster = true → (s.aup n).state = .running →
      Completes (.aupLoopTick n) s fun t =>
        (s.aup n).ofs - s.get (pgAup n) 0 F.aupLoopSlewStep ≤ (t.aup n).ofs ∧
        (t.aup n).ofs ≤ (s.aup n).ofs + s.get (pgAup n) 0 F.aupLoopSlewStep ∧
        t.get (pgAup n) 0 F.aupNcoOfsOfs = saturate 32 (t.aup n).ofs % F.aupNcoOfsOfs.modulus ∧ SameMemory s t)

/-- Rennets start the ports armed for them and drive RENNET_OUT (R254); a Hoop's pointers move forward only (R256). -/
def Obligations.RennetsAndHoopsComplete : Prop :=
  (∀ (h : BitVec 16) (e : Event) (s : State), s.pendingEvent h.toNat = some e → e.kind = .rennet →
    Completes (.rennetEvent h) s fun t => t.rennetOut = true ∧ t.rennets = s.now :: s.rennets ∧
      t.pendingEvent h.toNat = none ∧ SameMemory s t ∧
      ∀ n : Fin 32, (s.aup n).state = .armed → s.get (pgAup n) 0 F.aupCtrlTrig = 1 →
        (s.get (pgAup n) 0 F.aupCtrlTb = e.tb → (t.aup n).state = .starting) ∧
        (s.get (pgAup n) 0 F.aupCtrlTb ≠ e.tb → (t.aup n).state = .armed)) ∧
  (∀ s : State, Completes .rennetPinEdge s fun t => t.rennetOut = true ∧ t.rennets = s.now :: s.rennets ∧ SameMemory s t ∧
    ∀ n : Fin 32, (s.aup n).state = .armed →
      (s.get (pgAup n) 0 F.aupCtrlTrig = 2 → (t.aup n).state = .starting) ∧
      (s.get (pgAup n) 0 F.aupCtrlTrig ≠ 2 → (t.aup n).state = .armed)) ∧
  (∀ s : State, s.rennetOut = true → (∀ r ∈ s.rennets, r + 1036 ≤ s.now) → Completes .rennetOutEnd s fun t =>
    t.rennetOut = false ∧ t.out = .pin "RENNET_OUT" false :: s.out ∧ OnlyFields s t (fun _ _ _ => False) ∧
    SameMemory s t) ∧
  (∀ (m : Fin 8) (n : Fin 32) (w : Word) (s : State), s.accepts m (pgAup n) 0x09C = true →
    s.flag (pgAup n) 0 F.aupCtrlDir = false → s.get (pgAup n) 0 F.aupHoopRdFrame < s.hoopSize n →
    F.aupHoopRdFrame.extract w.toNat < s.hoopSize n →
    (0 < (F.aupHoopRdFrame.extract w.toNat + s.hoopSize n - s.get (pgAup n) 0 F.aupHoopRdFrame) % s.hoopSize n →
      (F.aupHoopRdFrame.extract w.toNat + s.hoopSize n - s.get (pgAup n) 0 F.aupHoopRdFrame) % s.hoopSize n ≤ s.hoopFill n →
      Completes (.hoopPointerWrite m n true w) s fun t =>
        t.get (pgAup n) 0 F.aupHoopRdFrame = F.aupHoopRdFrame.extract w.toNat ∧ SameMemory s t ∧
        OnlyFields s t (Names (pgAup n) 0 F.aupHoopRdFrame)) ∧
    (s.hoopFill n < (F.aupHoopRdFrame.extract w.toNat + s.hoopSize n - s.get (pgAup n) 0 F.aupHoopRdFrame) % s.hoopSize n ∨
        F.aupHoopRdFrame.extract w.toNat = s.get (pgAup n) 0 F.aupHoopRdFrame →
      Completes (.hoopPointerWrite m n true w) s fun t => t.errSet (pgAup n) 17 ∧ SameMemory s t ∧
        OnlyFields s t (ErrorOf (pgAup n))))

/-- Lanes adapt and are scanned (R270 to R272). -/
def Obligations.LaneCommandsComplete : Prop :=
  (∀ (m : Fin 8) (page : Fin 4096) (l : Nat) (s : State), isGylos page = true → s.accepts m page 0x204 = true →
    l = s.get page 0 F.laneIndexLane → s.get page l F.laneCtrlTxInv ≤ 1 → s.get page l F.laneCtrlRxInv ≤ 1 →
    s.laneState page l = laneUp ∨ s.laneState page l = laneAligning → s.laneResumes page l = false →
    Completes (.laneAdapt m page) s fun t => t.laneState page l = laneWaitPower ∧ (t.gyl page l).rx.aligned = false ∧
      SameMemory s t) ∧
  (∀ (page : Fin 4096) (lane : Fin 4) (s : State), pageType page ≠ 0x040 → s.laneState page lane = laneAdapting →
    Completes (.laneAdaptDone page lane) s fun t => t.laneState page lane = laneAligning ∧
      t.holds page (.lane lane) = false ∧ SameMemory s t) ∧
  (∀ (m : Fin 8) (page : Fin 4096) (l : Nat) (s : State), laneCount page ≠ 0 → s.accepts m page 0x228 = true →
    l = s.get page 0 F.laneIndexLane →
    (pageType page ≠ 0x041 → signedOf 8 (s.get page l F.laneEyeRangePhLo) ≤ signedOf 8 (s.get page l F.laneEyeRangePhHi) →
      signedOf 8 (s.get page l F.laneEyeRangeVLo) ≤ signedOf 8 (s.get page l F.laneEyeRangeVHi) →
      s.get page l F.laneEyeStepPhStep ≠ 0 → s.get page l F.laneEyeStepVStep ≠ 0 →
      16 ≤ s.get page l F.laneEyeStepDwell → s.get page l F.laneEyeStepDwell ≤ 40 →
      (∀ n, n < 4 → s.flag page n F.laneEyeStatusBusy = false) → s.laneState page l = laneUp → 150 ≤ s.get pgPau 0 F.pauBudgetMw →
      s.powerQueue.length < powerQueueSize →
      Completes (.eyeScanStart m page) s fun t => t.get page l F.laneEyeStatusBusy = 1 ∧ t.asks page (.eye l) = true ∧
        SameMemory s t) ∧
    (s.flag page l F.laneEyeStatusBusy = true → Completes (.eyeScanAbort m page) s fun t =>
      t.get page l F.laneEyeStatusBusy = 0 ∧ t.get page l F.laneEyeStatusCode = 3 ∧ t.asks page (.eye l) = false ∧
      t.holds page (.eye l) = false ∧ t.intSet page 25 ∧ SameMemory s t)) ∧
  (∀ (page : Fin 4096) (lane : Fin 4) (e : EyeScan) (counts : List Nat) (s : State), Assoc.find id page.val s.eyes = some e →
    s.flag page lane F.laneEyeStatusBusy = true → s.holds page (.eye lane) = true →
    counts.length = e.phases.length * e.volts.length → s.eyePoints page lane = counts.length →
    Completes (.eyeScanDone page lane (.ok counts)) s fun t => t.get page lane F.laneEyeStatusBusy = 0 ∧
      t.get page lane F.laneEyeStatusCode = 0 ∧ t.holds page (.eye lane) = false ∧ t.intSet page 25 ∧ SameMemory s t)

/-- The Gylos line code (R262, R266, R268, R269): a lane sends, aligns, asks for a replay and answers one, and is lost. -/
def Obligations.GylosLanesComplete : Prop :=
  ∀ (page : Fin 4096) (lane : Fin 4) (s : State), isGylos page = true →
    (s.laneState page lane ≠ laneOff → (s.gyl page lane).tx.link = [] → (s.gyl page lane).tx.replay = [] →
      (s.gyl page lane).tx.queue = [] → s.fabStream page lane blkData = [] → s.fabStream page lane blkVideo = [] →
      (s.gyl page lane).tx.slack < 1056 →
      Completes (.gylosBlockSend page lane) s fun t =>
        (t.gyl page lane).tx.count = (s.gyl page lane).tx.count + 1 ∧
        (∃ wire, t.out = .block page lane blkIdle wire ((s.gyl page lane).tx.line wire).1 :: s.out ∧
          (t.gyl page lane).tx.crc = crc32c wire) ∧
        OnlyFields s t (fun _ _ _ => False) ∧ SameMemory s t) ∧
    (∀ (b : GylosBlock) (h : Nat), s.laneState page lane = laneAligning → (s.gyl page lane).rx.aligned = false →
      (s.gyl page lane).rx.streak = 2 → h = beValue (((s.gyl page lane).rx.take b).1.take 4) ^^^ (s.gyl page lane).rx.crc →
      headerOk h = true →
      bits h 20 8 = ((s.gyl page lane).rx.seq + 1) % 256 →
      Completes (.gylosBlockReceive page lane b) s fun t => t.laneState page lane = laneUp ∧
        (t.gyl page lane).rx.aligned = true ∧ (t.gyl page lane).rx.crc = crc32c ((s.gyl page lane).rx.take b).1 ∧ SameMemory s t) ∧
    (∀ (seq first : Nat), first < (s.gyl page lane).tx.count → (s.gyl page lane).tx.count ≤ first + 256 →
      first % 256 = seq % 256 → (s.gyl page lane).tx.dropped = none → (s.gyl page lane).tx.replay = [] →
      Completes (.linkNak page lane seq) s fun t =>
        (t.gyl page lane).tx.link = (s.gyl page lane).tx.link ++ [[0x02, 0, BitVec.ofNat 8 (seq % 256), 0]] ∧
        (t.gyl page lane).tx.replay = ((s.gyl page lane).tx.held.filter fun e => decide (first ≤ e.sent)).reverse ∧
        OnlyFields s t (fun _ _ _ => False) ∧ SameMemory s t) ∧
    Completes (.linkReplay page lane false) s (fun t => (t.gyl page lane).rx.nak = none ∧
      OnlyFields s t (fun _ _ _ => False) ∧ SameMemory s t) ∧
    Completes (.linkReplay page lane true) s (fun t => (t.gyl page lane).rx.nak = none ∧ t.intSet page 25 ∧
      t.logged fltInterconnect page ∧ SameMemory s t) ∧
    (∀ seq, (s.gyl page lane).rx.nak = some seq → (s.gyl page lane).rx.naks < 3 →
      (s.gyl page lane).rx.nakNs + 1000 ≤ s.now →
      Completes (.linkNakTimeout page lane) s fun t => (t.gyl page lane).rx.naks = (s.gyl page lane).rx.naks + 1 ∧
        (t.gyl page lane).tx.link =
          (s.gyl page lane).tx.link ++ [[0x01, BitVec.ofNat 8 lane, BitVec.ofNat 8 seq]] ∧ SameMemory s t) ∧
    (∀ signal, s.laneState page lane = laneUp → s.flag page lane F.laneEyeStatusBusy = false →
      Completes (.gylosLaneLoss page lane signal) s fun t =>
        t.laneState page lane = (if signal then laneAligning else laneDown) ∧ (t.gyl page lane).rx.aligned = false ∧
        t.logged fltLaneLoss page ∧ SameMemory s t)

/-- Fabric ports (R275, R281, R283, R287 to R289): a port starts and waits for power; HELLO is sent, received and missed;
a record goes on by its route or is counted; delays are measured; beacons are sent and shown. -/
def Obligations.FabricPortsComplete : Prop :=
  ∀ (p : Fin 16) (s : State),
    (∀ (m : Fin 8) (w : Word), s.accepts m (pgFab p) 0x0C0 = true → s.running (pgFab p) = false →
      s.acts (pgFab p) = true → s.deviceIdSet = true → s.laneResumes (pgFab p) 0 = false →
      600 ≤ s.get pgPau 0 F.pauBudgetMw → s.powerQueue.length < powerQueueSize →
      Completes (.fabPortStart m p w) s fun t => t.running (pgFab p) = true ∧ t.get (pgFab p) 0 F.fabCtrlEn = 1 ∧
        t.fabState (pgFab p) = fabWaitPower ∧ t.asks (pgFab p) .fabric = true ∧
        (∀ l, l < 4 → t.laneState (pgFab p) l = laneWaitPower) ∧ SameMemory s t) ∧
    (∀ l, s.fabLive (pgFab p) = true → s.lowestUp (pgFab p) = some l →
      Completes (.helloSend p) s fun t => (t.gyl (pgFab p) l).tx.queue = (s.gyl (pgFab p) l).tx.queue ++
        [⟨blkControl, false, false, padPayload ([0x10, 0, 0, 0] ++ leBytes 2 s.deviceId ++ leBytes 1 p)⟩] ∧
        OnlyFields s t (fun _ _ _ => False) ∧ SameMemory s t) ∧
    (∀ (dev : BitVec 14) (port : Fin 16), s.fabLive (pgFab p) = true →
      Completes (.hello p dev port) s fun t => t.get (pgFab p) 0 F.fabNeighbourDev = dev.toNat ∧
        t.get (pgFab p) 0 F.fabNeighbourPort = port ∧ t.get (pgFab p) 0 F.fabPortStatusNbrValid = 1 ∧
        (dev.toNat = s.deviceId → t.get (pgFab p) 0 F.fabPortStatusIdClash = 1 ∧ t.intSet (pgFab p) 16) ∧ SameMemory s t) ∧
    (s.flag (pgFab p) 0 F.fabPortStatusNbrValid = true → Tab.at 0 s.fabHello (pgFab p) + 3000000 ≤ s.now →
      Completes (.neighbourTimeout p) s fun t => t.get (pgFab p) 0 F.fabPortStatusNbrValid = 0 ∧
        OnlyFields s t (Names (pgFab p) 0 F.fabPortStatusNbrValid) ∧ SameMemory s t) ∧
    (∀ r : SegRecord, s.fabLive (pgFab p) = true → r.enc = false → s.flag (pgFab p) 0 F.fabCtrlEncReq = false →
      r.errored = false → r.line ≠ 0 →
      (∀ (q l : Nat), r.next < r.hops → q = pgFab (portAt r.ports.toNat r.next.val) → s.fabOpen q = true →
        s.transitHeld q (recordKind r.ty) + (recordBytes r (r.next.val + 1)).length ≤ transitLimit (recordKind r.ty) →
        s.leastLane q = some l →
        Completes (.segmentRecordReceive p r) s fun t =>
          t.fabStream q l (recordKind r.ty) = s.fabStream q l (recordKind r.ty) ++
            [⟨recordBytes r (r.next.val + 1), true, r.route.isSome, true⟩] ∧
          OnlyFields s t (fun _ _ _ => False) ∧ SameMemory s t) ∧
      (r.hops < r.next → Completes (.segmentRecordReceive p r) s fun t =>
        t.get (pgFab p) 0 F.fabCnt0RouteDrop = (s.get (pgFab p) 0 F.fabCnt0RouteDrop + 1) % F.fabCnt0RouteDrop.modulus ∧
        OnlyFields s t (Names (pgFab p) 0 F.fabCnt0RouteDrop) ∧ SameMemory s t) ∧
      (r.next = r.hops → r.hops ≠ 0 → r.route = none → (s.receiveSlot (pgFab p) r).1 = none →
        Completes (.segmentRecordReceive p r) s fun t =>
          t.get (pgFab p) 0 F.fabCnt0Unmatched = (s.get (pgFab p) 0 F.fabCnt0Unmatched + 1) % F.fabCnt0Unmatched.modulus ∧
          OnlyFields s t (Names (pgFab p) 0 F.fabCnt0Unmatched) ∧ SameMemory s t)) ∧
    (∀ lane : Fin 4, s.fabLive (pgFab p) = true → s.laneState (pgFab p) lane = laneUp →
      Completes (.delayReqSend p lane) s (fun t =>
        (t.delayRun (pgFab p) lane).sent = some ((s.delayRun (pgFab p) lane).num, s.now * 1000) ∧
        (t.gyl (pgFab p) lane).tx.queue.length = (s.gyl (pgFab p) lane).tx.queue.length + 1 ∧
        OnlyFields s t (fun _ _ _ => False) ∧ SameMemory s t) ∧
      (∀ x : DelayReqMsg, x.replay = false → Completes (.delayReq p lane x) s fun t =>
        (t.gyl (pgFab p) lane).tx.queue = (s.gyl (pgFab p) lane).tx.queue ++ [⟨blkControl, false, false,
          padPayload ([0x12, 0] ++ leBytes 2 x.num.toNat ++ leBytes 4 0 ++ leBytes 8 x.t2.toNat)⟩] ∧
        OnlyFields s t (fun _ _ _ => False) ∧ SameMemory s t) ∧
      (∀ (x : DelayRespMsg) (t1 : Nat), x.replay = false → (s.delayRun (pgFab p) lane).sent = some (x.num.toNat, t1) →
        Completes (.delayResp p lane x) s fun t => (t.delayRun (pgFab p) lane).sent = none ∧
          (t.delayRun (pgFab p) lane).done = (s.delayRun (pgFab p) lane).done + 1 ∧
          (t.delayRun (pgFab p) lane).results.head? = some ((((x.t4 : Int) - t1) - ((x.t3 : Int) - x.t2))) ∧
          OnlyFields s t (Names (pgFab p) 0 F.fabLinkDelayPs) ∧ SameMemory s t)) ∧
    (∀ (k : Fin 4) (l : Nat), s.fabLive (pgFab p) = true → s.lowestUp (pgFab p) = some l →
      bit (s.get (pgFab p) 0 F.fabCtrlBeaconOut) k = true → (s.tb k).state ≠ .off →
      Completes (.beaconSend p k) s fun t => (t.gyl (pgFab p) l).tx.queue = (s.gyl (pgFab p) l).tx.queue ++
        [⟨blkBeacon, false, false, padPayload (s.beaconPayload k)⟩] ∧
        OnlyFields s t (fun _ _ _ => False) ∧ SameMemory s t) ∧
    (∀ b : BeaconMsg, s.fabLive (pgFab p) = true → (∀ k, k < 4 → s.tbSource k ≠ srcBeacon) →
      Completes (.beacon p b) s fun t => t.get (pgFab p) 0 F.fabBeaconStatDepth = b.depth ∧
        t.get (pgFab p) 0 F.fabBeaconStatTb = b.tb ∧ t.get (pgFab p) 0 F.fabBeaconStatState = b.state ∧
        t.get (pgFab p) 0 F.fabBeaconStatSrcDev = b.srcDev.toNat ∧ SameMemory s t)

/-- Fabric-scheduled events (R291, R292): submitted, entered at their destination and acknowledged; the acknowledgement is
logged at the origin and read once; one that does not come within 200 µs is logged as NO_ACK. -/
def Obligations.FabricEventsComplete : Prop :=
  (∀ (m : Fin 8) (l : Nat) (s : State), s.accepts m (pgFab 0) 0x0A0 = true → s.deviceIdSet = true →
    s.routeOk none (s.get (pgFab 0) m F.fabFevtRtLoPorts) (s.get (pgFab 0) m F.fabFevtRtHiHops)
      (s.get (pgFab 0) m F.fabFevtRtHiDstDev) = true →
    s.fabOpen (pgFab (portAt (s.get (pgFab 0) m F.fabFevtRtLoPorts) 0)) = true → s.fevtWait.length < 64 →
    fevtKind (s.get (pgFab 0) m F.fabFevtW0Word) = true →
    s.lowestUp (pgFab (portAt (s.get (pgFab 0) m F.fabFevtRtLoPorts) 0)) = some l →
    Completes (.fevtSubmit m) s fun t => t.get (pgFab 0) m F.fabFevtResultCode = fevtSent ∧
      t.fevtWait = s.fevtWait ++ [(s.get (pgFab 0) m F.fabFevtTagTag, s.now)] ∧
      (t.gyl (pgFab (portAt (s.get (pgFab 0) m F.fabFevtRtLoPorts) 0)) l).tx.queue.length =
        (s.gyl (pgFab (portAt (s.get (pgFab 0) m F.fabFevtRtLoPorts) 0)) l).tx.queue.length + 1 ∧
      OnlyFields s t (Names (pgFab 0) m F.fabFevtResultCode) ∧ SameMemory s t) ∧
  (∀ (p : Fin 16) (x : FevtMsg) (s : State), s.fabLive (pgFab p) = true → x.enc = false →
    s.flag (pgFab p) 0 F.fabCtrlEncReq = false → x.hops ≠ 0 → x.next = x.hops → s.role ≠ roleShadow →
    (x.dst.toNat ≠ s.deviceId → Completes (.fevt p x) s fun t => t.events = s.events ∧
      t.get (pgFab p) 0 F.fabCnt1Misroute = satNat F.fabCnt1Misroute.width (s.get (pgFab p) 0 F.fabCnt1Misroute + 1) ∧
      OnlyFields s t (Names (pgFab p) 0 F.fabCnt1Misroute) ∧ SameMemory s t) ∧
    (∀ (kind : EvKind) (e : Event) (l : Nat), x.dst.toNat = s.deviceId → s.fw = .running →
      evKindOf (bits x.w0.toNat 28 4) = some kind →
      e = eventOf x.w0.toNat x.w1.toNat x.w2.toNat x.w3.toNat kind .fabric → s.evCheck e = evOk →
      s.lowestUp (pgFab p) = some l →
      Completes (.fevt p x) s fun t => t.events = s.events ++ [{ e with handle := s.nextHandle }] ∧
        (t.gyl (pgFab p) l).tx.queue.length = (s.gyl (pgFab p) l).tx.queue.length + 1 ∧ SameMemory s t)) ∧
  (∀ (p : Fin 16) (x : FevtAckMsg) (s : State), s.fabLive (pgFab p) = true → x.enc = false →
    s.flag (pgFab p) 0 F.fabCtrlEncReq = false → x.hops ≠ 0 → x.next = x.hops →
    (∃ e ∈ s.fevtWait, e.1 = x.tag.toNat) → s.fevtLog.length < 64 →
    Completes (.fevtAck p x) s fun t => t.fevtLog = s.fevtLog ++ [⟨x.tag.toNat, x.code, x.handle.toNat⟩] ∧
      t.fevtWait = dropTag x.tag.toNat s.fevtWait ∧ OnlyFields s t (fun _ _ _ => False) ∧ SameMemory s t) ∧
  (∀ (tag : BitVec 16) (s : State), (∃ e ∈ s.fevtWait, e.1 = tag.toNat ∧ e.2 + 200000 ≤ s.now) →
    Completes (.fevtAckTimeout tag) s fun t => t.fevtWait = dropTag tag.toNat s.fevtWait ∧
      (s.fevtLog.length < 64 → t.fevtLog = s.fevtLog ++ [⟨tag.toNat, fevtNoAck, 0⟩]) ∧
      (64 ≤ s.fevtLog.length → t.fevtLog = s.fevtLog ∧ t.fevtOvf = true) ∧
      OnlyFields s t (fun _ _ _ => False) ∧ SameMemory s t) ∧
  (∀ (m : Fin 8) (e : AckEntry) (rest : List AckEntry) (s : State), s.controlReset = false → s.masterOpen m = true →
    s.fevtLog = e :: rest →
    Completes (.fevtAckRead m) s fun t => t.answered m =
        some (.data (2 ^ 31 + ofBool s.fevtOvf * 2 ^ 30 + e.code % 16 * 2 ^ 26 + e.tag % 2 ^ 16)) ∧
      t.fevtLog = rest ∧ t.fevtOvf = false ∧ t.get (pgFab 0) 0 F.fabFevtAckHHandle = e.handle % 2 ^ 16 ∧
      t.intSet (pgFab 0) 19 ∧ SameMemory s t)

/-- Twin pairing (R299, R314 to R316, R318, R319): a device leads, joins, qualifies through the states of a join, hands over
and leaves; what its partner sends it takes effect, or waits while the join copies. -/
def Obligations.PairingComplete : Prop :=
  (∀ (m : Fin 8) (s : State), s.accepts m pgClasp F.claspCtrlJoin.off = true → s.get pgClasp 0 F.claspCtrlResetMirror ≤ 1 →
    (s.role = roleNone → s.pairing = pairDetached → Completes (.claspLead m) s fun t => t.role = roleLead ∧
      t.pairing = pairDetached ∧ (∀ g, g < 12 → bit t.coOut g = s.twinSide) ∧ t.intSet pgClasp 16 ∧ SameMemory s t) ∧
    (∀ x : Partner, s.role = roleNone → s.pairing = pairDetached → x.lead = true → x.side ≠ s.twinSide → x.same = true →
      s.upLanes pgClasp ≠ [] →
      Completes (.claspJoin m x) s fun t => t.role = roleShadow ∧ t.pairing = pairCopy ∧ t.intSet pgClasp 16 ∧
        t.get pgClasp 0 F.claspStateRestarts = 0 ∧ SameMemory s t) ∧
    (∀ x : Partner, x.lead = false ∨ s.upLanes pgClasp = [] → Completes (.claspJoin m x) s fun t => t.role = s.role ∧ t.pairing = s.pairing ∧
      t.get pgClasp 0 F.claspStateJoinResult = 1 ∧ SameMemory s t) ∧
    (s.role = roleLead → s.pairing ≠ pairDetached → Completes (.claspRelease m) s fun t => t.handOver = true ∧
      t.role = roleLead ∧ t.pairing = s.pairing ∧ SameMemory s t) ∧
    (s.role = roleShadow → s.pairing ≠ pairDetached → Completes (.claspRelease m) s fun t => t.role = roleNone ∧
      t.pairing = pairDetached ∧ t.intSet pgClasp 16 ∧ SameMemory s t)) ∧
  (∀ (image : List MirrorMsg) (s : State), s.role = roleLead → s.pairing = pairCopy → s.joinDue = false →
    Completes (.joinCopyDone image) s fun t => t.pairing = pairAlign ∧ t.role = roleLead ∧ SameMemory s t) ∧
  (∀ s : State, s.role = roleLead →
    (s.pairing = pairAlign → Completes .joinAlignDone s (fun t => t.pairing = pairFill ∧ t.role = roleLead ∧ SameMemory s t) ∧
      (s.elapsed pgClasp 0 timerAlign alignNs = true → Completes .alignTimeout s fun t => t.pairing = pairDetached ∧ t.role = roleLead ∧ SameMemory s t)) ∧
    (s.pairing = pairFill → Completes .joinFillDone s fun t => t.pairing = pairCompare ∧ t.role = roleLead ∧ SameMemory s t)) ∧
  (∀ s : State, s.role = roleShadow → s.pairing = pairAlign → s.elapsed pgClasp 0 timerAlign alignNs = true →
    Completes .alignTimeout s fun t => t.pairing = pairDetached ∧
    t.role = roleNone ∧ t.get pgClasp 0 F.claspStateJoinResult = 4 ∧ SameMemory s t) ∧
  (∀ s : State, s.pairing = pairCompare →
    (s.compareBad = false → Completes (.joinCompareDone true) s fun t => t.pairing = pairReady ∧ t.role = s.role ∧
      t.get pgClasp 0 F.claspStateJoinResult = 0 ∧ t.intSet pgClasp 16 ∧ SameMemory s t) ∧
    (∀ agree, agree = false ∨ s.compareBad = true → s.get pgClasp 0 F.claspStateRestarts < 3 →
      Completes (.joinCompareDone agree) s fun t => t.pairing = pairCompare ∧
      t.get pgClasp 0 F.claspStateRestarts = s.get pgClasp 0 F.claspStateRestarts + 1 ∧
      OnlyFields s t (Names pgClasp 0 F.claspStateRestarts) ∧ SameMemory s t)) ∧
  (∀ (k : Fin 4) (ps : Int) (s : State), s.pairing = pairReady → (s.tb k).state ≠ .off → ps > 50000 ∨ ps < -50000 →
    Completes (.tbSkewExceeded k ps) s fun t => t.pairing = pairAlign ∧ t.role = s.role ∧
      t.get pgClasp 0 (claspSkew k) = saturate 32 ps % 2 ^ 32 ∧ SameMemory s t) ∧
  (∀ s : State, s.role = roleShadow →
    (s.pairing = pairCopy → ∀ (n : Fin 256) es, Completes (.mirrorReceive (.salvo n es)) s fun t =>
      t.mirrorHeld = s.mirrorHeld ++ [.salvo n es] ∧ t.salvos = s.salvos ∧ OnlyFields s t (fun _ _ _ => False) ∧
      SameMemory s t) ∧
    (s.pairing ≠ pairCopy → s.controlReset = false → ∀ (n : Fin 256) es, Completes (.mirrorReceive (.salvo n es)) s fun t =>
      t.salvo n = es.map (fun w => xpDecode w.toNat) ∧ OnlyFields s t (fun _ _ _ => False) ∧ SameMemory s t) ∧
    Completes (.mirrorReceive .handOver) s (fun t => t.role = roleLead ∧ t.pairing = pairDetached ∧
      (∀ g, g < 12 → bit t.coOut g = bit s.coIn g) ∧ SameMemory s t))

/-- Changeover, output seals and heartbeats (R308, R309, R311 to R313, R317). -/
def Obligations.ChangeoverAndSealsComplete : Prop :=
  (∀ (g : Fin 12) (b : Bool) (s : State), s.role = roleLead → Assoc.find id g.val s.coTarget = some b →
    Completes (.changeover g) s fun t => bit t.coOut g = b ∧ t.out = .pin ("CO_OUT" ++ toString g.val) b :: s.out ∧
      (∀ h, h ≠ g.val → bit t.coOut h = bit s.coOut h) ∧ Assoc.find id g.val t.coTarget = none ∧
      OnlyFields s t (fun _ _ _ => False) ∧ SameMemory s t) ∧
  (∀ (g : Fin 12) (level : Bool) (s : State), bit s.coIn g ≠ level → Completes (.coInChange g level) s fun t =>
    bit t.coIn g = level ∧ t.intSet pgClasp 17 ∧ OnlyFields s t (Names pgClasp 0 F.hdrIntStat) ∧ SameMemory s t) ∧
  (∀ (g : Fin 12) (s : State), s.role = roleLead → bit s.coIn g ≠ bit s.coOut g →
    s.elapsed pgClasp g timerSwitch switchNs = true → Completes (.coMismatch g) s fun t =>
    t.logged fltCoMismatch pgClasp ∧ t.fltSeq = (s.fltSeq + 1) % 2 ^ 16 ∧ SameMemory s t) ∧
  (∀ (m : Fin 8) (w : Word) (s : State), s.accepts m pgClasp F.claspCoCmdGo.off = true →
    (s.role = roleLead → s.pairing = pairReady → F.claspCoCmdGroup.extract w.toNat < 12 →
      s.sideFaulty (F.claspCoCmdSide.extract w.toNat) (F.claspCoCmdGroup.extract w.toNat) = false →
      Completes (.coCmd m w) s fun t =>
        Assoc.find id (F.claspCoCmdGroup.extract w.toNat) t.coTarget = some (decide (F.claspCoCmdSide.extract w.toNat = 1)) ∧
        OnlyFields s t (fun _ _ _ => False) ∧ SameMemory s t) ∧
    (s.role ≠ roleLead ∨ s.pairing ≠ pairReady ∨ 12 ≤ F.claspCoCmdGroup.extract w.toNat ∨
        s.sideFaulty (F.claspCoCmdSide.extract w.toNat) (F.claspCoCmdGroup.extract w.toNat) = true →
      Completes (.coCmd m w) s fun t => t.errSet pgClasp errBadValue ∧ t.coTarget = s.coTarget ∧
        OnlyFields s t (ErrorOf pgClasp) ∧ SameMemory s t)) ∧
  (∀ (x : SealMsg) (p i : Nat) (g : Option Nat) (s : State), pairCompare ≤ s.pairing → s.outputOf x.flow = some (p, i, g) →
    (x.waived = true ∨ (s.ownSeal x).any OutSeal.waived = true → Completes (.sealReceive x) s fun t => t.get pgClasp 0 F.claspSealCntWaived =
        satNat F.claspSealCntWaived.width (s.get pgClasp 0 F.claspSealCntWaived + 1) % F.claspSealCntWaived.modulus ∧
      OnlyFields s t (Names pgClasp 0 F.claspSealCntWaived) ∧ SameMemory s t) ∧
    (∀ y, x.waived = false → s.ownSeal x = some y → y.waived = false → x.lineSeal.toNat = y.value → Completes (.sealReceive x) s fun t =>
      t.get pgClasp 0 F.claspSealLinesCount =
        (s.get pgClasp 0 F.claspSealLinesCount + 1) % F.claspSealLinesCount.modulus ∧
      OnlyFields s t (Names pgClasp 0 F.claspSealLinesCount) ∧ SameMemory s t) ∧
    (∀ y, x.waived = false → s.ownSeal x = some y → y.waived = false → x.lineSeal.toNat ≠ y.value → (x.flow.val, x.frame.toNat) ∉ s.sealRecords →
      Completes (.sealReceive x) s fun t => t.intSet pgClasp 18 ∧ t.logged fltSealMismatch p ∧
        (x.flow.val, x.frame.toNat) ∈ t.sealRecords ∧ SameMemory s t)) ∧
  (∀ s : State, Completes .heartbeatSend s fun t => t.hbOut = !s.hbOut ∧ .pin "CLASP_HB_OUT" (!s.hbOut) ∈ t.out ∧
    (∀ l, l < 4 → s.laneState pgClasp l = laneUp → .heartbeat l ∈ t.out) ∧ OnlyFields s t (fun _ _ _ => False) ∧
    SameMemory s t) ∧
  (∀ s : State,
    Completes (.heartbeatReceive true) s (fun t => t.hbPinNs = s.now ∧ t.get pgClasp 0 F.claspStateHbPin = 1 ∧
      OnlyFields s t (Names pgClasp 0 F.claspStateHbPin) ∧ SameMemory s t) ∧
    Completes (.heartbeatReceive false) s (fun t => t.hbLaneNs = s.now ∧ t.get pgClasp 0 F.claspStateHbLane = 1 ∧
      OnlyFields s t (Names pgClasp 0 F.claspStateHbLane) ∧ SameMemory s t)) ∧
  (∀ s : State, s.pairing = pairReady → s.hbLaneNs + 100000 ≤ s.now →
    (s.role = roleLead → Completes (.twinLoss false false) s fun t => t.role = roleLead ∧ t.pairing = pairDetached ∧
      t.intSet pgClasp 19 ∧ SameMemory s t) ∧
    (s.role = roleShadow → s.hbPinNs + 100000 ≤ s.now → Completes (.twinLoss false false) s fun t => t.role = roleLead ∧
      t.pairing = pairDetached ∧ (∀ g, g < 12 → bit t.coOut g = bit s.coIn g) ∧ t.intSet pgClasp 19 ∧ SameMemory s t) ∧
    (s.role = roleShadow → s.now < s.hbPinNs + 100000 → Completes (.twinLoss false false) s fun t => t.role = roleNone ∧
      t.pairing = pairDetached ∧ t.intSet pgClasp 19 ∧ SameMemory s t))

/-- Faults of clocks, supplies and memories, and the pins for tests and heat (R22, R24, R322, R403, R406, R421, R424). -/
def Obligations.FaultEventsComplete : Prop :=
  (∀ (d : Fin 365) (p i : Nat) (s : State), s.clockOwner d = (p, i, true) → s.flag pgFlt 0 F.fltCoverClkmon = true →
    Completes (.clockStop d) s (fun t => t.logged fltClock p ∧ t.fltSeq = (s.fltSeq + 1) % 2 ^ 16 ∧
      t.get pgFlt 0 F.fltLogHeadSeq = s.fltSeq % F.fltLogHeadSeq.modulus ∧ SameMemory s t) ∧
    Completes (.clockFreqError d) s (fun t => t.logged fltClock p ∧ t.fltSeq = (s.fltSeq + 1) % 2 ^ 16 ∧
      t.get pgFlt 0 F.fltLogHeadSeq = s.fltSeq % F.fltLogHeadSeq.modulus ∧ SameMemory s t)) ∧
  (∀ (rail : Fin 16) (s : State), s.flag pgFlt 0 F.fltCoverSupply = true → rail.val < 14 →
    (s.pairing ≠ pairReady → Completes (.supplyOutOfWindow rail true) s fun t => t.logged fltSupply fltWhole ∧
      t.intSet pgFlt 16 ∧ t.coTarget = s.coTarget ∧ SameMemory s t) ∧
    (s.pairing = pairReady → s.role = roleLead → Completes (.supplyOutOfWindow rail true) s fun t =>
      t.logged fltSupply fltWhole ∧ SameMemory s t ∧ ∀ g, g < 12 → s.sideFaulty (1 - s.ownSide) g = false →
        Assoc.find id g t.coTarget = some (decide (1 - s.ownSide = 1)))) ∧
  (∀ s : State, s.flag pgFlt 0 F.fltCoverEcc = true →
    (∀ (ch : Fin 32) addr recorded, Completes (.memEccError (.hbm ch false addr recorded)) s fun t =>
      t.get pgDev ch F.devHbmChStatusCe = satNat F.devHbmChStatusCe.width (s.get pgDev ch F.devHbmChStatusCe + 1) ∧
      OnlyFields s t (Names pgDev ch F.devHbmChStatusCe) ∧ SameMemory s t) ∧
    (∀ (ch : Fin 32) addr, Completes (.memEccError (.hbm ch true addr false)) s fun t =>
      t.get pgDev ch F.devHbmChStatusUe = satNat F.devHbmChStatusUe.width (s.get pgDev ch F.devHbmChStatusUe + 1) ∧
      t.logged fltMemUe pgDev ∧ ((ch.val, addr) ∈ s.hbmUe → t.get pgDev ch F.devHbmChStatusFaulted ≠ 0) ∧
      SameMemory s t) ∧
    (∀ page : Fin 4096, populated page = true → Completes (.memEccError (.sram page true)) s fun t =>
      t.logged fltMemUe page ∧ SameMemory s t)) ∧
  (∀ s : State, s.thermLow = false → Completes .thermAlert s fun t => t.thermLow = true ∧
    t.out = .pin "THERM_N" false :: s.out ∧ OnlyFields s t (fun _ _ _ => False) ∧ SameMemory s t) ∧
  (∀ s : State, Completes .extest s fun t => t.extest = true ∧ OnlyFields s t (fun _ _ _ => False) ∧ SameMemory s t)

/-- The Cave (R330 to R332, R334): an engine's batch goes to the journal, the oldest batch is copied into place, CLEAR empties
it, an image becomes CURRENT. -/
def Obligations.CaveCommandsComplete : Prop :=
  (∀ (page : Fin 4096) (s : State), populated (home page) = true → home page ≠ pgCave → s.caveDue (home page) = true →
    s.journal.length < 4 →
    Completes (.caveRecordWrite page) s fun t => t.journal = s.journal ++ [⟨home page, s.keptValues (home page)⟩] ∧
      t.get pgCave 0 F.caveStatusJournal = (s.journal.length + 1) % F.caveStatusJournal.modulus ∧ SameMemory s t) ∧
  (∀ (b : CaveBatch) (rest : List CaveBatch) (s : State), s.journal = b :: rest → s.caveWait = [] →
    Completes .caveJournalCopy s fun t => t.journal = rest ∧
      Assoc.find id b.page t.cave = some { written := true, sealOk := true, values := b.values } ∧ SameMemory s t) ∧
  (∀ (m : Fin 8) (w : Word) (s : State), s.accepts m pgCave F.caveCtrlClear.off = true →
    (F.caveCtrlKey.extract w.toNat = 0x5E7A → s.caveWait = [] → Completes (.caveClear m w) s fun t => t.cave = [] ∧
      t.journal = [] ∧ t.imagesCurrent = [] ∧ t.get pgCave 0 F.caveUsedUnits = 0 ∧ SameMemory s t) ∧
    (F.caveCtrlKey.extract w.toNat ≠ 0x5E7A → Completes (.caveClear m w) s fun t => t.cave = s.cave ∧
      t.errSet pgCave errBadValue ∧ OnlyFields s t (ErrorOf pgCave) ∧ SameMemory s t)) ∧
  (∀ (page : Fin 4096) (s : State), hasImage page = true → s.hbm = .ready → Completes (.imageWriteDone page) s fun t =>
    page.val ∈ t.imagesCurrent ∧ (∀ e ∈ t.imageBad, e.1 ≠ page.val) ∧
    (page.val = pgFlow → t.get pgCave 0 F.caveStatusFlowCurrent = 1) ∧ SameMemory s t)

/-- Loading and starting the firmware, training HBM, and the BAR2 window (R5, R325, R326, R398 to R401, R425). -/
def Obligations.StartupCommandsComplete : Prop :=
  (∀ (m : Fin 8) (w : Word) (s : State), s.accepts m pgDev F.devFwDataWord.off = true →
    s.get pgDev 0 F.devFwAddrAddr < 0x30000 →
    Completes (.fwDataWrite m w) s fun t =>
      t.get pgDev 0 F.devFwAddrAddr = s.get pgDev 0 F.devFwAddrAddr + 1 ∧
      (∀ k, k < 4 → Memory.read t.mem (4 * s.get pgDev 0 F.devFwAddrAddr + k) = BitVec.ofNat 8 (w.toNat / 256 ^ k)) ∧
      (∀ a, a < 4 * s.get pgDev 0 F.devFwAddrAddr ∨ 4 * s.get pgDev 0 F.devFwAddrAddr + 4 ≤ a →
        Memory.read t.mem a = Memory.read s.mem a) ∧
      OnlyFields s t (Names pgDev 0 F.devFwAddrAddr)) ∧
  (∀ (m : Fin 8) (s : State), s.accepts m pgDev F.devFwCtrlGo.off = true → s.fw = .missing ∨ s.fw = .bad →
    Completes (.fwGo m) s fun t => t.fw = .verifying ∧ t.fwAtReset = false ∧ SameMemory s t) ∧
  (∀ s : State, s.fw = .verifying →
    Completes .fwVerifyDone s fun t =>
      t.fw = (if Config.signatureValid (Memory.readBytes s.mem 0 fwBytes) then .running
        else if s.fwAtReset then .missing else .bad) ∧
      (Config.signatureValid (Memory.readBytes s.mem 0 fwBytes) = true →
        t.fwHash = sha256 (Memory.readBytes s.mem 0 fwBytes)) ∧
      (Config.signatureValid (Memory.readBytes s.mem 0 fwBytes) = false → OnlyFields s t (Names pgDev 0 F.hdrStatusEng)) ∧
      SameMemory s t) ∧
  (∀ s : State, s.hbm = .training →
    (∀ failed, Completes (.hbmTrainingDone true failed) s fun t => t.hbm = .ready ∧ t.hbmStored = true ∧ SameMemory s t) ∧
    (∀ failed, Completes (.hbmTrainingDone false failed) s fun t => t.hbm = .failed ∧ t.holds pgDev .hbm = false ∧
      (∀ ch ∈ failed, t.get pgDev ch F.devHbmChStatusFaulted ≠ 0) ∧ SameMemory s t)) ∧
  (∀ (m : Fin 8) (w : Word) (inFlight : Bool) (s : State), s.accepts m pgDev F.devHbmwinOffsetMb.off = true →
    F.devHbmwinOffsetMb.extract w.toNat ≤ 32512 → Completes (.hbmwinWrite m w inFlight) s fun t =>
      t.get pgDev 0 F.devHbmwinOffsetMb = F.devHbmwinOffsetMb.extract w.toNat ∧ (inFlight = true → t.errSet pgDev 18) ∧
      SameMemory s t) ∧
  (∀ (off len : Nat) (b : List Byte) (s : State), s.bar2Open off len = true → s.readBytes (s.windowAt off) len = some b →
    Completes (.bar2Read off len) s fun t => t.answered 0 = some (.data (leValue b)) ∧ t.out = .read 0 b :: s.out ∧
      OnlyFields s t (fun _ _ _ => False) ∧ SameMemory s t) ∧
  (∀ (off : Nat) (bytes : List Byte) (enables : List Bool) (s : State), s.bar2Open off bytes.length = true →
    s.hbm = .ready → s.windowAt off + bytes.length ≤ hbmBase + hbmSize →
    Completes (.bar2Write off bytes enables) s fun t =>
      (∀ n b, bytes[n]? = some b → enables[n]?.getD true = true → s.windowAt off + n < s.deviceBase →
        s.leaseAt (s.windowAt off + n) = none → Memory.read t.mem (s.windowAt off + n) = b) ∧
      (∀ a, (a < s.windowAt off ∨ s.windowAt off + bytes.length ≤ a ∨ s.deviceBase ≤ a ∨ (s.leaseAt a).isSome = true ∨
          enables[a - s.windowAt off]?.getD true = false) →
        Memory.read t.mem a = Memory.read s.mem a)) ∧
  (∀ (m : Fin 8) (w : Word) (s : State), s.accepts m pgDev F.devDevregBaseGib.off = true →
    (s.baseRefused (F.devDevregBaseGib.extract w.toNat) = false → Completes (.devregWrite m w) s fun t =>
      t.get pgDev 0 F.devDevregBaseGib = F.devDevregBaseGib.extract w.toNat ∧
      OnlyFields s t (Names pgDev 0 F.devDevregBaseGib) ∧ SameMemory s t) ∧
    (s.baseRefused (F.devDevregBaseGib.extract w.toNat) = true → Completes (.devregWrite m w) s fun t =>
      t.errSet pgDev errBadValue ∧ OnlyFields s t (ErrorOf pgDev) ∧ SameMemory s t))

/-- Profiles (R335 to R340): loaded, checked and stored, erased, requested by a register and by the pins, and prepared. -/
def Obligations.ProfilesComplete : Prop :=
  (∀ (m : Fin 8) (s : State), s.accepts m pgProf F.profProfOpOp.off = true → s.acts pgProf = true → s.profOp = none →
    s.profNamed (s.get pgProf 0 F.profProfIndexCell) = false →
    Completes (.profileLoad m) s (fun t => t.get pgProf 0 F.profProfResultBusy = 1 ∧
      t.profOp.map (fun x => (x.cell, x.length)) =
        some (s.get pgProf 0 F.profProfIndexCell, s.get pgProf 0 F.profProfLenBytes) ∧
      OnlyFields s t (Names pgProf 0 F.profProfResultBusy) ∧ SameMemory s t) ∧
    Completes (.profileErase m) s (fun t =>
      (Tab.at ⟨false, 0⟩ t.profCells (s.get pgProf 0 F.profProfIndexCell)).valid = false ∧
      t.get pgProf 0 F.profProfResultCode = 0 ∧
      t.get pgProf (s.get pgProf 0 F.profProfIndexCell) F.profCellStatusValid = 0 ∧ SameMemory s t)) ∧
  (∀ (x : ProfileLoadOp) (c n : Nat) (s : State), s.profOp = some x → x.check = (c, n) →
    Completes .profileLoadDone s fun t => t.profOp = none ∧ t.get pgProf 0 F.profProfResultBusy = 0 ∧
      t.get pgProf 0 F.profProfResultCode = c % F.profProfResultCode.modulus ∧
      t.get pgProf 0 F.profProfResultEntry = n % F.profProfResultEntry.modulus ∧ t.intSet pgProf 17 ∧
      (c = 0 → Tab.at ⟨false, 0⟩ t.profCells x.cell = ⟨true, x.length⟩ ∧
        (∀ k b, (x.image.getD [])[k]? = some b → Memory.read t.mem (profileBase x.cell + k) = b) ∧
        (∀ a, a < profileBase x.cell ∨ profileBase x.cell + 0x80000 ≤ a → Memory.read t.mem a = Memory.read s.mem a)) ∧
      (c ≠ 0 → t.profCells = s.profCells ∧ SameMemory s t)) ∧
  (∀ (m : Fin 8) (w : Word) (s : State), s.accepts m pgDev F.devProfileGo.off = true → s.fw = .running →
    (s.flag pgProf 0 F.profCtrlPins = true → Completes (.devProfileGo m w) s fun t =>
      t.get pgDev 0 F.devProfileStatusCode = 9 ∧ t.events = s.events ∧ SameMemory s t) ∧
    (∀ frame line, s.flag pgProf 0 F.profCtrlPins = false → (s.tb (F.devProfileTb.extract w.toNat)).state ≠ .off →
      s.profileValid (F.devProfileSel.extract w.toNat) = true →
      s.profPoint (F.devProfileTb.extract w.toNat) = some (frame, line) → s.events.length < scheduleSize →
      Completes (.devProfileGo m w) s fun t => t.get pgDev 0 F.devProfileStatusCode = 0 ∧
        t.get pgDev 0 F.devProfileStatusHandle = s.nextHandle % 2 ^ 16 ∧ SameMemory s t ∧
        ∃ e, t.events = s.events ++ [e] ∧ e.kind = .profile ∧ e.arg = F.devProfileSel.extract w.toNat ∧
          e.tb = F.devProfileTb.extract w.toNat ∧ e.frame = frame ∧ e.line = line ∧ e.handle = s.nextHandle)) ∧
  (∀ (m : Fin 8) (w : Word) (s : State), s.accepts m pgProf F.profCtrlPins.off = true → s.profPreps = [] →
    Completes (.profilePinsWrite m w) s fun t => t.get pgProf 0 F.profCtrlPins = F.profCtrlPins.extract w.toNat ∧
      t.get pgProf 0 F.profCtrlPinStart = F.profCtrlPinStart.extract w.toNat ∧ SameMemory s t ∧
      (s.flag pgProf 0 F.profCtrlPins = false → F.profCtrlPins.extract w.toNat = 1 →
        ∀ e ∈ t.events, ¬ (e.kind = .profile ∧ e.origin ≠ .pins))) ∧
  (∀ (enN : Bool) (sel : Fin 4) (s : State), (s.tb 0).state ≠ .off → s.role ≠ roleShadow →
    (s.pinSel ≠ some (if enN then none else some sel.val) → Completes (.profilePinSample enN sel) s fun t =>
      t.pinSel = some (if enN then none else some sel.val) ∧ t.pinQual = s.pinQual ∧
      OnlyFields s t (fun _ _ _ => False) ∧ SameMemory s t) ∧
    (s.pinSel = some (if enN then none else some sel.val) → Completes (.profilePinSample enN sel) s fun t =>
      t.pinQual = some (if enN then none else some sel.val) ∧
      t.get pgProf 0 F.profProfStatusPinEn = ofBool (!enN) ∧ SameMemory s t)) ∧
  (∀ (h : BitVec 16) (e : Event) (s : State), s.pendingEvent h.toNat = some e → e.kind = .profile → s.profPreps = [] →
    (profCrcOk (s.profImage e.arg) = false → Completes (.profilePrepare h) s fun t =>
      t.get pgProf 0 F.profProfLastCode = 2 ∧ t.errSet pgProf 16 ∧ t.intSet pgProf 18 ∧ t.logged fltConfigUpset pgProf) ∧
    (∀ ss, profCrcOk (s.profImage e.arg) = true → profParse (s.profImage e.arg) = some ss →
      Completes (.profilePrepare h) s fun t => ∃ x ∈ t.profPreps, x.handle = e.handle ∧ x.cell = e.arg ∧ x.done = false))

/-- Power admission (R344 to R347): a request is queued, granted, ramped and released; one that waits too long ends as
DEFERRED and is posted again; a grant kept too long is reported. -/
def Obligations.PowerCommandsComplete : Prop :=
  (∀ (page : Fin 4096) (n : Nat) (u : Purpose) (s : State), purposeOf page n = some u → (∀ l, u ≠ .eye l) →
    s.asks page u = false → s.holds page u = false → u.ask.1 ≤ s.get pgPau 0 F.pauBudgetMw →
    s.powerQueue.length < powerQueueSize →
    Completes (.powerRequest page n) s fun t => t.asks page u = true ∧ t.powerQueue.length = s.powerQueue.length + 1 ∧
      t.get page 0 F.hdrPowerGrantDeferred = 0 ∧ OnlyFields s t (Names page 0 F.hdrPowerGrantDeferred) ∧ SameMemory s t) ∧
  (∀ (r : PowerReq) (rest : List PowerReq) (s : State), s.powerQueue = r :: rest → s.canGrant r = true →
    Completes .powerGrant s fun t => t.holds r.page r.purpose = true ∧ SameMemory s t) ∧
  (∀ s : State, s.elapsed pgPau 0 timerRamp rampStepNs = true → Completes .powerRampStep s fun t => t.grants.length = s.grants.length ∧ t.used = s.used ∧
    (∀ g ∈ t.grants, ∃ x ∈ s.grants, g = { x with steps := x.steps - 1 }) ∧ OnlyFields s t (fun _ _ _ => False) ∧
    SameMemory s t) ∧
  (∀ (page : Fin 4096) (n : Nat) (u : Purpose) (s : State), purposeOf page n = some u →
    Completes (.powerRelease page n) s fun t => t.holds page u = false ∧ t.used ≤ s.used ∧
      OnlyFields s t (fun _ _ _ => False) ∧ SameMemory s t) ∧
  (∀ (r : PowerReq) (s : State), s.powerPaused = none → s.powerQueue = [r] → r.purpose = .slice →
    s.powerTimeoutNs < r.waited + (s.now - r.postedNs) →
    Completes .powerTimeout s fun t => t.powerQueue = [] ∧ t.get r.page 0 F.hdrPowerGrantDeferred = 1 ∧
      t.intSet pgPau 16 ∧ t.get pgPau 0 F.pauCntDeferred = (s.get pgPau 0 F.pauCntDeferred + 1) % F.pauCntDeferred.modulus ∧
      SameMemory s t) ∧
  (∀ (m : Fin 8) (w : Word) (s : State), s.accepts m pgPau 0x088 = true → F.pauTimeoutMs.legal.ok (F.pauTimeoutMs.extract w.toNat) = true →
    s.get pgPau 0 F.pauTimeoutMs ≤ F.pauTimeoutMs.extract w.toNat →
    Completes (.pauTimeoutWrite m w) s fun t => t.get pgPau 0 F.pauTimeoutMs = F.pauTimeoutMs.extract w.toNat ∧
      t.powerQueue = s.powerQueue ∧ SameMemory s t) ∧
  (∀ (g : PowerGrant) (limit : Nat) (s : State), g ∈ s.grants → durLimitNs g.dur = some limit →
    2 * limit < s.now - g.grantedNs → Completes .powerOverstay s fun t => t.errSet pgPau 18 ∧ t.grants = s.grants ∧
      OnlyFields s t (ErrorOf pgPau) ∧ SameMemory s t) ∧
  (∀ (page : Fin 4096) (n : Nat) (u : Purpose) (s : State), purposeOf page n = some u → s.reposts page u = true →
    s.elapsed page u.code timerRepost repostNs = true →
    u.ask.1 ≤ s.get pgPau 0 F.pauBudgetMw → s.powerQueue.length < powerQueueSize →
    Completes (.deferredRepost page n) s fun t => t.asks page u = true ∧ t.get page 0 F.hdrPowerGrantDeferred = 0 ∧
      OnlyFields s t (Names page 0 F.hdrPowerGrantDeferred) ∧ SameMemory s t)

/-- Clock synthesizers (R352, R354, R355): one with a consistent table starts to acquire, locks, and moves an output's delay by
one step at a time. -/
def Obligations.SynthesizersComplete : Prop :=
  ∀ (n : Fin 16) (s : State),
    (∀ (m : Fin 8) (w : Word), s.accepts m (pgSyn n) 0x080 = true → s.running (pgSyn n) = false → s.bandOk n = true →
      s.acts (pgSyn n) = true → Completes (.synStart m n w) s fun t => t.running (pgSyn n) = true ∧
        t.get (pgSyn n) 0 F.synCtrlEn = 1 ∧ (t.syn n).state = .acquire ∧ SameMemory s t) ∧
    (∀ (m : Fin 8) (w : Word), s.accepts m (pgSyn n) 0x080 = true → s.running (pgSyn n) = false → s.bandOk n = false →
      Completes (.synStart m n w) s fun t => t.running (pgSyn n) = false ∧ t.errSet (pgSyn n) 16 ∧ SameMemory s t) ∧
    ((s.syn n).state = .acquire → Completes (.synLocked n) s fun t => (t.syn n).state = .locked ∧
      t.intSet (pgSyn n) 16 ∧ SameMemory s t) ∧
    (∀ o : Fin 8,
      (s.delayAt n o < s.get (pgSyn n) o F.synOutCtrlDelay → Completes (.synDelayStep n o) s fun t =>
        t.delayAt n o = s.delayAt n o + 1 ∧ OnlyFields s t (fun _ _ _ => False) ∧ SameMemory s t) ∧
      (s.get (pgSyn n) o F.synOutCtrlDelay < s.delayAt n o → Completes (.synDelayStep n o) s fun t =>
        t.delayAt n o + 1 = s.delayAt n o ∧ OnlyFields s t (fun _ _ _ => False) ∧ SameMemory s t))

/-- The key store (R360, R363, R366, R368 to R372, R377, R381): a command that passes the checks begins; INVALIDATE empties its
slot; the life cycle moves on, every slot empty. -/
def Obligations.KeyCommandsComplete : Prop :=
  (∀ (m : Fin 8) (s : State), s.accepts m pgKey 0x098 = true → s.keyOp = none → s.lcTarget = none → s.inert pgKey = false →
    (∀ x ∈ [(Instr.keyLoad m, opLoad), (.keyInvalidate m, opInvalidate), (.keyDerive m, opDerive),
        (.keyGenerate m, opGenerate), (.keyImport m, opImport), (.keyRewrap m, opRewrap), (.keyHallmark m, opHallmark)],
      (s.put pgKey m F.keyCmdOp x.2).keyCheck ((s.put pgKey m F.keyCmdOp x.2).stagedKeyOp m)
          (s.get pgKey m F.keyCmdLenBytes) = keyOk →
      Completes x.1 s fun t => t.keyOp = some ((s.put pgKey m F.keyCmdOp x.2).stagedKeyOp m) ∧ t.stat pgKey 18 = true ∧
        t.keySlots = s.keySlots) ∧
    (∀ x ∈ [(Instr.keyHelper m, opHelper), (.keyEnroll m, opEnroll)],
      (s.put pgKey m F.keyCmdOp x.2).keyCheck ((s.put pgKey m F.keyCmdOp x.2).stagedKeyOp m)
          (s.get pgKey m F.keyCmdLenBytes) = keyOk → 200 ≤ s.get pgPau 0 F.pauBudgetMw →
      s.powerQueue.length < powerQueueSize →
      Completes x.1 s fun t => t.keyOp = some ((s.put pgKey m F.keyCmdOp x.2).stagedKeyOp m) ∧
        t.asks pgKey .puf = true ∧ t.rootState = rootRegenerating ∧ t.keySlots = s.keySlots)) ∧
  (∀ (o : KeyOp) (b : List Byte) (s : State), s.keyOp = some o → o.op = opInvalidate → o.input = some b →
    Completes .keyCmdDone s fun t => t.keyOp = none ∧ (t.keySlot o.slot).state = slotEmpty ∧
      (t.keySlot o.slot).gen = ((s.keySlot o.slot).gen + 1) % 2 ^ 16 ∧ t.get pgKey o.master F.keyCmdResultCode = 0 ∧
      t.intSet pgKey 16) ∧
  (∀ (m : Fin 8) (w : Word) (s : State), s.accepts m pgKey 0x0A4 = true → bits w.toNat 16 16 = 0x4C43 → s.lcTarget = none →
    bits w.toNat 0 2 = 1 ∨ bits w.toNat 0 2 = 2 → s.get pgKey 0 F.keyLcStatusState < bits w.toNat 0 2 →
    Completes (.lcTransition m w) s fun t => t.lcTarget = some (bits w.toNat 0 2) ∧ t.get pgKey 0 F.keyLcStatusBusy = 1 ∧
      OnlyFields s t (Names pgKey 0 F.keyLcStatusBusy) ∧ SameMemory s t) ∧
  (∀ (target : Nat) (s : State), s.lcTarget = some target → target = 1 ∨ target = 2 →
    Completes (.lcTransitionDone true) s (fun t => t.lcTarget = none ∧ t.get pgKey 0 F.keyLcStatusState = target ∧
      t.get pgKey 0 F.keyLcStatusBusy = 0 ∧ t.fuseSet (target - 1) = true ∧ t.fuseSet (target + 1) = true ∧
      (∀ n, n < 128 → (t.keySlot n).state = slotEmpty) ∧ SameMemory s t) ∧
    Completes (.lcTransitionDone false) s (fun t => t.lcTarget = none ∧ t.get pgKey 0 F.keyLcStatusState = 3 ∧
      t.get pgKey 0 F.keyLcStatusPending = target ∧ (∀ n, n < 128 → (t.keySlot n).state = slotEmpty) ∧ SameMemory s t)) ∧
  (∀ s : State, Completes .healthTestFail s fun t => t.rngFailed = true ∧ OnlyFields s t (fun _ _ _ => False) ∧
    SameMemory s t)

/-- Check-value units (R383 to R386): a job starts, ends and is aborted; the register is loaded, armed and fed. -/
def Obligations.CheckValueUnitsComplete : Prop :=
  ∀ (n : Fin 16) (s : State),
    (∀ m : Fin 8, s.accepts m (pgCvu n) 0x0A0 = true → s.acts (pgCvu n) = true →
      ((s.cvu n).job = none →
        (s.get (pgCvu n) 0 F.cvuLenBytes ≠ 0 → Completes (.cvuStart m n) s fun t =>
          (t.cvu n).job = some (s.addr40 (pgCvu n) 0 F.cvuSrcLoAddr F.cvuSrcHiAddr, s.get (pgCvu n) 0 F.cvuLenBytes) ∧
          t.running (pgCvu n) = true ∧ (s.flag (pgCvu n) 0 F.cvuCfgCont = false → (t.cvu n).crc = s.cvuInit n) ∧
          (s.flag (pgCvu n) 0 F.cvuCfgCont = true → (t.cvu n).crc = (s.cvu n).crc) ∧ SameMemory s t) ∧
        Completes (.cvuRestart m n) s (fun t => (t.cvu n).crc = s.cvuInit n ∧ (t.cvu n).bytes = 0 ∧
          (t.cvu n).record = [] ∧ SameMemory s t)) ∧
      (∀ x, (s.cvu n).job = some x → Completes (.cvuAbort m n) s fun t => (t.cvu n).job = none ∧
        t.get (pgCvu n) 0 F.cvuResultStatCode = 2 ∧ t.intSet (pgCvu n) 16 ∧ SameMemory s t) ∧
      Completes (.cvuArm m n) s (fun t => t.cvuArmed n = true ∧ OnlyFields s t (Names (pgCvu n) 0 F.hdrStatusEng) ∧
        SameMemory s t)) ∧
    (∀ (m : Fin 8) (w : Word), s.acts (pgCvu n) = true → (s.cvu n).job = none →
      (s.accepts m (pgCvu n) 0x0A4 = true → Completes (.cvuFeed m n w) s fun t =>
        (t.cvu n).crc = crcBytes (s.cvuWidth n) (s.cvuPoly n) (s.flag (pgCvu n) 0 F.cvuCfgRefin) (s.cvu n).crc
          (leBytes 4 w.toNat) ∧ (t.cvu n).bytes = min ((s.cvu n).bytes + 4) cvuBytesMax ∧ SameMemory s t) ∧
      (s.accepts m (pgCvu n) 0x0A8 = true → Completes (.cvuFeed1 m n w) s fun t =>
        (t.cvu n).crc = crcBytes (s.cvuWidth n) (s.cvuPoly n) (s.flag (pgCvu n) 0 F.cvuCfgRefin) (s.cvu n).crc
          (leBytes 1 w.toNat) ∧ (t.cvu n).bytes = min ((s.cvu n).bytes + 1) cvuBytesMax ∧ SameMemory s t)) ∧
    (∀ addr len, (s.cvu n).job = some (addr, len) → (s.readable addr len).length = len →
      Completes (.cvuJobDone n) s fun t => (t.cvu n).job = none ∧ t.get (pgCvu n) 0 F.cvuResultStatCode = 0 ∧
        (t.cvu n).crc = crcBytes (s.cvuWidth n) (s.cvuPoly n) (s.flag (pgCvu n) 0 F.cvuCfgRefin) (s.cvu n).crc
          (s.readable addr len) ∧ t.intSet (pgCvu n) 16 ∧ SameMemory s t)

/-- The Press (R388, R390): a descriptor that passes the checks is queued, a job ends with its record, a read takes the oldest
record and latches the rest of it for its master. -/
def Obligations.PressCommandsComplete : Prop :=
  (∀ (m : Fin 8) (d : PressDesc) (s : State), s.accepts m pgPress 0x0A0 = true → s.acts pgPress = true →
    d = { words := [F.pressSubW0Word, F.pressSubW1Word, F.pressSubW2Word, F.pressSubW3Word, F.pressSubW4Word,
            F.pressSubW5Word, F.pressSubW6Word, F.pressSubW7Word].map (s.get pgPress m), master := m } →
    s.pressQueue.length < 64 → d.bad = false → chainBad s.pressQueue.getLast? d = false → d.overlaps = false →
    s.pressJob = true ∨ (1100 ≤ s.get pgPau 0 F.pauBudgetMw ∧ s.powerQueue.length < powerQueueSize) →
    Completes (.pressSubmit m) s fun t => t.get pgPress m F.pressSubResultCode = 0 ∧ t.pressQueue = s.pressQueue ++ [d] ∧
      SameMemory s t) ∧
  (∀ (ds rest : List PressDesc) (s : State), s.pressJob = true → splitJob s.pressQueue = some (ds, rest) →
    1100 ≤ s.get pgPau 0 F.pauBudgetMw → s.powerQueue.length < powerQueueSize → s.pressDone.length < 64 →
    Completes .pressJobDone s fun t => t.pressQueue = rest ∧ t.pressJob = false ∧ (∃ r, t.pressDone = s.pressDone ++ [r]) ∧
      t.holds pgPress .press = false ∧ t.intSet pgPress 16) ∧
  (∀ (m : Fin 8) (r : List Nat) (rest : List (List Nat)) (s : State), s.controlReset = false → s.masterOpen m = true →
    s.pressDone = r :: rest →
    Completes (.pressDoneRead m) s fun t => t.answered m = some (.data (r.getD 0 0 + ofBool s.pressOvf * 2 ^ 30)) ∧
      t.pressDone = rest ∧ t.pressOvf = false ∧
      (∀ k, k ∈ [1, 2, 3] → Assoc.find Key.code (latchKey m pgPress (0x0B0 + 4 * k)) t.latch = some (r.getD k 0)) ∧
      OnlyFields s t (fun _ _ _ => False) ∧ SameMemory s t)

/-- The management SPI (R419), from 20 ms after POR_N: writes are posted, at most two; a read answers after them; STATUS tells and
clears ERROR. -/
def Obligations.ManagementSpiCompletes : Prop :=
  ∀ s : State, 20000000 ≤ s.now →
    (∀ (addr : BitVec 40) (w : Word),
      (addr.toNat % 4 = 0 → s.spiPending.length < 2 → Completes (.spiWrite addr w) s fun t =>
        t.spiPending = s.spiPending ++ [(s.decoded addr.toNat, w.toNat)] ∧ t.spiError = s.spiError ∧
        OnlyFields s t (fun _ _ _ => False) ∧ SameMemory s t) ∧
      (addr.toNat % 4 ≠ 0 ∨ 2 ≤ s.spiPending.length → Completes (.spiWrite addr w) s fun t =>
        t.spiPending = s.spiPending ∧ t.spiError = true ∧ OnlyFields s t (fun _ _ _ => False) ∧ SameMemory s t)) ∧
    (∀ addr : BitVec 40, addr.toNat % 4 = 0 → s.spiPending = [] →
      (∀ v u, s.controlReset = false → s.masterOpen 7 = true → s.busRead 7 addr.toNat = (some v, u) →
        Completes (.spiRead addr) s fun t => t.out = .spi (165#8 :: (leBytes 4 v).reverse) :: u.out ∧
          OnlyFields u t (fun _ _ _ => False) ∧ SameMemory s t) ∧
      (s.masterOpen 7 = false → Completes (.spiRead addr) s fun t => t.out = .spi [90#8, 0, 0, 0, 0] :: s.out ∧
        OnlyFields s t (fun _ _ _ => False) ∧ SameMemory s t)) ∧
    Completes .spiStatus s (fun t => t.spiError = false ∧
      t.out = .spi [BitVec.ofNat 8 (ofBool (!s.spiPending.isEmpty) + 2 * ofBool s.spiError)] :: s.out ∧
      OnlyFields s t (fun _ _ _ => False) ∧ SameMemory s t)
end

