-- ==== Sys2Proof/Laws/Assoc.lean ====
section
/-! SUPPORT. Laws of sparse tables: a read after a write, what a removal leaves, and that the rising order is kept. -/

namespace Sys2Proof.Machine

variable {κ α : Type} {code : κ → Nat}

/-- A read after a write: the value written under the same code, else what was there. -/
theorem find_set (k k' : κ) (v : α) (l : List (κ × α)) :
    Assoc.find code k' (Assoc.set code k v l) = if code k = code k' then some v else Assoc.find code k' l := by
  induction l with
  | nil => simp [Assoc.set, Assoc.find]
  | cons e t ih =>
    obtain ⟨a, b⟩ := e
    unfold Assoc.set
    by_cases h1 : code a = code k
    · simp only [h1, if_true, Assoc.find]
      by_cases h2 : code k = code k' <;> simp [h2]
    · rw [if_neg h1]
      by_cases h2 : code k < code a
      · simp [h2, Assoc.find]
      · rw [if_neg h2]
        simp only [Assoc.find, ih]
        by_cases h3 : code a = code k'
        · have : code k ≠ code k' := fun h => h1 (h3.trans h.symm)
          simp [h3, this]
        · simp [h3]

/-- A read after a removal. -/
theorem find_erase (k k' : κ) (l : List (κ × α)) :
    Assoc.find code k' (Assoc.erase code k l) = if code k = code k' then none else Assoc.find code k' l := by
  induction l with
  | nil => simp [Assoc.erase, Assoc.find]
  | cons e t ih =>
    obtain ⟨a, b⟩ := e
    have ih' : Assoc.find code k' (List.filter (fun e => decide (code e.1 ≠ code k)) t) =
        if code k = code k' then none else Assoc.find code k' t := ih
    simp only [Assoc.erase, List.filter_cons]
    by_cases h1 : code a = code k
    · simp only [h1, Assoc.find]
      simp only [ne_eq, not_true_eq_false, decide_false, Bool.false_eq_true, if_false]
      rw [ih']
      by_cases h2 : code k = code k' <;> simp [h2]
    · simp only [ne_eq, h1, not_false_eq_true, decide_true, if_true, Assoc.find]
      rw [ih']
      by_cases h2 : code a = code k'
      · have : code k ≠ code k' := fun h => h1 (h2.trans h.symm)
        simp [h2, this]
      · simp [h2]

/-- Every code of a rising table lies above a bound that its first code lies above. -/
theorem sorted_cons (a : κ × α) (l : List (κ × α)) :
    Assoc.sorted code (a :: l) = true ↔ (∀ e ∈ l, code a.1 < code e.1) ∧ Assoc.sorted code l = true := by
  induction l generalizing a with
  | nil => simp [Assoc.sorted]
  | cons b t ih =>
    simp only [Assoc.sorted, Bool.and_eq_true, decide_eq_true_eq]
    constructor
    · rintro ⟨h, k⟩
      refine ⟨fun e he => ?_, k⟩
      rcases List.mem_cons.1 he with rfl | he
      · exact h
      · exact h.trans (((ih b).1 k).1 e he)
    · rintro ⟨h, k⟩
      exact ⟨h b (List.mem_cons_self ..), k⟩

/-- What a write leaves in the table. -/
theorem mem_set {k : κ} {v : α} {l : List (κ × α)} {e : κ × α} (h : e ∈ Assoc.set code k v l) : e = (k, v) ∨ e ∈ l := by
  induction l with
  | nil => simpa [Assoc.set] using h
  | cons b t ih =>
    obtain ⟨a, x⟩ := b
    unfold Assoc.set at h
    split at h
    · rcases List.mem_cons.1 h with h | h
      · exact .inl h
      · exact .inr (List.mem_cons_of_mem _ h)
    · split at h
      · rcases List.mem_cons.1 h with h | h
        · exact .inl h
        · exact .inr h
      · rcases List.mem_cons.1 h with h | h
        · exact .inr (h ▸ List.mem_cons_self ..)
        · exact (ih h).imp id (List.mem_cons_of_mem _)

/-- A write keeps the rising order. -/
theorem sorted_set (k : κ) (v : α) {l : List (κ × α)} (h : Assoc.sorted code l = true) :
    Assoc.sorted code (Assoc.set code k v l) = true := by
  induction l with
  | nil => rfl
  | cons b t ih =>
    obtain ⟨a, x⟩ := b
    obtain ⟨hb, ht⟩ := (sorted_cons _ _).1 h
    unfold Assoc.set
    split
    · rename_i e
      exact (sorted_cons _ _).2 ⟨fun y hy => e ▸ hb y hy, ht⟩
    · split
      · rename_i _ lt
        refine (sorted_cons _ _).2 ⟨fun y hy => ?_, h⟩
        rcases List.mem_cons.1 hy with rfl | hy
        · exact lt
        · exact lt.trans (hb y hy)
      · rename_i ne nlt
        refine (sorted_cons _ _).2 ⟨fun y hy => ?_, ih ht⟩
        rcases mem_set hy with rfl | hy
        · exact lt_of_le_of_ne (not_lt.1 nlt) ne
        · exact hb y hy

/-- Dropping entries keeps the rising order. -/
theorem sorted_filter (q : κ × α → Bool) {l : List (κ × α)} (h : Assoc.sorted code l = true) :
    Assoc.sorted code (l.filter q) = true := by
  induction l with
  | nil => rfl
  | cons b t ih =>
    obtain ⟨hb, ht⟩ := (sorted_cons _ _).1 h
    rw [List.filter_cons]
    split
    · exact (sorted_cons _ _).2 ⟨fun y hy => hb y (List.mem_of_mem_filter hy), ih ht⟩
    · exact ih ht

/-- Two keys have one code only if they are one key. -/
theorem key_code_inj {a b : Key} : a.code = b.code ↔ a = b := by
  constructor
  · intro h
    simp only [Key.code, Nat.pair_eq_pair] at h
    obtain ⟨h1, h2, h3⟩ := h
    cases a; cases b; simp_all
  · rintro rfl; rfl

/-- A record read after a record was written. -/
theorem tab_at_put (d : α) (n m : Nat) (v : α) (t : Tab α) :
    Tab.at d (Tab.put n v t) m = if n = m then v else Tab.at d t m := by
  unfold Tab.at Tab.put
  rw [find_set]
  by_cases h : n = m <;> simp [h]

end Sys2Proof.Machine
end

