-- ==== Sys2Proof/Laws/Memory.lean ====
section
/-! SUPPORT. Laws of memory: a read after a write, and that every memory operation keeps the canonical form. -/

namespace Sys2Proof.Machine

/-- A byte read after a byte was written: the byte written at the same address, else what was there. -/
theorem memory_read_write (l : List Host.Cell) (a b : Nat) (v : Byte) :
    Memory.read (Memory.write l a v) b = if a = b then v else Memory.read l b := by
  unfold Memory.read Memory.write
  split
  · rename_i h
    rw [find_erase]
    by_cases e : a = b <;> simp [e, h]
  · rw [find_set]
    by_cases e : a = b <;> simp [e]

theorem memory_wf_iff (l : List Host.Cell) :
    Memory.wf l = true ↔ Assoc.sorted id l = true ∧ ∀ e ∈ l, e.2 ≠ 0 := by
  simp [Memory.wf]

/-- Writing a byte keeps the canonical form. -/
theorem memory_wf_write {l : List Host.Cell} (a : Nat) (v : Byte) (h : Memory.wf l = true) :
    Memory.wf (Memory.write l a v) = true := by
  rw [memory_wf_iff] at *
  unfold Memory.write
  split
  · exact ⟨sorted_filter _ h.1, fun e he => h.2 e (List.mem_of_mem_filter he)⟩
  · rename_i hv
    refine ⟨sorted_set _ _ h.1, fun e he => ?_⟩
    rcases mem_set he with rfl | he
    · exact hv
    · exact h.2 e he

/-- Writing bytes keeps the canonical form. -/
theorem memory_wf_writeBytes {l : List Host.Cell} (a : Nat) (b : Bytes) (h : Memory.wf l = true) :
    Memory.wf (Memory.writeBytes l a b) = true := by
  induction b generalizing l a with
  | nil => exact h
  | cons x t ih => exact ih (a + 1) (memory_wf_write a x h)

/-- Clearing a range keeps the canonical form. -/
theorem memory_wf_clear {l : List Host.Cell} (a n : Nat) (h : Memory.wf l = true) :
    Memory.wf (Memory.clear l a n) = true := by
  rw [memory_wf_iff] at *
  exact ⟨sorted_filter _ h.1, fun e he => h.2 e (List.mem_of_mem_filter he)⟩

/-- A byte read after bytes were written elsewhere. -/
theorem memory_read_writeBytes_out (l : List Host.Cell) (a b : Nat) (v : Bytes) (h : b < a ∨ a + v.length ≤ b) :
    Memory.read (Memory.writeBytes l a v) b = Memory.read l b := by
  induction v generalizing l a with
  | nil => rfl
  | cons x t ih =>
    simp only [List.length_cons] at h
    rw [Memory.writeBytes, ih _ _ (by omega), memory_read_write, if_neg (by omega)]

end Sys2Proof.Machine
end

