-- ==== Sys2Proof/Laws/State.lean ====
section
/-! SUPPORT. One lemma per field per core update of State, each true by definition. -/

namespace Sys2Proof.Machine

variable (s : State)

/-! ### `put` -/

@[simp] theorem put_pending (p c : Nat) (f : Field) (v : Nat) : (s.put p c f v).pending = s.pending := rfl
@[simp] theorem put_now (p c : Nat) (f : Field) (v : Nat) : (s.put p c f v).now = s.now := rfl
@[simp] theorem put_free (p c : Nat) (f : Field) (v : Nat) : (s.put p c f v).free = s.free := rfl
@[simp] theorem put_shadow (p c : Nat) (f : Field) (v : Nat) : (s.put p c f v).shadow = s.shadow := rfl
@[simp] theorem put_staged (p c : Nat) (f : Field) (v : Nat) : (s.put p c f v).staged = s.staged := rfl
@[simp] theorem put_units (p c : Nat) (f : Field) (v : Nat) : (s.put p c f v).units = s.units := rfl
@[simp] theorem put_latch (p c : Nat) (f : Field) (v : Nat) : (s.put p c f v).latch = s.latch := rfl
@[simp] theorem put_reply (p c : Nat) (f : Field) (v : Nat) : (s.put p c f v).reply = s.reply := rfl
@[simp] theorem put_out (p c : Nat) (f : Field) (v : Nat) : (s.put p c f v).out = s.out := rfl
@[simp] theorem put_msix (p c : Nat) (f : Field) (v : Nat) : (s.put p c f v).msix = s.msix := rfl
@[simp] theorem put_msixPending (p c : Nat) (f : Field) (v : Nat) : (s.put p c f v).msixPending = s.msixPending := rfl
@[simp] theorem put_mapMode (p c : Nat) (f : Field) (v : Nat) : (s.put p c f v).mapMode = s.mapMode := rfl
@[simp] theorem put_twinSide (p c : Nat) (f : Field) (v : Nat) : (s.put p c f v).twinSide = s.twinSide := rfl
@[simp] theorem put_thermLow (p c : Nat) (f : Field) (v : Nat) : (s.put p c f v).thermLow = s.thermLow := rfl
@[simp] theorem put_extest (p c : Nat) (f : Field) (v : Nat) : (s.put p c f v).extest = s.extest := rfl
@[simp] theorem put_coIn (p c : Nat) (f : Field) (v : Nat) : (s.put p c f v).coIn = s.coIn := rfl
@[simp] theorem put_coOut (p c : Nat) (f : Field) (v : Nat) : (s.put p c f v).coOut = s.coOut := rfl
@[simp] theorem put_hbOut (p c : Nat) (f : Field) (v : Nat) : (s.put p c f v).hbOut = s.hbOut := rfl
@[simp] theorem put_rennetOut (p c : Nat) (f : Field) (v : Nat) : (s.put p c f v).rennetOut = s.rennetOut := rfl
@[simp] theorem put_mem (p c : Nat) (f : Field) (v : Nat) : (s.put p c f v).mem = s.mem := rfl
@[simp] theorem put_remapPending (p c : Nat) (f : Field) (v : Nat) : (s.put p c f v).remapPending = s.remapPending := rfl
@[simp] theorem put_allocs (p c : Nat) (f : Field) (v : Nat) : (s.put p c f v).allocs = s.allocs := rfl
@[simp] theorem put_pcieUp (p c : Nat) (f : Field) (v : Nat) : (s.put p c f v).pcieUp = s.pcieUp := rfl
@[simp] theorem put_controlReset (p c : Nat) (f : Field) (v : Nat) : (s.put p c f v).controlReset = s.controlReset := rfl
@[simp] theorem put_warmReset (p c : Nat) (f : Field) (v : Nat) : (s.put p c f v).warmReset = s.warmReset := rfl
@[simp] theorem put_spiError (p c : Nat) (f : Field) (v : Nat) : (s.put p c f v).spiError = s.spiError := rfl
@[simp] theorem put_spiPending (p c : Nat) (f : Field) (v : Nat) : (s.put p c f v).spiPending = s.spiPending := rfl
@[simp] theorem put_spiIssued (p c : Nat) (f : Field) (v : Nat) : (s.put p c f v).spiIssued = s.spiIssued := rfl
@[simp] theorem put_fw (p c : Nat) (f : Field) (v : Nat) : (s.put p c f v).fw = s.fw := rfl
@[simp] theorem put_fwAtReset (p c : Nat) (f : Field) (v : Nat) : (s.put p c f v).fwAtReset = s.fwAtReset := rfl
@[simp] theorem put_hbm (p c : Nat) (f : Field) (v : Nat) : (s.put p c f v).hbm = s.hbm := rfl
@[simp] theorem put_hbmStored (p c : Nat) (f : Field) (v : Nat) : (s.put p c f v).hbmStored = s.hbmStored := rfl
@[simp] theorem put_tbs (p c : Nat) (f : Field) (v : Nat) : (s.put p c f v).tbs = s.tbs := rfl
@[simp] theorem put_events (p c : Nat) (f : Field) (v : Nat) : (s.put p c f v).events = s.events := rfl
@[simp] theorem put_evSlots (p c : Nat) (f : Field) (v : Nat) : (s.put p c f v).evSlots = s.evSlots := rfl
@[simp] theorem put_doneLog (p c : Nat) (f : Field) (v : Nat) : (s.put p c f v).doneLog = s.doneLog := rfl
@[simp] theorem put_doneOvf (p c : Nat) (f : Field) (v : Nat) : (s.put p c f v).doneOvf = s.doneOvf := rfl
@[simp] theorem put_salvos (p c : Nat) (f : Field) (v : Nat) : (s.put p c f v).salvos = s.salvos := rfl
@[simp] theorem put_salvoOp (p c : Nat) (f : Field) (v : Nat) : (s.put p c f v).salvoOp = s.salvoOp := rfl
@[simp] theorem put_xp (p c : Nat) (f : Field) (v : Nat) : (s.put p c f v).xp = s.xp := rfl
@[simp] theorem put_xpOld (p c : Nat) (f : Field) (v : Nat) : (s.put p c f v).xpOld = s.xpOld := rfl
@[simp] theorem put_bank (p c : Nat) (f : Field) (v : Nat) : (s.put p c f v).bank = s.bank := rfl
@[simp] theorem put_pins (p c : Nat) (f : Field) (v : Nat) : (s.put p c f v).pins = s.pins := rfl
@[simp] theorem put_vat (p c : Nat) (f : Field) (v : Nat) : (s.put p c f v).vat = s.vat := rfl
@[simp] theorem put_frags (p c : Nat) (f : Field) (v : Nat) : (s.put p c f v).frags = s.frags := rfl
@[simp] theorem put_runs (p c : Nat) (f : Field) (v : Nat) : (s.put p c f v).runs = s.runs := rfl
@[simp] theorem put_fltLog (p c : Nat) (f : Field) (v : Nat) : (s.put p c f v).fltLog = s.fltLog := rfl
@[simp] theorem put_fltSeq (p c : Nat) (f : Field) (v : Nat) : (s.put p c f v).fltSeq = s.fltSeq := rfl
@[simp] theorem put_powerQueue (p c : Nat) (f : Field) (v : Nat) : (s.put p c f v).powerQueue = s.powerQueue := rfl
@[simp] theorem put_grants (p c : Nat) (f : Field) (v : Nat) : (s.put p c f v).grants = s.grants := rfl
@[simp] theorem put_powerPaused (p c : Nat) (f : Field) (v : Nat) : (s.put p c f v).powerPaused = s.powerPaused := rfl
@[simp] theorem put_cave (p c : Nat) (f : Field) (v : Nat) : (s.put p c f v).cave = s.cave := rfl
@[simp] theorem put_journal (p c : Nat) (f : Field) (v : Nat) : (s.put p c f v).journal = s.journal := rfl
@[simp] theorem put_caveWait (p c : Nat) (f : Field) (v : Nat) : (s.put p c f v).caveWait = s.caveWait := rfl
@[simp] theorem put_caveDirty (p c : Nat) (f : Field) (v : Nat) : (s.put p c f v).caveDirty = s.caveDirty := rfl
@[simp] theorem put_caveBase (p c : Nat) (f : Field) (v : Nat) : (s.put p c f v).caveBase = s.caveBase := rfl
@[simp] theorem put_imagesCurrent (p c : Nat) (f : Field) (v : Nat) : (s.put p c f v).imagesCurrent = s.imagesCurrent := rfl
@[simp] theorem put_profCells (p c : Nat) (f : Field) (v : Nat) : (s.put p c f v).profCells = s.profCells := rfl
@[simp] theorem put_profOp (p c : Nat) (f : Field) (v : Nat) : (s.put p c f v).profOp = s.profOp := rfl
@[simp] theorem put_profPreps (p c : Nat) (f : Field) (v : Nat) : (s.put p c f v).profPreps = s.profPreps := rfl
@[simp] theorem put_pinSel (p c : Nat) (f : Field) (v : Nat) : (s.put p c f v).pinSel = s.pinSel := rfl
@[simp] theorem put_pinQual (p c : Nat) (f : Field) (v : Nat) : (s.put p c f v).pinQual = s.pinQual := rfl
@[simp] theorem put_pinRetry (p c : Nat) (f : Field) (v : Nat) : (s.put p c f v).pinRetry = s.pinRetry := rfl
@[simp] theorem put_routeSets (p c : Nat) (f : Field) (v : Nat) : (s.put p c f v).routeSets = s.routeSets := rfl
@[simp] theorem put_rasters (p c : Nat) (f : Field) (v : Nat) : (s.put p c f v).rasters = s.rasters := rfl
@[simp] theorem put_audRuns (p c : Nat) (f : Field) (v : Nat) : (s.put p c f v).audRuns = s.audRuns := rfl
@[simp] theorem put_routes (p c : Nat) (f : Field) (v : Nat) : (s.put p c f v).routes = s.routes := rfl
@[simp] theorem put_elastic (p c : Nat) (f : Field) (v : Nat) : (s.put p c f v).elastic = s.elastic := rfl
@[simp] theorem put_embedNs (p c : Nat) (f : Field) (v : Nat) : (s.put p c f v).embedNs = s.embedNs := rfl
@[simp] theorem put_setOp (p c : Nat) (f : Field) (v : Nat) : (s.put p c f v).setOp = s.setOp := rfl
@[simp] theorem put_ashFaulted (p c : Nat) (f : Field) (v : Nat) : (s.put p c f v).ashFaulted = s.ashFaulted := rfl
@[simp] theorem put_gates (p c : Nat) (f : Field) (v : Nat) : (s.put p c f v).gates = s.gates := rfl
@[simp] theorem put_groupTail (p c : Nat) (f : Field) (v : Nat) : (s.put p c f v).groupTail = s.groupTail := rfl
@[simp] theorem put_audioBlocks (p c : Nat) (f : Field) (v : Nat) : (s.put p c f v).audioBlocks = s.audioBlocks := rfl
@[simp] theorem put_aups (p c : Nat) (f : Field) (v : Nat) : (s.put p c f v).aups = s.aups := rfl
@[simp] theorem put_rennets (p c : Nat) (f : Field) (v : Nat) : (s.put p c f v).rennets = s.rennets := rfl
@[simp] theorem put_inputs (p c : Nat) (f : Field) (v : Nat) : (s.put p c f v).inputs = s.inputs := rfl
@[simp] theorem put_syns (p c : Nat) (f : Field) (v : Nat) : (s.put p c f v).syns = s.syns := rfl
@[simp] theorem put_synDelay (p c : Nat) (f : Field) (v : Nat) : (s.put p c f v).synDelay = s.synDelay := rfl
@[simp] theorem put_sdiRx (p c : Nat) (f : Field) (v : Nat) : (s.put p c f v).sdiRx = s.sdiRx := rfl
@[simp] theorem put_rxBound (p c : Nat) (f : Field) (v : Nat) : (s.put p c f v).rxBound = s.rxBound := rfl
@[simp] theorem put_txBound (p c : Nat) (f : Field) (v : Nat) : (s.put p c f v).txBound = s.txBound := rfl
@[simp] theorem put_txClockBad (p c : Nat) (f : Field) (v : Nat) : (s.put p c f v).txClockBad = s.txClockBad := rfl
@[simp] theorem put_ancQueue (p c : Nat) (f : Field) (v : Nat) : (s.put p c f v).ancQueue = s.ancQueue := rfl
@[simp] theorem put_gyls (p c : Nat) (f : Field) (v : Nat) : (s.put p c f v).gyls = s.gyls := rfl
@[simp] theorem put_eyes (p c : Nat) (f : Field) (v : Nat) : (s.put p c f v).eyes = s.eyes := rfl
@[simp] theorem put_keySlots (p c : Nat) (f : Field) (v : Nat) : (s.put p c f v).keySlots = s.keySlots := rfl
@[simp] theorem put_pufHeld (p c : Nat) (f : Field) (v : Nat) : (s.put p c f v).pufHeld = s.pufHeld := rfl
@[simp] theorem put_pufSecret (p c : Nat) (f : Field) (v : Nat) : (s.put p c f v).pufSecret = s.pufSecret := rfl
@[simp] theorem put_keyOp (p c : Nat) (f : Field) (v : Nat) : (s.put p c f v).keyOp = s.keyOp := rfl
@[simp] theorem put_rngFailed (p c : Nat) (f : Field) (v : Nat) : (s.put p c f v).rngFailed = s.rngFailed := rfl
@[simp] theorem put_fuses (p c : Nat) (f : Field) (v : Nat) : (s.put p c f v).fuses = s.fuses := rfl
@[simp] theorem put_lcTarget (p c : Nat) (f : Field) (v : Nat) : (s.put p c f v).lcTarget = s.lcTarget := rfl
@[simp] theorem put_fwHash (p c : Nat) (f : Field) (v : Nat) : (s.put p c f v).fwHash = s.fwHash := rfl
@[simp] theorem put_ipSlots (p c : Nat) (f : Field) (v : Nat) : (s.put p c f v).ipSlots = s.ipSlots := rfl
@[simp] theorem put_saGen (p c : Nat) (f : Field) (v : Nat) : (s.put p c f v).saGen = s.saGen := rfl
@[simp] theorem put_ptp (p c : Nat) (f : Field) (v : Nat) : (s.put p c f v).ptp = s.ptp := rfl
@[simp] theorem put_rxq (p c : Nat) (f : Field) (v : Nat) : (s.put p c f v).rxq = s.rxq := rfl
@[simp] theorem put_txBuild (p c : Nat) (f : Field) (v : Nat) : (s.put p c f v).txBuild = s.txBuild := rfl
@[simp] theorem put_txq (p c : Nat) (f : Field) (v : Nat) : (s.put p c f v).txq = s.txq := rfl
@[simp] theorem put_cnvCells (p c : Nat) (f : Field) (v : Nat) : (s.put p c f v).cnvCells = s.cnvCells := rfl
@[simp] theorem put_lutLoads (p c : Nat) (f : Field) (v : Nat) : (s.put p c f v).lutLoads = s.lutLoads := rfl
@[simp] theorem put_leases (p c : Nat) (f : Field) (v : Nat) : (s.put p c f v).leases = s.leases := rfl
@[simp] theorem put_layers (p c : Nat) (f : Field) (v : Nat) : (s.put p c f v).layers = s.layers := rfl
@[simp] theorem put_bez (p c : Nat) (f : Field) (v : Nat) : (s.put p c f v).bez = s.bez := rfl
@[simp] theorem put_fabStreams (p c : Nat) (f : Field) (v : Nat) : (s.put p c f v).fabStreams = s.fabStreams := rfl
@[simp] theorem put_fabParts (p c : Nat) (f : Field) (v : Nat) : (s.put p c f v).fabParts = s.fabParts := rfl
@[simp] theorem put_fabBc (p c : Nat) (f : Field) (v : Nat) : (s.put p c f v).fabBc = s.fabBc := rfl
@[simp] theorem put_fabWindows (p c : Nat) (f : Field) (v : Nat) : (s.put p c f v).fabWindows = s.fabWindows := rfl
@[simp] theorem put_fabGens (p c : Nat) (f : Field) (v : Nat) : (s.put p c f v).fabGens = s.fabGens := rfl
@[simp] theorem put_fabRoutes (p c : Nat) (f : Field) (v : Nat) : (s.put p c f v).fabRoutes = s.fabRoutes := rfl
@[simp] theorem put_fabHello (p c : Nat) (f : Field) (v : Nat) : (s.put p c f v).fabHello = s.fabHello := rfl
@[simp] theorem put_fabDelays (p c : Nat) (f : Field) (v : Nat) : (s.put p c f v).fabDelays = s.fabDelays := rfl
@[simp] theorem put_fevtWait (p c : Nat) (f : Field) (v : Nat) : (s.put p c f v).fevtWait = s.fevtWait := rfl
@[simp] theorem put_fevtLog (p c : Nat) (f : Field) (v : Nat) : (s.put p c f v).fevtLog = s.fevtLog := rfl
@[simp] theorem put_fevtOvf (p c : Nat) (f : Field) (v : Nat) : (s.put p c f v).fevtOvf = s.fevtOvf := rfl
@[simp] theorem put_coTarget (p c : Nat) (f : Field) (v : Nat) : (s.put p c f v).coTarget = s.coTarget := rfl
@[simp] theorem put_hbLaneNs (p c : Nat) (f : Field) (v : Nat) : (s.put p c f v).hbLaneNs = s.hbLaneNs := rfl
@[simp] theorem put_hbPinNs (p c : Nat) (f : Field) (v : Nat) : (s.put p c f v).hbPinNs = s.hbPinNs := rfl
@[simp] theorem put_handOver (p c : Nat) (f : Field) (v : Nat) : (s.put p c f v).handOver = s.handOver := rfl
@[simp] theorem put_joinDue (p c : Nat) (f : Field) (v : Nat) : (s.put p c f v).joinDue = s.joinDue := rfl
@[simp] theorem put_sendFrom (p c : Nat) (f : Field) (v : Nat) : (s.put p c f v).sendFrom = s.sendFrom := rfl
@[simp] theorem put_sendUntil (p c : Nat) (f : Field) (v : Nat) : (s.put p c f v).sendUntil = s.sendUntil := rfl
@[simp] theorem put_timers (p c : Nat) (f : Field) (v : Nat) : (s.put p c f v).timers = s.timers := rfl
@[simp] theorem put_compareBad (p c : Nat) (f : Field) (v : Nat) : (s.put p c f v).compareBad = s.compareBad := rfl
@[simp] theorem put_seals (p c : Nat) (f : Field) (v : Nat) : (s.put p c f v).seals = s.seals := rfl
@[simp] theorem put_touched (p c : Nat) (f : Field) (v : Nat) : (s.put p c f v).touched = s.touched := rfl
@[simp] theorem put_waives (p c : Nat) (f : Field) (v : Nat) : (s.put p c f v).waives = s.waives := rfl
@[simp] theorem put_sealFirst (p c : Nat) (f : Field) (v : Nat) : (s.put p c f v).sealFirst = s.sealFirst := rfl
@[simp] theorem put_sealRecords (p c : Nat) (f : Field) (v : Nat) : (s.put p c f v).sealRecords = s.sealRecords := rfl
@[simp] theorem put_decisions (p c : Nat) (f : Field) (v : Nat) : (s.put p c f v).decisions = s.decisions := rfl
@[simp] theorem put_mirrorHeld (p c : Nat) (f : Field) (v : Nat) : (s.put p c f v).mirrorHeld = s.mirrorHeld := rfl
@[simp] theorem put_cvus (p c : Nat) (f : Field) (v : Nat) : (s.put p c f v).cvus = s.cvus := rfl
@[simp] theorem put_pressQueue (p c : Nat) (f : Field) (v : Nat) : (s.put p c f v).pressQueue = s.pressQueue := rfl
@[simp] theorem put_pressDone (p c : Nat) (f : Field) (v : Nat) : (s.put p c f v).pressDone = s.pressDone := rfl
@[simp] theorem put_pressOvf (p c : Nat) (f : Field) (v : Nat) : (s.put p c f v).pressOvf = s.pressOvf := rfl
@[simp] theorem put_pressJob (p c : Nat) (f : Field) (v : Nat) : (s.put p c f v).pressJob = s.pressJob := rfl
@[simp] theorem put_hbmUe (p c : Nat) (f : Field) (v : Nat) : (s.put p c f v).hbmUe = s.hbmUe := rfl
@[simp] theorem put_hbmRestore (p c : Nat) (f : Field) (v : Nat) : (s.put p c f v).hbmRestore = s.hbmRestore := rfl
@[simp] theorem put_imageBad (p c : Nat) (f : Field) (v : Nat) : (s.put p c f v).imageBad = s.imageBad := rfl
@[simp] theorem put_laneResume (p c : Nat) (f : Field) (v : Nat) : (s.put p c f v).laneResume = s.laneResume := rfl
@[simp] theorem put_cnvFaulted (p c : Nat) (f : Field) (v : Nat) : (s.put p c f v).cnvFaulted = s.cnvFaulted := rfl

/-! ### `putUnit` -/

@[simp] theorem putUnit_pending (p u : Nat) (x : CommitUnit) : (s.putUnit p u x).pending = s.pending := rfl
@[simp] theorem putUnit_now (p u : Nat) (x : CommitUnit) : (s.putUnit p u x).now = s.now := rfl
@[simp] theorem putUnit_free (p u : Nat) (x : CommitUnit) : (s.putUnit p u x).free = s.free := rfl
@[simp] theorem putUnit_regs (p u : Nat) (x : CommitUnit) : (s.putUnit p u x).regs = s.regs := rfl
@[simp] theorem putUnit_shadow (p u : Nat) (x : CommitUnit) : (s.putUnit p u x).shadow = s.shadow := rfl
@[simp] theorem putUnit_staged (p u : Nat) (x : CommitUnit) : (s.putUnit p u x).staged = s.staged := rfl
@[simp] theorem putUnit_latch (p u : Nat) (x : CommitUnit) : (s.putUnit p u x).latch = s.latch := rfl
@[simp] theorem putUnit_reply (p u : Nat) (x : CommitUnit) : (s.putUnit p u x).reply = s.reply := rfl
@[simp] theorem putUnit_out (p u : Nat) (x : CommitUnit) : (s.putUnit p u x).out = s.out := rfl
@[simp] theorem putUnit_msix (p u : Nat) (x : CommitUnit) : (s.putUnit p u x).msix = s.msix := rfl
@[simp] theorem putUnit_msixPending (p u : Nat) (x : CommitUnit) : (s.putUnit p u x).msixPending = s.msixPending := rfl
@[simp] theorem putUnit_mapMode (p u : Nat) (x : CommitUnit) : (s.putUnit p u x).mapMode = s.mapMode := rfl
@[simp] theorem putUnit_twinSide (p u : Nat) (x : CommitUnit) : (s.putUnit p u x).twinSide = s.twinSide := rfl
@[simp] theorem putUnit_thermLow (p u : Nat) (x : CommitUnit) : (s.putUnit p u x).thermLow = s.thermLow := rfl
@[simp] theorem putUnit_extest (p u : Nat) (x : CommitUnit) : (s.putUnit p u x).extest = s.extest := rfl
@[simp] theorem putUnit_coIn (p u : Nat) (x : CommitUnit) : (s.putUnit p u x).coIn = s.coIn := rfl
@[simp] theorem putUnit_coOut (p u : Nat) (x : CommitUnit) : (s.putUnit p u x).coOut = s.coOut := rfl
@[simp] theorem putUnit_hbOut (p u : Nat) (x : CommitUnit) : (s.putUnit p u x).hbOut = s.hbOut := rfl
@[simp] theorem putUnit_rennetOut (p u : Nat) (x : CommitUnit) : (s.putUnit p u x).rennetOut = s.rennetOut := rfl
@[simp] theorem putUnit_mem (p u : Nat) (x : CommitUnit) : (s.putUnit p u x).mem = s.mem := rfl
@[simp] theorem putUnit_remapPending (p u : Nat) (x : CommitUnit) : (s.putUnit p u x).remapPending = s.remapPending := rfl
@[simp] theorem putUnit_allocs (p u : Nat) (x : CommitUnit) : (s.putUnit p u x).allocs = s.allocs := rfl
@[simp] theorem putUnit_pcieUp (p u : Nat) (x : CommitUnit) : (s.putUnit p u x).pcieUp = s.pcieUp := rfl
@[simp] theorem putUnit_controlReset (p u : Nat) (x : CommitUnit) : (s.putUnit p u x).controlReset = s.controlReset := rfl
@[simp] theorem putUnit_warmReset (p u : Nat) (x : CommitUnit) : (s.putUnit p u x).warmReset = s.warmReset := rfl
@[simp] theorem putUnit_spiError (p u : Nat) (x : CommitUnit) : (s.putUnit p u x).spiError = s.spiError := rfl
@[simp] theorem putUnit_spiPending (p u : Nat) (x : CommitUnit) : (s.putUnit p u x).spiPending = s.spiPending := rfl
@[simp] theorem putUnit_spiIssued (p u : Nat) (x : CommitUnit) : (s.putUnit p u x).spiIssued = s.spiIssued := rfl
@[simp] theorem putUnit_fw (p u : Nat) (x : CommitUnit) : (s.putUnit p u x).fw = s.fw := rfl
@[simp] theorem putUnit_fwAtReset (p u : Nat) (x : CommitUnit) : (s.putUnit p u x).fwAtReset = s.fwAtReset := rfl
@[simp] theorem putUnit_hbm (p u : Nat) (x : CommitUnit) : (s.putUnit p u x).hbm = s.hbm := rfl
@[simp] theorem putUnit_hbmStored (p u : Nat) (x : CommitUnit) : (s.putUnit p u x).hbmStored = s.hbmStored := rfl
@[simp] theorem putUnit_tbs (p u : Nat) (x : CommitUnit) : (s.putUnit p u x).tbs = s.tbs := rfl
@[simp] theorem putUnit_events (p u : Nat) (x : CommitUnit) : (s.putUnit p u x).events = s.events := rfl
@[simp] theorem putUnit_evSlots (p u : Nat) (x : CommitUnit) : (s.putUnit p u x).evSlots = s.evSlots := rfl
@[simp] theorem putUnit_doneLog (p u : Nat) (x : CommitUnit) : (s.putUnit p u x).doneLog = s.doneLog := rfl
@[simp] theorem putUnit_doneOvf (p u : Nat) (x : CommitUnit) : (s.putUnit p u x).doneOvf = s.doneOvf := rfl
@[simp] theorem putUnit_salvos (p u : Nat) (x : CommitUnit) : (s.putUnit p u x).salvos = s.salvos := rfl
@[simp] theorem putUnit_salvoOp (p u : Nat) (x : CommitUnit) : (s.putUnit p u x).salvoOp = s.salvoOp := rfl
@[simp] theorem putUnit_xp (p u : Nat) (x : CommitUnit) : (s.putUnit p u x).xp = s.xp := rfl
@[simp] theorem putUnit_xpOld (p u : Nat) (x : CommitUnit) : (s.putUnit p u x).xpOld = s.xpOld := rfl
@[simp] theorem putUnit_bank (p u : Nat) (x : CommitUnit) : (s.putUnit p u x).bank = s.bank := rfl
@[simp] theorem putUnit_pins (p u : Nat) (x : CommitUnit) : (s.putUnit p u x).pins = s.pins := rfl
@[simp] theorem putUnit_vat (p u : Nat) (x : CommitUnit) : (s.putUnit p u x).vat = s.vat := rfl
@[simp] theorem putUnit_frags (p u : Nat) (x : CommitUnit) : (s.putUnit p u x).frags = s.frags := rfl
@[simp] theorem putUnit_runs (p u : Nat) (x : CommitUnit) : (s.putUnit p u x).runs = s.runs := rfl
@[simp] theorem putUnit_fltLog (p u : Nat) (x : CommitUnit) : (s.putUnit p u x).fltLog = s.fltLog := rfl
@[simp] theorem putUnit_fltSeq (p u : Nat) (x : CommitUnit) : (s.putUnit p u x).fltSeq = s.fltSeq := rfl
@[simp] theorem putUnit_powerQueue (p u : Nat) (x : CommitUnit) : (s.putUnit p u x).powerQueue = s.powerQueue := rfl
@[simp] theorem putUnit_grants (p u : Nat) (x : CommitUnit) : (s.putUnit p u x).grants = s.grants := rfl
@[simp] theorem putUnit_powerPaused (p u : Nat) (x : CommitUnit) : (s.putUnit p u x).powerPaused = s.powerPaused := rfl
@[simp] theorem putUnit_cave (p u : Nat) (x : CommitUnit) : (s.putUnit p u x).cave = s.cave := rfl
@[simp] theorem putUnit_journal (p u : Nat) (x : CommitUnit) : (s.putUnit p u x).journal = s.journal := rfl
@[simp] theorem putUnit_caveWait (p u : Nat) (x : CommitUnit) : (s.putUnit p u x).caveWait = s.caveWait := rfl
@[simp] theorem putUnit_caveDirty (p u : Nat) (x : CommitUnit) : (s.putUnit p u x).caveDirty = s.caveDirty := rfl
@[simp] theorem putUnit_caveBase (p u : Nat) (x : CommitUnit) : (s.putUnit p u x).caveBase = s.caveBase := rfl
@[simp] theorem putUnit_imagesCurrent (p u : Nat) (x : CommitUnit) : (s.putUnit p u x).imagesCurrent = s.imagesCurrent := rfl
@[simp] theorem putUnit_profCells (p u : Nat) (x : CommitUnit) : (s.putUnit p u x).profCells = s.profCells := rfl
@[simp] theorem putUnit_profOp (p u : Nat) (x : CommitUnit) : (s.putUnit p u x).profOp = s.profOp := rfl
@[simp] theorem putUnit_profPreps (p u : Nat) (x : CommitUnit) : (s.putUnit p u x).profPreps = s.profPreps := rfl
@[simp] theorem putUnit_pinSel (p u : Nat) (x : CommitUnit) : (s.putUnit p u x).pinSel = s.pinSel := rfl
@[simp] theorem putUnit_pinQual (p u : Nat) (x : CommitUnit) : (s.putUnit p u x).pinQual = s.pinQual := rfl
@[simp] theorem putUnit_pinRetry (p u : Nat) (x : CommitUnit) : (s.putUnit p u x).pinRetry = s.pinRetry := rfl
@[simp] theorem putUnit_routeSets (p u : Nat) (x : CommitUnit) : (s.putUnit p u x).routeSets = s.routeSets := rfl
@[simp] theorem putUnit_rasters (p u : Nat) (x : CommitUnit) : (s.putUnit p u x).rasters = s.rasters := rfl
@[simp] theorem putUnit_audRuns (p u : Nat) (x : CommitUnit) : (s.putUnit p u x).audRuns = s.audRuns := rfl
@[simp] theorem putUnit_routes (p u : Nat) (x : CommitUnit) : (s.putUnit p u x).routes = s.routes := rfl
@[simp] theorem putUnit_elastic (p u : Nat) (x : CommitUnit) : (s.putUnit p u x).elastic = s.elastic := rfl
@[simp] theorem putUnit_embedNs (p u : Nat) (x : CommitUnit) : (s.putUnit p u x).embedNs = s.embedNs := rfl
@[simp] theorem putUnit_setOp (p u : Nat) (x : CommitUnit) : (s.putUnit p u x).setOp = s.setOp := rfl
@[simp] theorem putUnit_ashFaulted (p u : Nat) (x : CommitUnit) : (s.putUnit p u x).ashFaulted = s.ashFaulted := rfl
@[simp] theorem putUnit_gates (p u : Nat) (x : CommitUnit) : (s.putUnit p u x).gates = s.gates := rfl
@[simp] theorem putUnit_groupTail (p u : Nat) (x : CommitUnit) : (s.putUnit p u x).groupTail = s.groupTail := rfl
@[simp] theorem putUnit_audioBlocks (p u : Nat) (x : CommitUnit) : (s.putUnit p u x).audioBlocks = s.audioBlocks := rfl
@[simp] theorem putUnit_aups (p u : Nat) (x : CommitUnit) : (s.putUnit p u x).aups = s.aups := rfl
@[simp] theorem putUnit_rennets (p u : Nat) (x : CommitUnit) : (s.putUnit p u x).rennets = s.rennets := rfl
@[simp] theorem putUnit_inputs (p u : Nat) (x : CommitUnit) : (s.putUnit p u x).inputs = s.inputs := rfl
@[simp] theorem putUnit_syns (p u : Nat) (x : CommitUnit) : (s.putUnit p u x).syns = s.syns := rfl
@[simp] theorem putUnit_synDelay (p u : Nat) (x : CommitUnit) : (s.putUnit p u x).synDelay = s.synDelay := rfl
@[simp] theorem putUnit_sdiRx (p u : Nat) (x : CommitUnit) : (s.putUnit p u x).sdiRx = s.sdiRx := rfl
@[simp] theorem putUnit_rxBound (p u : Nat) (x : CommitUnit) : (s.putUnit p u x).rxBound = s.rxBound := rfl
@[simp] theorem putUnit_txBound (p u : Nat) (x : CommitUnit) : (s.putUnit p u x).txBound = s.txBound := rfl
@[simp] theorem putUnit_txClockBad (p u : Nat) (x : CommitUnit) : (s.putUnit p u x).txClockBad = s.txClockBad := rfl
@[simp] theorem putUnit_ancQueue (p u : Nat) (x : CommitUnit) : (s.putUnit p u x).ancQueue = s.ancQueue := rfl
@[simp] theorem putUnit_gyls (p u : Nat) (x : CommitUnit) : (s.putUnit p u x).gyls = s.gyls := rfl
@[simp] theorem putUnit_eyes (p u : Nat) (x : CommitUnit) : (s.putUnit p u x).eyes = s.eyes := rfl
@[simp] theorem putUnit_keySlots (p u : Nat) (x : CommitUnit) : (s.putUnit p u x).keySlots = s.keySlots := rfl
@[simp] theorem putUnit_pufHeld (p u : Nat) (x : CommitUnit) : (s.putUnit p u x).pufHeld = s.pufHeld := rfl
@[simp] theorem putUnit_pufSecret (p u : Nat) (x : CommitUnit) : (s.putUnit p u x).pufSecret = s.pufSecret := rfl
@[simp] theorem putUnit_keyOp (p u : Nat) (x : CommitUnit) : (s.putUnit p u x).keyOp = s.keyOp := rfl
@[simp] theorem putUnit_rngFailed (p u : Nat) (x : CommitUnit) : (s.putUnit p u x).rngFailed = s.rngFailed := rfl
@[simp] theorem putUnit_fuses (p u : Nat) (x : CommitUnit) : (s.putUnit p u x).fuses = s.fuses := rfl
@[simp] theorem putUnit_lcTarget (p u : Nat) (x : CommitUnit) : (s.putUnit p u x).lcTarget = s.lcTarget := rfl
@[simp] theorem putUnit_fwHash (p u : Nat) (x : CommitUnit) : (s.putUnit p u x).fwHash = s.fwHash := rfl
@[simp] theorem putUnit_ipSlots (p u : Nat) (x : CommitUnit) : (s.putUnit p u x).ipSlots = s.ipSlots := rfl
@[simp] theorem putUnit_saGen (p u : Nat) (x : CommitUnit) : (s.putUnit p u x).saGen = s.saGen := rfl
@[simp] theorem putUnit_ptp (p u : Nat) (x : CommitUnit) : (s.putUnit p u x).ptp = s.ptp := rfl
@[simp] theorem putUnit_rxq (p u : Nat) (x : CommitUnit) : (s.putUnit p u x).rxq = s.rxq := rfl
@[simp] theorem putUnit_txBuild (p u : Nat) (x : CommitUnit) : (s.putUnit p u x).txBuild = s.txBuild := rfl
@[simp] theorem putUnit_txq (p u : Nat) (x : CommitUnit) : (s.putUnit p u x).txq = s.txq := rfl
@[simp] theorem putUnit_cnvCells (p u : Nat) (x : CommitUnit) : (s.putUnit p u x).cnvCells = s.cnvCells := rfl
@[simp] theorem putUnit_lutLoads (p u : Nat) (x : CommitUnit) : (s.putUnit p u x).lutLoads = s.lutLoads := rfl
@[simp] theorem putUnit_leases (p u : Nat) (x : CommitUnit) : (s.putUnit p u x).leases = s.leases := rfl
@[simp] theorem putUnit_layers (p u : Nat) (x : CommitUnit) : (s.putUnit p u x).layers = s.layers := rfl
@[simp] theorem putUnit_bez (p u : Nat) (x : CommitUnit) : (s.putUnit p u x).bez = s.bez := rfl
@[simp] theorem putUnit_fabStreams (p u : Nat) (x : CommitUnit) : (s.putUnit p u x).fabStreams = s.fabStreams := rfl
@[simp] theorem putUnit_fabParts (p u : Nat) (x : CommitUnit) : (s.putUnit p u x).fabParts = s.fabParts := rfl
@[simp] theorem putUnit_fabBc (p u : Nat) (x : CommitUnit) : (s.putUnit p u x).fabBc = s.fabBc := rfl
@[simp] theorem putUnit_fabWindows (p u : Nat) (x : CommitUnit) : (s.putUnit p u x).fabWindows = s.fabWindows := rfl
@[simp] theorem putUnit_fabGens (p u : Nat) (x : CommitUnit) : (s.putUnit p u x).fabGens = s.fabGens := rfl
@[simp] theorem putUnit_fabRoutes (p u : Nat) (x : CommitUnit) : (s.putUnit p u x).fabRoutes = s.fabRoutes := rfl
@[simp] theorem putUnit_fabHello (p u : Nat) (x : CommitUnit) : (s.putUnit p u x).fabHello = s.fabHello := rfl
@[simp] theorem putUnit_fabDelays (p u : Nat) (x : CommitUnit) : (s.putUnit p u x).fabDelays = s.fabDelays := rfl
@[simp] theorem putUnit_fevtWait (p u : Nat) (x : CommitUnit) : (s.putUnit p u x).fevtWait = s.fevtWait := rfl
@[simp] theorem putUnit_fevtLog (p u : Nat) (x : CommitUnit) : (s.putUnit p u x).fevtLog = s.fevtLog := rfl
@[simp] theorem putUnit_fevtOvf (p u : Nat) (x : CommitUnit) : (s.putUnit p u x).fevtOvf = s.fevtOvf := rfl
@[simp] theorem putUnit_coTarget (p u : Nat) (x : CommitUnit) : (s.putUnit p u x).coTarget = s.coTarget := rfl
@[simp] theorem putUnit_hbLaneNs (p u : Nat) (x : CommitUnit) : (s.putUnit p u x).hbLaneNs = s.hbLaneNs := rfl
@[simp] theorem putUnit_hbPinNs (p u : Nat) (x : CommitUnit) : (s.putUnit p u x).hbPinNs = s.hbPinNs := rfl
@[simp] theorem putUnit_handOver (p u : Nat) (x : CommitUnit) : (s.putUnit p u x).handOver = s.handOver := rfl
@[simp] theorem putUnit_joinDue (p u : Nat) (x : CommitUnit) : (s.putUnit p u x).joinDue = s.joinDue := rfl
@[simp] theorem putUnit_sendFrom (p u : Nat) (x : CommitUnit) : (s.putUnit p u x).sendFrom = s.sendFrom := rfl
@[simp] theorem putUnit_sendUntil (p u : Nat) (x : CommitUnit) : (s.putUnit p u x).sendUntil = s.sendUntil := rfl
@[simp] theorem putUnit_timers (p u : Nat) (x : CommitUnit) : (s.putUnit p u x).timers = s.timers := rfl
@[simp] theorem putUnit_compareBad (p u : Nat) (x : CommitUnit) : (s.putUnit p u x).compareBad = s.compareBad := rfl
@[simp] theorem putUnit_seals (p u : Nat) (x : CommitUnit) : (s.putUnit p u x).seals = s.seals := rfl
@[simp] theorem putUnit_touched (p u : Nat) (x : CommitUnit) : (s.putUnit p u x).touched = s.touched := rfl
@[simp] theorem putUnit_waives (p u : Nat) (x : CommitUnit) : (s.putUnit p u x).waives = s.waives := rfl
@[simp] theorem putUnit_sealFirst (p u : Nat) (x : CommitUnit) : (s.putUnit p u x).sealFirst = s.sealFirst := rfl
@[simp] theorem putUnit_sealRecords (p u : Nat) (x : CommitUnit) : (s.putUnit p u x).sealRecords = s.sealRecords := rfl
@[simp] theorem putUnit_decisions (p u : Nat) (x : CommitUnit) : (s.putUnit p u x).decisions = s.decisions := rfl
@[simp] theorem putUnit_mirrorHeld (p u : Nat) (x : CommitUnit) : (s.putUnit p u x).mirrorHeld = s.mirrorHeld := rfl
@[simp] theorem putUnit_cvus (p u : Nat) (x : CommitUnit) : (s.putUnit p u x).cvus = s.cvus := rfl
@[simp] theorem putUnit_pressQueue (p u : Nat) (x : CommitUnit) : (s.putUnit p u x).pressQueue = s.pressQueue := rfl
@[simp] theorem putUnit_pressDone (p u : Nat) (x : CommitUnit) : (s.putUnit p u x).pressDone = s.pressDone := rfl
@[simp] theorem putUnit_pressOvf (p u : Nat) (x : CommitUnit) : (s.putUnit p u x).pressOvf = s.pressOvf := rfl
@[simp] theorem putUnit_pressJob (p u : Nat) (x : CommitUnit) : (s.putUnit p u x).pressJob = s.pressJob := rfl
@[simp] theorem putUnit_hbmUe (p u : Nat) (x : CommitUnit) : (s.putUnit p u x).hbmUe = s.hbmUe := rfl
@[simp] theorem putUnit_hbmRestore (p u : Nat) (x : CommitUnit) : (s.putUnit p u x).hbmRestore = s.hbmRestore := rfl
@[simp] theorem putUnit_imageBad (p u : Nat) (x : CommitUnit) : (s.putUnit p u x).imageBad = s.imageBad := rfl
@[simp] theorem putUnit_laneResume (p u : Nat) (x : CommitUnit) : (s.putUnit p u x).laneResume = s.laneResume := rfl
@[simp] theorem putUnit_cnvFaulted (p u : Nat) (x : CommitUnit) : (s.putUnit p u x).cnvFaulted = s.cnvFaulted := rfl

/-! ### `putTb` -/

@[simp] theorem putTb_pending (k : Nat) (t : Timebase) : (s.putTb k t).pending = s.pending := rfl
@[simp] theorem putTb_now (k : Nat) (t : Timebase) : (s.putTb k t).now = s.now := rfl
@[simp] theorem putTb_free (k : Nat) (t : Timebase) : (s.putTb k t).free = s.free := rfl
@[simp] theorem putTb_regs (k : Nat) (t : Timebase) : (s.putTb k t).regs = s.regs := rfl
@[simp] theorem putTb_shadow (k : Nat) (t : Timebase) : (s.putTb k t).shadow = s.shadow := rfl
@[simp] theorem putTb_staged (k : Nat) (t : Timebase) : (s.putTb k t).staged = s.staged := rfl
@[simp] theorem putTb_units (k : Nat) (t : Timebase) : (s.putTb k t).units = s.units := rfl
@[simp] theorem putTb_latch (k : Nat) (t : Timebase) : (s.putTb k t).latch = s.latch := rfl
@[simp] theorem putTb_reply (k : Nat) (t : Timebase) : (s.putTb k t).reply = s.reply := rfl
@[simp] theorem putTb_out (k : Nat) (t : Timebase) : (s.putTb k t).out = s.out := rfl
@[simp] theorem putTb_msix (k : Nat) (t : Timebase) : (s.putTb k t).msix = s.msix := rfl
@[simp] theorem putTb_msixPending (k : Nat) (t : Timebase) : (s.putTb k t).msixPending = s.msixPending := rfl
@[simp] theorem putTb_mapMode (k : Nat) (t : Timebase) : (s.putTb k t).mapMode = s.mapMode := rfl
@[simp] theorem putTb_twinSide (k : Nat) (t : Timebase) : (s.putTb k t).twinSide = s.twinSide := rfl
@[simp] theorem putTb_thermLow (k : Nat) (t : Timebase) : (s.putTb k t).thermLow = s.thermLow := rfl
@[simp] theorem putTb_extest (k : Nat) (t : Timebase) : (s.putTb k t).extest = s.extest := rfl
@[simp] theorem putTb_coIn (k : Nat) (t : Timebase) : (s.putTb k t).coIn = s.coIn := rfl
@[simp] theorem putTb_coOut (k : Nat) (t : Timebase) : (s.putTb k t).coOut = s.coOut := rfl
@[simp] theorem putTb_hbOut (k : Nat) (t : Timebase) : (s.putTb k t).hbOut = s.hbOut := rfl
@[simp] theorem putTb_rennetOut (k : Nat) (t : Timebase) : (s.putTb k t).rennetOut = s.rennetOut := rfl
@[simp] theorem putTb_mem (k : Nat) (t : Timebase) : (s.putTb k t).mem = s.mem := rfl
@[simp] theorem putTb_remapPending (k : Nat) (t : Timebase) : (s.putTb k t).remapPending = s.remapPending := rfl
@[simp] theorem putTb_allocs (k : Nat) (t : Timebase) : (s.putTb k t).allocs = s.allocs := rfl
@[simp] theorem putTb_pcieUp (k : Nat) (t : Timebase) : (s.putTb k t).pcieUp = s.pcieUp := rfl
@[simp] theorem putTb_controlReset (k : Nat) (t : Timebase) : (s.putTb k t).controlReset = s.controlReset := rfl
@[simp] theorem putTb_warmReset (k : Nat) (t : Timebase) : (s.putTb k t).warmReset = s.warmReset := rfl
@[simp] theorem putTb_spiError (k : Nat) (t : Timebase) : (s.putTb k t).spiError = s.spiError := rfl
@[simp] theorem putTb_spiPending (k : Nat) (t : Timebase) : (s.putTb k t).spiPending = s.spiPending := rfl
@[simp] theorem putTb_spiIssued (k : Nat) (t : Timebase) : (s.putTb k t).spiIssued = s.spiIssued := rfl
@[simp] theorem putTb_fw (k : Nat) (t : Timebase) : (s.putTb k t).fw = s.fw := rfl
@[simp] theorem putTb_fwAtReset (k : Nat) (t : Timebase) : (s.putTb k t).fwAtReset = s.fwAtReset := rfl
@[simp] theorem putTb_hbm (k : Nat) (t : Timebase) : (s.putTb k t).hbm = s.hbm := rfl
@[simp] theorem putTb_hbmStored (k : Nat) (t : Timebase) : (s.putTb k t).hbmStored = s.hbmStored := rfl
@[simp] theorem putTb_events (k : Nat) (t : Timebase) : (s.putTb k t).events = s.events := rfl
@[simp] theorem putTb_evSlots (k : Nat) (t : Timebase) : (s.putTb k t).evSlots = s.evSlots := rfl
@[simp] theorem putTb_doneLog (k : Nat) (t : Timebase) : (s.putTb k t).doneLog = s.doneLog := rfl
@[simp] theorem putTb_doneOvf (k : Nat) (t : Timebase) : (s.putTb k t).doneOvf = s.doneOvf := rfl
@[simp] theorem putTb_salvos (k : Nat) (t : Timebase) : (s.putTb k t).salvos = s.salvos := rfl
@[simp] theorem putTb_salvoOp (k : Nat) (t : Timebase) : (s.putTb k t).salvoOp = s.salvoOp := rfl
@[simp] theorem putTb_xp (k : Nat) (t : Timebase) : (s.putTb k t).xp = s.xp := rfl
@[simp] theorem putTb_xpOld (k : Nat) (t : Timebase) : (s.putTb k t).xpOld = s.xpOld := rfl
@[simp] theorem putTb_bank (k : Nat) (t : Timebase) : (s.putTb k t).bank = s.bank := rfl
@[simp] theorem putTb_pins (k : Nat) (t : Timebase) : (s.putTb k t).pins = s.pins := rfl
@[simp] theorem putTb_vat (k : Nat) (t : Timebase) : (s.putTb k t).vat = s.vat := rfl
@[simp] theorem putTb_frags (k : Nat) (t : Timebase) : (s.putTb k t).frags = s.frags := rfl
@[simp] theorem putTb_runs (k : Nat) (t : Timebase) : (s.putTb k t).runs = s.runs := rfl
@[simp] theorem putTb_fltLog (k : Nat) (t : Timebase) : (s.putTb k t).fltLog = s.fltLog := rfl
@[simp] theorem putTb_fltSeq (k : Nat) (t : Timebase) : (s.putTb k t).fltSeq = s.fltSeq := rfl
@[simp] theorem putTb_powerQueue (k : Nat) (t : Timebase) : (s.putTb k t).powerQueue = s.powerQueue := rfl
@[simp] theorem putTb_grants (k : Nat) (t : Timebase) : (s.putTb k t).grants = s.grants := rfl
@[simp] theorem putTb_powerPaused (k : Nat) (t : Timebase) : (s.putTb k t).powerPaused = s.powerPaused := rfl
@[simp] theorem putTb_cave (k : Nat) (t : Timebase) : (s.putTb k t).cave = s.cave := rfl
@[simp] theorem putTb_journal (k : Nat) (t : Timebase) : (s.putTb k t).journal = s.journal := rfl
@[simp] theorem putTb_caveWait (k : Nat) (t : Timebase) : (s.putTb k t).caveWait = s.caveWait := rfl
@[simp] theorem putTb_caveDirty (k : Nat) (t : Timebase) : (s.putTb k t).caveDirty = s.caveDirty := rfl
@[simp] theorem putTb_caveBase (k : Nat) (t : Timebase) : (s.putTb k t).caveBase = s.caveBase := rfl
@[simp] theorem putTb_imagesCurrent (k : Nat) (t : Timebase) : (s.putTb k t).imagesCurrent = s.imagesCurrent := rfl
@[simp] theorem putTb_profCells (k : Nat) (t : Timebase) : (s.putTb k t).profCells = s.profCells := rfl
@[simp] theorem putTb_profOp (k : Nat) (t : Timebase) : (s.putTb k t).profOp = s.profOp := rfl
@[simp] theorem putTb_profPreps (k : Nat) (t : Timebase) : (s.putTb k t).profPreps = s.profPreps := rfl
@[simp] theorem putTb_pinSel (k : Nat) (t : Timebase) : (s.putTb k t).pinSel = s.pinSel := rfl
@[simp] theorem putTb_pinQual (k : Nat) (t : Timebase) : (s.putTb k t).pinQual = s.pinQual := rfl
@[simp] theorem putTb_pinRetry (k : Nat) (t : Timebase) : (s.putTb k t).pinRetry = s.pinRetry := rfl
@[simp] theorem putTb_routeSets (k : Nat) (t : Timebase) : (s.putTb k t).routeSets = s.routeSets := rfl
@[simp] theorem putTb_rasters (k : Nat) (t : Timebase) : (s.putTb k t).rasters = s.rasters := rfl
@[simp] theorem putTb_audRuns (k : Nat) (t : Timebase) : (s.putTb k t).audRuns = s.audRuns := rfl
@[simp] theorem putTb_routes (k : Nat) (t : Timebase) : (s.putTb k t).routes = s.routes := rfl
@[simp] theorem putTb_elastic (k : Nat) (t : Timebase) : (s.putTb k t).elastic = s.elastic := rfl
@[simp] theorem putTb_embedNs (k : Nat) (t : Timebase) : (s.putTb k t).embedNs = s.embedNs := rfl
@[simp] theorem putTb_setOp (k : Nat) (t : Timebase) : (s.putTb k t).setOp = s.setOp := rfl
@[simp] theorem putTb_ashFaulted (k : Nat) (t : Timebase) : (s.putTb k t).ashFaulted = s.ashFaulted := rfl
@[simp] theorem putTb_gates (k : Nat) (t : Timebase) : (s.putTb k t).gates = s.gates := rfl
@[simp] theorem putTb_groupTail (k : Nat) (t : Timebase) : (s.putTb k t).groupTail = s.groupTail := rfl
@[simp] theorem putTb_audioBlocks (k : Nat) (t : Timebase) : (s.putTb k t).audioBlocks = s.audioBlocks := rfl
@[simp] theorem putTb_aups (k : Nat) (t : Timebase) : (s.putTb k t).aups = s.aups := rfl
@[simp] theorem putTb_rennets (k : Nat) (t : Timebase) : (s.putTb k t).rennets = s.rennets := rfl
@[simp] theorem putTb_inputs (k : Nat) (t : Timebase) : (s.putTb k t).inputs = s.inputs := rfl
@[simp] theorem putTb_syns (k : Nat) (t : Timebase) : (s.putTb k t).syns = s.syns := rfl
@[simp] theorem putTb_synDelay (k : Nat) (t : Timebase) : (s.putTb k t).synDelay = s.synDelay := rfl
@[simp] theorem putTb_sdiRx (k : Nat) (t : Timebase) : (s.putTb k t).sdiRx = s.sdiRx := rfl
@[simp] theorem putTb_rxBound (k : Nat) (t : Timebase) : (s.putTb k t).rxBound = s.rxBound := rfl
@[simp] theorem putTb_txBound (k : Nat) (t : Timebase) : (s.putTb k t).txBound = s.txBound := rfl
@[simp] theorem putTb_txClockBad (k : Nat) (t : Timebase) : (s.putTb k t).txClockBad = s.txClockBad := rfl
@[simp] theorem putTb_ancQueue (k : Nat) (t : Timebase) : (s.putTb k t).ancQueue = s.ancQueue := rfl
@[simp] theorem putTb_gyls (k : Nat) (t : Timebase) : (s.putTb k t).gyls = s.gyls := rfl
@[simp] theorem putTb_eyes (k : Nat) (t : Timebase) : (s.putTb k t).eyes = s.eyes := rfl
@[simp] theorem putTb_keySlots (k : Nat) (t : Timebase) : (s.putTb k t).keySlots = s.keySlots := rfl
@[simp] theorem putTb_pufHeld (k : Nat) (t : Timebase) : (s.putTb k t).pufHeld = s.pufHeld := rfl
@[simp] theorem putTb_pufSecret (k : Nat) (t : Timebase) : (s.putTb k t).pufSecret = s.pufSecret := rfl
@[simp] theorem putTb_keyOp (k : Nat) (t : Timebase) : (s.putTb k t).keyOp = s.keyOp := rfl
@[simp] theorem putTb_rngFailed (k : Nat) (t : Timebase) : (s.putTb k t).rngFailed = s.rngFailed := rfl
@[simp] theorem putTb_fuses (k : Nat) (t : Timebase) : (s.putTb k t).fuses = s.fuses := rfl
@[simp] theorem putTb_lcTarget (k : Nat) (t : Timebase) : (s.putTb k t).lcTarget = s.lcTarget := rfl
@[simp] theorem putTb_fwHash (k : Nat) (t : Timebase) : (s.putTb k t).fwHash = s.fwHash := rfl
@[simp] theorem putTb_ipSlots (k : Nat) (t : Timebase) : (s.putTb k t).ipSlots = s.ipSlots := rfl
@[simp] theorem putTb_saGen (k : Nat) (t : Timebase) : (s.putTb k t).saGen = s.saGen := rfl
@[simp] theorem putTb_ptp (k : Nat) (t : Timebase) : (s.putTb k t).ptp = s.ptp := rfl
@[simp] theorem putTb_rxq (k : Nat) (t : Timebase) : (s.putTb k t).rxq = s.rxq := rfl
@[simp] theorem putTb_txBuild (k : Nat) (t : Timebase) : (s.putTb k t).txBuild = s.txBuild := rfl
@[simp] theorem putTb_txq (k : Nat) (t : Timebase) : (s.putTb k t).txq = s.txq := rfl
@[simp] theorem putTb_cnvCells (k : Nat) (t : Timebase) : (s.putTb k t).cnvCells = s.cnvCells := rfl
@[simp] theorem putTb_lutLoads (k : Nat) (t : Timebase) : (s.putTb k t).lutLoads = s.lutLoads := rfl
@[simp] theorem putTb_leases (k : Nat) (t : Timebase) : (s.putTb k t).leases = s.leases := rfl
@[simp] theorem putTb_layers (k : Nat) (t : Timebase) : (s.putTb k t).layers = s.layers := rfl
@[simp] theorem putTb_bez (k : Nat) (t : Timebase) : (s.putTb k t).bez = s.bez := rfl
@[simp] theorem putTb_fabStreams (k : Nat) (t : Timebase) : (s.putTb k t).fabStreams = s.fabStreams := rfl
@[simp] theorem putTb_fabParts (k : Nat) (t : Timebase) : (s.putTb k t).fabParts = s.fabParts := rfl
@[simp] theorem putTb_fabBc (k : Nat) (t : Timebase) : (s.putTb k t).fabBc = s.fabBc := rfl
@[simp] theorem putTb_fabWindows (k : Nat) (t : Timebase) : (s.putTb k t).fabWindows = s.fabWindows := rfl
@[simp] theorem putTb_fabGens (k : Nat) (t : Timebase) : (s.putTb k t).fabGens = s.fabGens := rfl
@[simp] theorem putTb_fabRoutes (k : Nat) (t : Timebase) : (s.putTb k t).fabRoutes = s.fabRoutes := rfl
@[simp] theorem putTb_fabHello (k : Nat) (t : Timebase) : (s.putTb k t).fabHello = s.fabHello := rfl
@[simp] theorem putTb_fabDelays (k : Nat) (t : Timebase) : (s.putTb k t).fabDelays = s.fabDelays := rfl
@[simp] theorem putTb_fevtWait (k : Nat) (t : Timebase) : (s.putTb k t).fevtWait = s.fevtWait := rfl
@[simp] theorem putTb_fevtLog (k : Nat) (t : Timebase) : (s.putTb k t).fevtLog = s.fevtLog := rfl
@[simp] theorem putTb_fevtOvf (k : Nat) (t : Timebase) : (s.putTb k t).fevtOvf = s.fevtOvf := rfl
@[simp] theorem putTb_coTarget (k : Nat) (t : Timebase) : (s.putTb k t).coTarget = s.coTarget := rfl
@[simp] theorem putTb_hbLaneNs (k : Nat) (t : Timebase) : (s.putTb k t).hbLaneNs = s.hbLaneNs := rfl
@[simp] theorem putTb_hbPinNs (k : Nat) (t : Timebase) : (s.putTb k t).hbPinNs = s.hbPinNs := rfl
@[simp] theorem putTb_handOver (k : Nat) (t : Timebase) : (s.putTb k t).handOver = s.handOver := rfl
@[simp] theorem putTb_joinDue (k : Nat) (t : Timebase) : (s.putTb k t).joinDue = s.joinDue := rfl
@[simp] theorem putTb_sendFrom (k : Nat) (t : Timebase) : (s.putTb k t).sendFrom = s.sendFrom := rfl
@[simp] theorem putTb_sendUntil (k : Nat) (t : Timebase) : (s.putTb k t).sendUntil = s.sendUntil := rfl
@[simp] theorem putTb_timers (k : Nat) (t : Timebase) : (s.putTb k t).timers = s.timers := rfl
@[simp] theorem putTb_compareBad (k : Nat) (t : Timebase) : (s.putTb k t).compareBad = s.compareBad := rfl
@[simp] theorem putTb_seals (k : Nat) (t : Timebase) : (s.putTb k t).seals = s.seals := rfl
@[simp] theorem putTb_touched (k : Nat) (t : Timebase) : (s.putTb k t).touched = s.touched := rfl
@[simp] theorem putTb_waives (k : Nat) (t : Timebase) : (s.putTb k t).waives = s.waives := rfl
@[simp] theorem putTb_sealFirst (k : Nat) (t : Timebase) : (s.putTb k t).sealFirst = s.sealFirst := rfl
@[simp] theorem putTb_sealRecords (k : Nat) (t : Timebase) : (s.putTb k t).sealRecords = s.sealRecords := rfl
@[simp] theorem putTb_decisions (k : Nat) (t : Timebase) : (s.putTb k t).decisions = s.decisions := rfl
@[simp] theorem putTb_mirrorHeld (k : Nat) (t : Timebase) : (s.putTb k t).mirrorHeld = s.mirrorHeld := rfl
@[simp] theorem putTb_cvus (k : Nat) (t : Timebase) : (s.putTb k t).cvus = s.cvus := rfl
@[simp] theorem putTb_pressQueue (k : Nat) (t : Timebase) : (s.putTb k t).pressQueue = s.pressQueue := rfl
@[simp] theorem putTb_pressDone (k : Nat) (t : Timebase) : (s.putTb k t).pressDone = s.pressDone := rfl
@[simp] theorem putTb_pressOvf (k : Nat) (t : Timebase) : (s.putTb k t).pressOvf = s.pressOvf := rfl
@[simp] theorem putTb_pressJob (k : Nat) (t : Timebase) : (s.putTb k t).pressJob = s.pressJob := rfl
@[simp] theorem putTb_hbmUe (k : Nat) (t : Timebase) : (s.putTb k t).hbmUe = s.hbmUe := rfl
@[simp] theorem putTb_hbmRestore (k : Nat) (t : Timebase) : (s.putTb k t).hbmRestore = s.hbmRestore := rfl
@[simp] theorem putTb_imageBad (k : Nat) (t : Timebase) : (s.putTb k t).imageBad = s.imageBad := rfl
@[simp] theorem putTb_laneResume (k : Nat) (t : Timebase) : (s.putTb k t).laneResume = s.laneResume := rfl
@[simp] theorem putTb_cnvFaulted (k : Nat) (t : Timebase) : (s.putTb k t).cnvFaulted = s.cnvFaulted := rfl

/-! ### `emit` -/

@[simp] theorem emit_pending (o : Out) : (s.emit o).pending = s.pending := rfl
@[simp] theorem emit_now (o : Out) : (s.emit o).now = s.now := rfl
@[simp] theorem emit_free (o : Out) : (s.emit o).free = s.free := rfl
@[simp] theorem emit_regs (o : Out) : (s.emit o).regs = s.regs := rfl
@[simp] theorem emit_shadow (o : Out) : (s.emit o).shadow = s.shadow := rfl
@[simp] theorem emit_staged (o : Out) : (s.emit o).staged = s.staged := rfl
@[simp] theorem emit_units (o : Out) : (s.emit o).units = s.units := rfl
@[simp] theorem emit_latch (o : Out) : (s.emit o).latch = s.latch := rfl
@[simp] theorem emit_reply (o : Out) : (s.emit o).reply = s.reply := rfl
@[simp] theorem emit_msix (o : Out) : (s.emit o).msix = s.msix := rfl
@[simp] theorem emit_msixPending (o : Out) : (s.emit o).msixPending = s.msixPending := rfl
@[simp] theorem emit_mapMode (o : Out) : (s.emit o).mapMode = s.mapMode := rfl
@[simp] theorem emit_twinSide (o : Out) : (s.emit o).twinSide = s.twinSide := rfl
@[simp] theorem emit_thermLow (o : Out) : (s.emit o).thermLow = s.thermLow := rfl
@[simp] theorem emit_extest (o : Out) : (s.emit o).extest = s.extest := rfl
@[simp] theorem emit_coIn (o : Out) : (s.emit o).coIn = s.coIn := rfl
@[simp] theorem emit_coOut (o : Out) : (s.emit o).coOut = s.coOut := rfl
@[simp] theorem emit_hbOut (o : Out) : (s.emit o).hbOut = s.hbOut := rfl
@[simp] theorem emit_rennetOut (o : Out) : (s.emit o).rennetOut = s.rennetOut := rfl
@[simp] theorem emit_mem (o : Out) : (s.emit o).mem = s.mem := rfl
@[simp] theorem emit_remapPending (o : Out) : (s.emit o).remapPending = s.remapPending := rfl
@[simp] theorem emit_allocs (o : Out) : (s.emit o).allocs = s.allocs := rfl
@[simp] theorem emit_pcieUp (o : Out) : (s.emit o).pcieUp = s.pcieUp := rfl
@[simp] theorem emit_controlReset (o : Out) : (s.emit o).controlReset = s.controlReset := rfl
@[simp] theorem emit_warmReset (o : Out) : (s.emit o).warmReset = s.warmReset := rfl
@[simp] theorem emit_spiError (o : Out) : (s.emit o).spiError = s.spiError := rfl
@[simp] theorem emit_spiPending (o : Out) : (s.emit o).spiPending = s.spiPending := rfl
@[simp] theorem emit_spiIssued (o : Out) : (s.emit o).spiIssued = s.spiIssued := rfl
@[simp] theorem emit_fw (o : Out) : (s.emit o).fw = s.fw := rfl
@[simp] theorem emit_fwAtReset (o : Out) : (s.emit o).fwAtReset = s.fwAtReset := rfl
@[simp] theorem emit_hbm (o : Out) : (s.emit o).hbm = s.hbm := rfl
@[simp] theorem emit_hbmStored (o : Out) : (s.emit o).hbmStored = s.hbmStored := rfl
@[simp] theorem emit_tbs (o : Out) : (s.emit o).tbs = s.tbs := rfl
@[simp] theorem emit_events (o : Out) : (s.emit o).events = s.events := rfl
@[simp] theorem emit_evSlots (o : Out) : (s.emit o).evSlots = s.evSlots := rfl
@[simp] theorem emit_doneLog (o : Out) : (s.emit o).doneLog = s.doneLog := rfl
@[simp] theorem emit_doneOvf (o : Out) : (s.emit o).doneOvf = s.doneOvf := rfl
@[simp] theorem emit_salvos (o : Out) : (s.emit o).salvos = s.salvos := rfl
@[simp] theorem emit_salvoOp (o : Out) : (s.emit o).salvoOp = s.salvoOp := rfl
@[simp] theorem emit_xp (o : Out) : (s.emit o).xp = s.xp := rfl
@[simp] theorem emit_xpOld (o : Out) : (s.emit o).xpOld = s.xpOld := rfl
@[simp] theorem emit_bank (o : Out) : (s.emit o).bank = s.bank := rfl
@[simp] theorem emit_pins (o : Out) : (s.emit o).pins = s.pins := rfl
@[simp] theorem emit_vat (o : Out) : (s.emit o).vat = s.vat := rfl
@[simp] theorem emit_frags (o : Out) : (s.emit o).frags = s.frags := rfl
@[simp] theorem emit_runs (o : Out) : (s.emit o).runs = s.runs := rfl
@[simp] theorem emit_fltLog (o : Out) : (s.emit o).fltLog = s.fltLog := rfl
@[simp] theorem emit_fltSeq (o : Out) : (s.emit o).fltSeq = s.fltSeq := rfl
@[simp] theorem emit_powerQueue (o : Out) : (s.emit o).powerQueue = s.powerQueue := rfl
@[simp] theorem emit_grants (o : Out) : (s.emit o).grants = s.grants := rfl
@[simp] theorem emit_powerPaused (o : Out) : (s.emit o).powerPaused = s.powerPaused := rfl
@[simp] theorem emit_cave (o : Out) : (s.emit o).cave = s.cave := rfl
@[simp] theorem emit_journal (o : Out) : (s.emit o).journal = s.journal := rfl
@[simp] theorem emit_caveWait (o : Out) : (s.emit o).caveWait = s.caveWait := rfl
@[simp] theorem emit_caveDirty (o : Out) : (s.emit o).caveDirty = s.caveDirty := rfl
@[simp] theorem emit_caveBase (o : Out) : (s.emit o).caveBase = s.caveBase := rfl
@[simp] theorem emit_imagesCurrent (o : Out) : (s.emit o).imagesCurrent = s.imagesCurrent := rfl
@[simp] theorem emit_profCells (o : Out) : (s.emit o).profCells = s.profCells := rfl
@[simp] theorem emit_profOp (o : Out) : (s.emit o).profOp = s.profOp := rfl
@[simp] theorem emit_profPreps (o : Out) : (s.emit o).profPreps = s.profPreps := rfl
@[simp] theorem emit_pinSel (o : Out) : (s.emit o).pinSel = s.pinSel := rfl
@[simp] theorem emit_pinQual (o : Out) : (s.emit o).pinQual = s.pinQual := rfl
@[simp] theorem emit_pinRetry (o : Out) : (s.emit o).pinRetry = s.pinRetry := rfl
@[simp] theorem emit_routeSets (o : Out) : (s.emit o).routeSets = s.routeSets := rfl
@[simp] theorem emit_rasters (o : Out) : (s.emit o).rasters = s.rasters := rfl
@[simp] theorem emit_audRuns (o : Out) : (s.emit o).audRuns = s.audRuns := rfl
@[simp] theorem emit_routes (o : Out) : (s.emit o).routes = s.routes := rfl
@[simp] theorem emit_elastic (o : Out) : (s.emit o).elastic = s.elastic := rfl
@[simp] theorem emit_embedNs (o : Out) : (s.emit o).embedNs = s.embedNs := rfl
@[simp] theorem emit_setOp (o : Out) : (s.emit o).setOp = s.setOp := rfl
@[simp] theorem emit_ashFaulted (o : Out) : (s.emit o).ashFaulted = s.ashFaulted := rfl
@[simp] theorem emit_gates (o : Out) : (s.emit o).gates = s.gates := rfl
@[simp] theorem emit_groupTail (o : Out) : (s.emit o).groupTail = s.groupTail := rfl
@[simp] theorem emit_audioBlocks (o : Out) : (s.emit o).audioBlocks = s.audioBlocks := rfl
@[simp] theorem emit_aups (o : Out) : (s.emit o).aups = s.aups := rfl
@[simp] theorem emit_rennets (o : Out) : (s.emit o).rennets = s.rennets := rfl
@[simp] theorem emit_inputs (o : Out) : (s.emit o).inputs = s.inputs := rfl
@[simp] theorem emit_syns (o : Out) : (s.emit o).syns = s.syns := rfl
@[simp] theorem emit_synDelay (o : Out) : (s.emit o).synDelay = s.synDelay := rfl
@[simp] theorem emit_sdiRx (o : Out) : (s.emit o).sdiRx = s.sdiRx := rfl
@[simp] theorem emit_rxBound (o : Out) : (s.emit o).rxBound = s.rxBound := rfl
@[simp] theorem emit_txBound (o : Out) : (s.emit o).txBound = s.txBound := rfl
@[simp] theorem emit_txClockBad (o : Out) : (s.emit o).txClockBad = s.txClockBad := rfl
@[simp] theorem emit_ancQueue (o : Out) : (s.emit o).ancQueue = s.ancQueue := rfl
@[simp] theorem emit_gyls (o : Out) : (s.emit o).gyls = s.gyls := rfl
@[simp] theorem emit_eyes (o : Out) : (s.emit o).eyes = s.eyes := rfl
@[simp] theorem emit_keySlots (o : Out) : (s.emit o).keySlots = s.keySlots := rfl
@[simp] theorem emit_pufHeld (o : Out) : (s.emit o).pufHeld = s.pufHeld := rfl
@[simp] theorem emit_pufSecret (o : Out) : (s.emit o).pufSecret = s.pufSecret := rfl
@[simp] theorem emit_keyOp (o : Out) : (s.emit o).keyOp = s.keyOp := rfl
@[simp] theorem emit_rngFailed (o : Out) : (s.emit o).rngFailed = s.rngFailed := rfl
@[simp] theorem emit_fuses (o : Out) : (s.emit o).fuses = s.fuses := rfl
@[simp] theorem emit_lcTarget (o : Out) : (s.emit o).lcTarget = s.lcTarget := rfl
@[simp] theorem emit_fwHash (o : Out) : (s.emit o).fwHash = s.fwHash := rfl
@[simp] theorem emit_ipSlots (o : Out) : (s.emit o).ipSlots = s.ipSlots := rfl
@[simp] theorem emit_saGen (o : Out) : (s.emit o).saGen = s.saGen := rfl
@[simp] theorem emit_ptp (o : Out) : (s.emit o).ptp = s.ptp := rfl
@[simp] theorem emit_rxq (o : Out) : (s.emit o).rxq = s.rxq := rfl
@[simp] theorem emit_txBuild (o : Out) : (s.emit o).txBuild = s.txBuild := rfl
@[simp] theorem emit_txq (o : Out) : (s.emit o).txq = s.txq := rfl
@[simp] theorem emit_cnvCells (o : Out) : (s.emit o).cnvCells = s.cnvCells := rfl
@[simp] theorem emit_lutLoads (o : Out) : (s.emit o).lutLoads = s.lutLoads := rfl
@[simp] theorem emit_leases (o : Out) : (s.emit o).leases = s.leases := rfl
@[simp] theorem emit_layers (o : Out) : (s.emit o).layers = s.layers := rfl
@[simp] theorem emit_bez (o : Out) : (s.emit o).bez = s.bez := rfl
@[simp] theorem emit_fabStreams (o : Out) : (s.emit o).fabStreams = s.fabStreams := rfl
@[simp] theorem emit_fabParts (o : Out) : (s.emit o).fabParts = s.fabParts := rfl
@[simp] theorem emit_fabBc (o : Out) : (s.emit o).fabBc = s.fabBc := rfl
@[simp] theorem emit_fabWindows (o : Out) : (s.emit o).fabWindows = s.fabWindows := rfl
@[simp] theorem emit_fabGens (o : Out) : (s.emit o).fabGens = s.fabGens := rfl
@[simp] theorem emit_fabRoutes (o : Out) : (s.emit o).fabRoutes = s.fabRoutes := rfl
@[simp] theorem emit_fabHello (o : Out) : (s.emit o).fabHello = s.fabHello := rfl
@[simp] theorem emit_fabDelays (o : Out) : (s.emit o).fabDelays = s.fabDelays := rfl
@[simp] theorem emit_fevtWait (o : Out) : (s.emit o).fevtWait = s.fevtWait := rfl
@[simp] theorem emit_fevtLog (o : Out) : (s.emit o).fevtLog = s.fevtLog := rfl
@[simp] theorem emit_fevtOvf (o : Out) : (s.emit o).fevtOvf = s.fevtOvf := rfl
@[simp] theorem emit_coTarget (o : Out) : (s.emit o).coTarget = s.coTarget := rfl
@[simp] theorem emit_hbLaneNs (o : Out) : (s.emit o).hbLaneNs = s.hbLaneNs := rfl
@[simp] theorem emit_hbPinNs (o : Out) : (s.emit o).hbPinNs = s.hbPinNs := rfl
@[simp] theorem emit_handOver (o : Out) : (s.emit o).handOver = s.handOver := rfl
@[simp] theorem emit_joinDue (o : Out) : (s.emit o).joinDue = s.joinDue := rfl
@[simp] theorem emit_sendFrom (o : Out) : (s.emit o).sendFrom = s.sendFrom := rfl
@[simp] theorem emit_sendUntil (o : Out) : (s.emit o).sendUntil = s.sendUntil := rfl
@[simp] theorem emit_timers (o : Out) : (s.emit o).timers = s.timers := rfl
@[simp] theorem emit_compareBad (o : Out) : (s.emit o).compareBad = s.compareBad := rfl
@[simp] theorem emit_seals (o : Out) : (s.emit o).seals = s.seals := rfl
@[simp] theorem emit_touched (o : Out) : (s.emit o).touched = s.touched := rfl
@[simp] theorem emit_waives (o : Out) : (s.emit o).waives = s.waives := rfl
@[simp] theorem emit_sealFirst (o : Out) : (s.emit o).sealFirst = s.sealFirst := rfl
@[simp] theorem emit_sealRecords (o : Out) : (s.emit o).sealRecords = s.sealRecords := rfl
@[simp] theorem emit_decisions (o : Out) : (s.emit o).decisions = s.decisions := rfl
@[simp] theorem emit_mirrorHeld (o : Out) : (s.emit o).mirrorHeld = s.mirrorHeld := rfl
@[simp] theorem emit_cvus (o : Out) : (s.emit o).cvus = s.cvus := rfl
@[simp] theorem emit_pressQueue (o : Out) : (s.emit o).pressQueue = s.pressQueue := rfl
@[simp] theorem emit_pressDone (o : Out) : (s.emit o).pressDone = s.pressDone := rfl
@[simp] theorem emit_pressOvf (o : Out) : (s.emit o).pressOvf = s.pressOvf := rfl
@[simp] theorem emit_pressJob (o : Out) : (s.emit o).pressJob = s.pressJob := rfl
@[simp] theorem emit_hbmUe (o : Out) : (s.emit o).hbmUe = s.hbmUe := rfl
@[simp] theorem emit_hbmRestore (o : Out) : (s.emit o).hbmRestore = s.hbmRestore := rfl
@[simp] theorem emit_imageBad (o : Out) : (s.emit o).imageBad = s.imageBad := rfl
@[simp] theorem emit_laneResume (o : Out) : (s.emit o).laneResume = s.laneResume := rfl
@[simp] theorem emit_cnvFaulted (o : Out) : (s.emit o).cnvFaulted = s.cnvFaulted := rfl

/-! ### `answer` -/

@[simp] theorem answer_pending (m : Nat) (r : Reply) : (s.answer m r).pending = s.pending := rfl
@[simp] theorem answer_now (m : Nat) (r : Reply) : (s.answer m r).now = s.now := rfl
@[simp] theorem answer_free (m : Nat) (r : Reply) : (s.answer m r).free = s.free := rfl
@[simp] theorem answer_regs (m : Nat) (r : Reply) : (s.answer m r).regs = s.regs := rfl
@[simp] theorem answer_shadow (m : Nat) (r : Reply) : (s.answer m r).shadow = s.shadow := rfl
@[simp] theorem answer_staged (m : Nat) (r : Reply) : (s.answer m r).staged = s.staged := rfl
@[simp] theorem answer_units (m : Nat) (r : Reply) : (s.answer m r).units = s.units := rfl
@[simp] theorem answer_latch (m : Nat) (r : Reply) : (s.answer m r).latch = s.latch := rfl
@[simp] theorem answer_out (m : Nat) (r : Reply) : (s.answer m r).out = s.out := rfl
@[simp] theorem answer_msix (m : Nat) (r : Reply) : (s.answer m r).msix = s.msix := rfl
@[simp] theorem answer_msixPending (m : Nat) (r : Reply) : (s.answer m r).msixPending = s.msixPending := rfl
@[simp] theorem answer_mapMode (m : Nat) (r : Reply) : (s.answer m r).mapMode = s.mapMode := rfl
@[simp] theorem answer_twinSide (m : Nat) (r : Reply) : (s.answer m r).twinSide = s.twinSide := rfl
@[simp] theorem answer_thermLow (m : Nat) (r : Reply) : (s.answer m r).thermLow = s.thermLow := rfl
@[simp] theorem answer_extest (m : Nat) (r : Reply) : (s.answer m r).extest = s.extest := rfl
@[simp] theorem answer_coIn (m : Nat) (r : Reply) : (s.answer m r).coIn = s.coIn := rfl
@[simp] theorem answer_coOut (m : Nat) (r : Reply) : (s.answer m r).coOut = s.coOut := rfl
@[simp] theorem answer_hbOut (m : Nat) (r : Reply) : (s.answer m r).hbOut = s.hbOut := rfl
@[simp] theorem answer_rennetOut (m : Nat) (r : Reply) : (s.answer m r).rennetOut = s.rennetOut := rfl
@[simp] theorem answer_mem (m : Nat) (r : Reply) : (s.answer m r).mem = s.mem := rfl
@[simp] theorem answer_remapPending (m : Nat) (r : Reply) : (s.answer m r).remapPending = s.remapPending := rfl
@[simp] theorem answer_allocs (m : Nat) (r : Reply) : (s.answer m r).allocs = s.allocs := rfl
@[simp] theorem answer_pcieUp (m : Nat) (r : Reply) : (s.answer m r).pcieUp = s.pcieUp := rfl
@[simp] theorem answer_controlReset (m : Nat) (r : Reply) : (s.answer m r).controlReset = s.controlReset := rfl
@[simp] theorem answer_warmReset (m : Nat) (r : Reply) : (s.answer m r).warmReset = s.warmReset := rfl
@[simp] theorem answer_spiError (m : Nat) (r : Reply) : (s.answer m r).spiError = s.spiError := rfl
@[simp] theorem answer_spiPending (m : Nat) (r : Reply) : (s.answer m r).spiPending = s.spiPending := rfl
@[simp] theorem answer_spiIssued (m : Nat) (r : Reply) : (s.answer m r).spiIssued = s.spiIssued := rfl
@[simp] theorem answer_fw (m : Nat) (r : Reply) : (s.answer m r).fw = s.fw := rfl
@[simp] theorem answer_fwAtReset (m : Nat) (r : Reply) : (s.answer m r).fwAtReset = s.fwAtReset := rfl
@[simp] theorem answer_hbm (m : Nat) (r : Reply) : (s.answer m r).hbm = s.hbm := rfl
@[simp] theorem answer_hbmStored (m : Nat) (r : Reply) : (s.answer m r).hbmStored = s.hbmStored := rfl
@[simp] theorem answer_tbs (m : Nat) (r : Reply) : (s.answer m r).tbs = s.tbs := rfl
@[simp] theorem answer_events (m : Nat) (r : Reply) : (s.answer m r).events = s.events := rfl
@[simp] theorem answer_evSlots (m : Nat) (r : Reply) : (s.answer m r).evSlots = s.evSlots := rfl
@[simp] theorem answer_doneLog (m : Nat) (r : Reply) : (s.answer m r).doneLog = s.doneLog := rfl
@[simp] theorem answer_doneOvf (m : Nat) (r : Reply) : (s.answer m r).doneOvf = s.doneOvf := rfl
@[simp] theorem answer_salvos (m : Nat) (r : Reply) : (s.answer m r).salvos = s.salvos := rfl
@[simp] theorem answer_salvoOp (m : Nat) (r : Reply) : (s.answer m r).salvoOp = s.salvoOp := rfl
@[simp] theorem answer_xp (m : Nat) (r : Reply) : (s.answer m r).xp = s.xp := rfl
@[simp] theorem answer_xpOld (m : Nat) (r : Reply) : (s.answer m r).xpOld = s.xpOld := rfl
@[simp] theorem answer_bank (m : Nat) (r : Reply) : (s.answer m r).bank = s.bank := rfl
@[simp] theorem answer_pins (m : Nat) (r : Reply) : (s.answer m r).pins = s.pins := rfl
@[simp] theorem answer_vat (m : Nat) (r : Reply) : (s.answer m r).vat = s.vat := rfl
@[simp] theorem answer_frags (m : Nat) (r : Reply) : (s.answer m r).frags = s.frags := rfl
@[simp] theorem answer_runs (m : Nat) (r : Reply) : (s.answer m r).runs = s.runs := rfl
@[simp] theorem answer_fltLog (m : Nat) (r : Reply) : (s.answer m r).fltLog = s.fltLog := rfl
@[simp] theorem answer_fltSeq (m : Nat) (r : Reply) : (s.answer m r).fltSeq = s.fltSeq := rfl
@[simp] theorem answer_powerQueue (m : Nat) (r : Reply) : (s.answer m r).powerQueue = s.powerQueue := rfl
@[simp] theorem answer_grants (m : Nat) (r : Reply) : (s.answer m r).grants = s.grants := rfl
@[simp] theorem answer_powerPaused (m : Nat) (r : Reply) : (s.answer m r).powerPaused = s.powerPaused := rfl
@[simp] theorem answer_cave (m : Nat) (r : Reply) : (s.answer m r).cave = s.cave := rfl
@[simp] theorem answer_journal (m : Nat) (r : Reply) : (s.answer m r).journal = s.journal := rfl
@[simp] theorem answer_caveWait (m : Nat) (r : Reply) : (s.answer m r).caveWait = s.caveWait := rfl
@[simp] theorem answer_caveDirty (m : Nat) (r : Reply) : (s.answer m r).caveDirty = s.caveDirty := rfl
@[simp] theorem answer_caveBase (m : Nat) (r : Reply) : (s.answer m r).caveBase = s.caveBase := rfl
@[simp] theorem answer_imagesCurrent (m : Nat) (r : Reply) : (s.answer m r).imagesCurrent = s.imagesCurrent := rfl
@[simp] theorem answer_profCells (m : Nat) (r : Reply) : (s.answer m r).profCells = s.profCells := rfl
@[simp] theorem answer_profOp (m : Nat) (r : Reply) : (s.answer m r).profOp = s.profOp := rfl
@[simp] theorem answer_profPreps (m : Nat) (r : Reply) : (s.answer m r).profPreps = s.profPreps := rfl
@[simp] theorem answer_pinSel (m : Nat) (r : Reply) : (s.answer m r).pinSel = s.pinSel := rfl
@[simp] theorem answer_pinQual (m : Nat) (r : Reply) : (s.answer m r).pinQual = s.pinQual := rfl
@[simp] theorem answer_pinRetry (m : Nat) (r : Reply) : (s.answer m r).pinRetry = s.pinRetry := rfl
@[simp] theorem answer_routeSets (m : Nat) (r : Reply) : (s.answer m r).routeSets = s.routeSets := rfl
@[simp] theorem answer_rasters (m : Nat) (r : Reply) : (s.answer m r).rasters = s.rasters := rfl
@[simp] theorem answer_audRuns (m : Nat) (r : Reply) : (s.answer m r).audRuns = s.audRuns := rfl
@[simp] theorem answer_routes (m : Nat) (r : Reply) : (s.answer m r).routes = s.routes := rfl
@[simp] theorem answer_elastic (m : Nat) (r : Reply) : (s.answer m r).elastic = s.elastic := rfl
@[simp] theorem answer_embedNs (m : Nat) (r : Reply) : (s.answer m r).embedNs = s.embedNs := rfl
@[simp] theorem answer_setOp (m : Nat) (r : Reply) : (s.answer m r).setOp = s.setOp := rfl
@[simp] theorem answer_ashFaulted (m : Nat) (r : Reply) : (s.answer m r).ashFaulted = s.ashFaulted := rfl
@[simp] theorem answer_gates (m : Nat) (r : Reply) : (s.answer m r).gates = s.gates := rfl
@[simp] theorem answer_groupTail (m : Nat) (r : Reply) : (s.answer m r).groupTail = s.groupTail := rfl
@[simp] theorem answer_audioBlocks (m : Nat) (r : Reply) : (s.answer m r).audioBlocks = s.audioBlocks := rfl
@[simp] theorem answer_aups (m : Nat) (r : Reply) : (s.answer m r).aups = s.aups := rfl
@[simp] theorem answer_rennets (m : Nat) (r : Reply) : (s.answer m r).rennets = s.rennets := rfl
@[simp] theorem answer_inputs (m : Nat) (r : Reply) : (s.answer m r).inputs = s.inputs := rfl
@[simp] theorem answer_syns (m : Nat) (r : Reply) : (s.answer m r).syns = s.syns := rfl
@[simp] theorem answer_synDelay (m : Nat) (r : Reply) : (s.answer m r).synDelay = s.synDelay := rfl
@[simp] theorem answer_sdiRx (m : Nat) (r : Reply) : (s.answer m r).sdiRx = s.sdiRx := rfl
@[simp] theorem answer_rxBound (m : Nat) (r : Reply) : (s.answer m r).rxBound = s.rxBound := rfl
@[simp] theorem answer_txBound (m : Nat) (r : Reply) : (s.answer m r).txBound = s.txBound := rfl
@[simp] theorem answer_txClockBad (m : Nat) (r : Reply) : (s.answer m r).txClockBad = s.txClockBad := rfl
@[simp] theorem answer_ancQueue (m : Nat) (r : Reply) : (s.answer m r).ancQueue = s.ancQueue := rfl
@[simp] theorem answer_gyls (m : Nat) (r : Reply) : (s.answer m r).gyls = s.gyls := rfl
@[simp] theorem answer_eyes (m : Nat) (r : Reply) : (s.answer m r).eyes = s.eyes := rfl
@[simp] theorem answer_keySlots (m : Nat) (r : Reply) : (s.answer m r).keySlots = s.keySlots := rfl
@[simp] theorem answer_pufHeld (m : Nat) (r : Reply) : (s.answer m r).pufHeld = s.pufHeld := rfl
@[simp] theorem answer_pufSecret (m : Nat) (r : Reply) : (s.answer m r).pufSecret = s.pufSecret := rfl
@[simp] theorem answer_keyOp (m : Nat) (r : Reply) : (s.answer m r).keyOp = s.keyOp := rfl
@[simp] theorem answer_rngFailed (m : Nat) (r : Reply) : (s.answer m r).rngFailed = s.rngFailed := rfl
@[simp] theorem answer_fuses (m : Nat) (r : Reply) : (s.answer m r).fuses = s.fuses := rfl
@[simp] theorem answer_lcTarget (m : Nat) (r : Reply) : (s.answer m r).lcTarget = s.lcTarget := rfl
@[simp] theorem answer_fwHash (m : Nat) (r : Reply) : (s.answer m r).fwHash = s.fwHash := rfl
@[simp] theorem answer_ipSlots (m : Nat) (r : Reply) : (s.answer m r).ipSlots = s.ipSlots := rfl
@[simp] theorem answer_saGen (m : Nat) (r : Reply) : (s.answer m r).saGen = s.saGen := rfl
@[simp] theorem answer_ptp (m : Nat) (r : Reply) : (s.answer m r).ptp = s.ptp := rfl
@[simp] theorem answer_rxq (m : Nat) (r : Reply) : (s.answer m r).rxq = s.rxq := rfl
@[simp] theorem answer_txBuild (m : Nat) (r : Reply) : (s.answer m r).txBuild = s.txBuild := rfl
@[simp] theorem answer_txq (m : Nat) (r : Reply) : (s.answer m r).txq = s.txq := rfl
@[simp] theorem answer_cnvCells (m : Nat) (r : Reply) : (s.answer m r).cnvCells = s.cnvCells := rfl
@[simp] theorem answer_lutLoads (m : Nat) (r : Reply) : (s.answer m r).lutLoads = s.lutLoads := rfl
@[simp] theorem answer_leases (m : Nat) (r : Reply) : (s.answer m r).leases = s.leases := rfl
@[simp] theorem answer_layers (m : Nat) (r : Reply) : (s.answer m r).layers = s.layers := rfl
@[simp] theorem answer_bez (m : Nat) (r : Reply) : (s.answer m r).bez = s.bez := rfl
@[simp] theorem answer_fabStreams (m : Nat) (r : Reply) : (s.answer m r).fabStreams = s.fabStreams := rfl
@[simp] theorem answer_fabParts (m : Nat) (r : Reply) : (s.answer m r).fabParts = s.fabParts := rfl
@[simp] theorem answer_fabBc (m : Nat) (r : Reply) : (s.answer m r).fabBc = s.fabBc := rfl
@[simp] theorem answer_fabWindows (m : Nat) (r : Reply) : (s.answer m r).fabWindows = s.fabWindows := rfl
@[simp] theorem answer_fabGens (m : Nat) (r : Reply) : (s.answer m r).fabGens = s.fabGens := rfl
@[simp] theorem answer_fabRoutes (m : Nat) (r : Reply) : (s.answer m r).fabRoutes = s.fabRoutes := rfl
@[simp] theorem answer_fabHello (m : Nat) (r : Reply) : (s.answer m r).fabHello = s.fabHello := rfl
@[simp] theorem answer_fabDelays (m : Nat) (r : Reply) : (s.answer m r).fabDelays = s.fabDelays := rfl
@[simp] theorem answer_fevtWait (m : Nat) (r : Reply) : (s.answer m r).fevtWait = s.fevtWait := rfl
@[simp] theorem answer_fevtLog (m : Nat) (r : Reply) : (s.answer m r).fevtLog = s.fevtLog := rfl
@[simp] theorem answer_fevtOvf (m : Nat) (r : Reply) : (s.answer m r).fevtOvf = s.fevtOvf := rfl
@[simp] theorem answer_coTarget (m : Nat) (r : Reply) : (s.answer m r).coTarget = s.coTarget := rfl
@[simp] theorem answer_hbLaneNs (m : Nat) (r : Reply) : (s.answer m r).hbLaneNs = s.hbLaneNs := rfl
@[simp] theorem answer_hbPinNs (m : Nat) (r : Reply) : (s.answer m r).hbPinNs = s.hbPinNs := rfl
@[simp] theorem answer_handOver (m : Nat) (r : Reply) : (s.answer m r).handOver = s.handOver := rfl
@[simp] theorem answer_joinDue (m : Nat) (r : Reply) : (s.answer m r).joinDue = s.joinDue := rfl
@[simp] theorem answer_sendFrom (m : Nat) (r : Reply) : (s.answer m r).sendFrom = s.sendFrom := rfl
@[simp] theorem answer_sendUntil (m : Nat) (r : Reply) : (s.answer m r).sendUntil = s.sendUntil := rfl
@[simp] theorem answer_timers (m : Nat) (r : Reply) : (s.answer m r).timers = s.timers := rfl
@[simp] theorem answer_compareBad (m : Nat) (r : Reply) : (s.answer m r).compareBad = s.compareBad := rfl
@[simp] theorem answer_seals (m : Nat) (r : Reply) : (s.answer m r).seals = s.seals := rfl
@[simp] theorem answer_touched (m : Nat) (r : Reply) : (s.answer m r).touched = s.touched := rfl
@[simp] theorem answer_waives (m : Nat) (r : Reply) : (s.answer m r).waives = s.waives := rfl
@[simp] theorem answer_sealFirst (m : Nat) (r : Reply) : (s.answer m r).sealFirst = s.sealFirst := rfl
@[simp] theorem answer_sealRecords (m : Nat) (r : Reply) : (s.answer m r).sealRecords = s.sealRecords := rfl
@[simp] theorem answer_decisions (m : Nat) (r : Reply) : (s.answer m r).decisions = s.decisions := rfl
@[simp] theorem answer_mirrorHeld (m : Nat) (r : Reply) : (s.answer m r).mirrorHeld = s.mirrorHeld := rfl
@[simp] theorem answer_cvus (m : Nat) (r : Reply) : (s.answer m r).cvus = s.cvus := rfl
@[simp] theorem answer_pressQueue (m : Nat) (r : Reply) : (s.answer m r).pressQueue = s.pressQueue := rfl
@[simp] theorem answer_pressDone (m : Nat) (r : Reply) : (s.answer m r).pressDone = s.pressDone := rfl
@[simp] theorem answer_pressOvf (m : Nat) (r : Reply) : (s.answer m r).pressOvf = s.pressOvf := rfl
@[simp] theorem answer_pressJob (m : Nat) (r : Reply) : (s.answer m r).pressJob = s.pressJob := rfl
@[simp] theorem answer_hbmUe (m : Nat) (r : Reply) : (s.answer m r).hbmUe = s.hbmUe := rfl
@[simp] theorem answer_hbmRestore (m : Nat) (r : Reply) : (s.answer m r).hbmRestore = s.hbmRestore := rfl
@[simp] theorem answer_imageBad (m : Nat) (r : Reply) : (s.answer m r).imageBad = s.imageBad := rfl
@[simp] theorem answer_laneResume (m : Nat) (r : Reply) : (s.answer m r).laneResume = s.laneResume := rfl
@[simp] theorem answer_cnvFaulted (m : Nat) (r : Reply) : (s.answer m r).cnvFaulted = s.cnvFaulted := rfl

end Sys2Proof.Machine
end

