-- ==== Sys2Proof/Laws/Registers.lean ====
section
/-! SUPPORT. What the shared operations over registers, flags and status bits leave in a register field. -/

namespace Sys2Proof.Machine

/-- A field read after a field was written. -/
theorem get_put (s : State) (p c p' c' : Nat) (f f' : Field) (v : Nat) :
    (s.put p c f v).get p' c' f' =
      if p = p' ∧ c = c' ∧ f.slot = f'.slot then v % f.modulus else s.get p' c' f' := by
  have e : (f.key p c = f'.key p' c') ↔ (p = p' ∧ c = c' ∧ f.slot = f'.slot) := by
    simp [Field.key]
  unfold State.get State.put
  simp only [find_set, key_code_inj, e]
  split <;> simp

@[simp] theorem get_put_self (s : State) (p c : Nat) (f : Field) (v : Nat) : (s.put p c f v).get p c f = v % f.modulus := by
  simp [get_put]

theorem get_put_page {p p' : Nat} (h : p ≠ p') (s : State) (c c' : Nat) (f f' : Field) (v : Nat) :
    (s.put p c f v).get p' c' f' = s.get p' c' f' := by
  simp [get_put, h]

theorem get_put_slot {f f' : Field} (h : f.slot ≠ f'.slot) (s : State) (p c p' c' v : Nat) :
    (s.put p c f v).get p' c' f' = s.get p' c' f' := by
  simp [get_put, h]

/-- A field depends on the register table alone. -/
theorem get_of_regs {s t : State} (h : t.regs = s.regs) (p c : Nat) (f : Field) : t.get p c f = s.get p c f := by
  unfold State.get; rw [h]

@[simp] theorem get_emit (s : State) (o : Out) (p c : Nat) (f : Field) : (s.emit o).get p c f = s.get p c f := rfl
@[simp] theorem get_answer (s : State) (m : Nat) (r : Reply) (p c : Nat) (f : Field) :
    (s.answer m r).get p c f = s.get p c f := rfl
@[simp] theorem get_draw (s : State) (p c : Nat) (f : Field) : s.draw.2.get p c f = s.get p c f := rfl
@[simp] theorem get_putUnit (s : State) (q u : Nat) (x : CommitUnit) (p c : Nat) (f : Field) :
    (s.putUnit q u x).get p c f = s.get p c f := rfl
@[simp] theorem get_putTb (s : State) (k : Nat) (t : Timebase) (p c : Nat) (f : Field) :
    (s.putTb k t).get p c f = s.get p c f := rfl
@[simp] theorem get_putShadow (s : State) (q d : Nat) (g : Field) (v p c : Nat) (f : Field) :
    (s.putShadow q d g v).get p c f = s.get p c f := rfl
@[simp] theorem get_putStaged (s : State) (q d : Nat) (g : Field) (v p c : Nat) (f : Field) :
    (s.putStaged q d g v).get p c f = s.get p c f := rfl

@[simp] theorem get_caveMark (s : State) (q p c : Nat) (f : Field) : (s.caveMark q).get p c f = s.get p c f := by
  unfold State.caveMark; split <;> rfl

@[simp] theorem get_sendMsix (s : State) (q p c : Nat) (f : Field) : (s.sendMsix q).get p c f = s.get p c f := by
  unfold State.sendMsix; dsimp only; split <;> rfl

@[simp] theorem get_notifyFrom (s b : State) (q p c : Nat) (f : Field) : (s.notifyFrom b q).get p c f = s.get p c f := by
  unfold State.notifyFrom; split <;> simp

/-- Raising an interrupt bit writes the page's INT_STAT and no other field (R40). -/
theorem get_raise (s : State) (q b p c : Nat) (f : Field) :
    (s.raise q b).get p c f =
      if q = p ∧ 0 = c ∧ F.hdrIntStat.slot = f.slot then withBit (s.get q 0 F.hdrIntStat) b % F.hdrIntStat.modulus
      else s.get p c f := by
  simp [State.raise, get_put]

theorem get_raise_slot {f : Field} (h : F.hdrIntStat.slot ≠ f.slot) (s : State) (q b p c : Nat) :
    (s.raise q b).get p c f = s.get p c f := by
  simp [get_raise, h]

/-- Setting an error bit writes the page's ERR and INT_STAT and no other field (R40). -/
theorem get_setErr_slot {f : Field} (h : F.hdrIntStat.slot ≠ f.slot) (h' : F.hdrErr.slot ≠ f.slot) (s : State)
    (q b p c : Nat) : (s.setErr q b).get p c f = s.get p c f := by
  unfold State.setErr; split
  · rfl
  · rw [get_raise_slot h, get_put_slot h']

/-- What keeps the register list through each element keeps it through a list. -/
theorem regs_foldl {α : Type} (k : State → α → State) (h : ∀ s a, (k s a).regs = s.regs) (l : List α) (s : State) :
    (l.foldl k s).regs = s.regs := by
  induction l generalizing s with
  | nil => rfl
  | cons a l ih => exact (ih _).trans (h s a)

@[simp] theorem regs_claspQueue (s : State) (o : Out) (lanes : List Nat) : (s.claspQueue o lanes).regs = s.regs :=
  regs_foldl (fun s l => (claspBlocks o).foldl (fun s b => s.queueBlock pgClasp l b) s)
    (fun s l => regs_foldl (fun s b => s.queueBlock pgClasp l b) (fun _ _ => rfl) _ s) lanes s

@[simp] theorem regs_express (s : State) (o : Out) : (s.express o).regs = s.regs := regs_claspQueue _ _ _

@[simp] theorem regs_ordinary (s : State) (o : Out) : (s.ordinary o).regs = s.regs := regs_claspQueue _ _ _

@[simp] theorem regs_waive (s : State) (kind c : Nat) : (s.waive kind c).regs = s.regs := by
  unfold State.waive; split <;> rfl

@[simp] theorem regs_waiveWrite (s : State) (p cell off : Nat) : (s.waiveWrite p cell off).regs = s.regs := by
  unfold State.waiveWrite; split <;> simp

@[simp] theorem get_mirrorWrite (s : State) (m q off w p c : Nat) (f : Field) :
    (s.mirrorWrite m q off w).get p c f = s.get p c f := by
  apply get_of_regs
  unfold State.mirrorWrite
  dsimp only
  split
  · rw [regs_waiveWrite]; split <;> simp
  · rfl

@[simp] theorem get_share (s : State) (q d : Nat) (v : List Nat) (p c : Nat) (f : Field) :
    (s.share q d v).get p c f = s.get p c f := by
  apply get_of_regs
  unfold State.share
  split <;> simp

/-- An accepted write runs its meaning and is mirrored. -/
theorem write_accepted {s : State} {m p off : Nat} (h : s.accepts m p off = true) (w : Nat) (k : State → State) :
    s.write m p off w k = (k (if recordedWord p off then s.caveMark p else s)).mirrorWrite m p off w := by
  unfold State.write State.access; rw [if_pos h]

/-- A write that the page does not take ends in its error bit, or in nothing (R27, R32 to R34). -/
theorem write_rejected {s : State} {m p off : Nat} (h : s.accepts m p off = false) (w : Nat) (k : State → State) :
    s.write m p off w k = s.rejectWrite m p off := by
  unfold State.write State.access; simp [h]

end Sys2Proof.Machine
end

