-- ==== Sys2Proof/WellFormed.lean ====
section
/-! DEFINITION. Which commands are well formed: operands that no type bounds lie in the range that the manual gives them. -/

namespace Sys2Proof

/-- A line number of 13 bits, counted from 1 (R6, R75). -/
def lineWf (line : Nat) : Bool := decide (1 ≤ line ∧ line ≤ 9000)

/-- Does PCI Express reach an internal address: T5 through BAR0, T4 through BAR2 (R45)? -/
def pcieReaches (a : Nat) : Bool :=
  decide ((0x40000000 ≤ a ∧ a < 0x41000000) ∨ (0x1000000000 ≤ a ∧ a < 0x1800000000))

/-- A write inside BAR0, inside BAR4, or inside the 40-bit internal address map, where master M0 reaches T5 and T4 alone (R26,
R45). -/
def BusAccess.wf (m : Fin 8) : BusAccess → Bool
  | .bar0 off _ => decide (off < 0x1000000)
  | .bar4 off => decide (off < 0x4000)
  | .internal addr => decide (addr < 2 ^ 40) && (decide (m ≠ 0) || pcieReaches addr)

/-- A read of a page register, inside BAR4, or inside the internal address map. -/
def ReadSpace.wf (m : Fin 8) (off : Nat) : ReadSpace → Bool
  | .page _ => decide (off < 0x1000)
  | .bar4 => decide (off < 0x4000)
  | .internal => decide (off < 2 ^ 40) && (decide (m ≠ 0) || pcieReaches off)

/-- An ST 291 packet: 8-bit identifiers, at most 255 words of 10 bits (R119). -/
def ancWf (p : AncPacket) : Bool :=
  lineWf p.line && decide (p.did < 256 ∧ p.sdid < 256 ∧ p.words.length ≤ 255) && p.words.all fun w => decide (w < 1024)

/-- A received Ethernet frame: its time stamp's nanoseconds are below a second (R143). -/
def ethWf (f : EthFrame) : Bool := decide (f.ns < 1000000000 ∧ f.sec < 2 ^ 48)

/-- A mirrored message: a write at an engine's register, a write inside the internal address map (R301). -/
def mirrorWf : MirrorMsg → Bool
  | .write _ _ off _ => decide (off < 0x800)
  | .hbm addr bytes => decide (addr + bytes.length ≤ 2 ^ 40)
  | .event _ _ _ _ _ => true
  | .cancel _ => true
  | .bezel _ _ => true
  | .bezelResult _ _ => true
  | .pinTake _ _ => true
  | .pinProfile _ => true
  | .decision _ _ _ => true
  | .target _ _ _ => true
  | .join => true
  | .state _ => true
  | .release => true
  | .handOver => true
  | .field _ _ _ _ => true
  | .salvo _ _ => true
  | .routeSet _ _ => true
  | .lut _ _ _ _ => true
  | .bezelImage _ _ => true
  | .profile _ bytes => decide (bytes.length ≤ 524288)

/-- Is a command well formed? -/
def Instr.wf : Instr → Bool
  | .coldReset _ _ => true
  | .warmReset => true
  | .watchdogExpiry => true
  | .devResetEngine _ _ => true
  | .devResetControl _ => true
  | .devResetWarm _ => true
  | .engineResetDone _ => true
  | .controlResetDone => true
  | .lockstepFault => true
  | .pcieReset x => (x.bursts.all fun b => decide (b.addr + b.bytes.length ≤ 2 ^ 40)) && decide (x.bursts.length + x.reads ≤ 96)
  | .masterReset _ x => (x.bursts.all fun b => decide (b.addr + b.bytes.length ≤ 2 ^ 40)) && decide (x.bursts.length + x.reads ≤ 96)
  | .masterQuiesced _ => true
  | .targetTimeout _ => true
  | .matrixParityError _ => true
  | .remapWrite _ _ => true
  | .remapApply => true
  | .registerWrite m a _ => BusAccess.wf m a
  | .lockWrite _ _ _ => true
  | .loRegisterRead m space off => ReadSpace.wf m off space
  | .rcRead _ _ off => decide (off < 0x1000)
  | .msixUnmask _ => true
  | .commitRequest _ _ => true
  | .commitAtFrame _ _ => true
  | .commitCancel _ _ _ _ => true
  | .commitCapture _ => true
  | .frameCommitPoint _ => true
  | .configParityError _ _ off lo => decide (off < 0x800 ∧ lo < 32)
  | .configComparePass => true
  | .tbRun _ _ _ => true
  | .tbStop _ _ _ => true
  | .presetArm _ _ => true
  | .refHEdge _ line => lineWf line
  | .tbLoss _ => true
  | .tbRateMismatch _ => true
  | .tbFrameBoundary _ => true
  | .rindOpen _ line => lineWf line
  | .rindClose _ => true
  | .armPoint _ line => lineWf line
  | .switchPoint _ line => lineWf line
  | .eventSubmit _ => true
  | .eventCancel _ _ => true
  | .notifyEvent _ => true
  | .doneRead _ => true
  | .salvoLoad _ => true
  | .salvoLoadDone => true
  | .salvoDelete _ => true
  | .salvoDeleteDone => true
  | .lateCopyDone => true
  | .takePinEdge _ => true
  | .takePinRunt _ => true
  | .pinCfgWrite _ _ _ => true
  | .flowAlloc _ _ => true
  | .flowFree _ _ => true
  | .flowCtxWrite _ _ _ => true
  | .flowCommit _ => true
  | .flowCommitCancel _ _ => true
  | .segmentIngress _ line _ _ bytes _ => lineWf line && decide (bytes.length ≤ 8)
  | .egressSegmentRead _ line _ _ _ _ _ => lineWf line
  | .vatFence _ _ => true
  | .vatDrainDone _ => true
  | .vatTest _ _ => true
  | .vatTestDone _ _ => true
  | .vatUnfence _ _ => true
  | .sourceLoss _ => true
  | .egressFrameStart _ => true
  | .sdiSignalDetect _ => true
  | .sdiRateTryTimeout _ => true
  | .sdirxLine _ l => lineWf l.line
  | .sdirxFrameEnd _ _ => true
  | .quadGroupForm _ _ => true
  | .sdiSignalLoss _ => true
  | .ancPacketReceive _ p => ancWf p
  | .regapDone _ => true
  | .ipLaneLoss _ _ => true
  | .ipFrameReceive _ _ f => ethWf f
  | .strmCommit _ _ => true
  | .strmCommitCancel _ _ _ => true
  | .ipLineRelease _ _ => true
  | .ipStreamLoss _ _ => true
  | .ipPathLoss _ _ _ => true
  | .ipPacketSend _ _ _ => true
  | .ptpSyncReceive _ _ _ => true
  | .ptpDelayReqSend _ _ => true
  | .ptpDelayRespReceive _ _ _ => true
  | .ptpClientRestart _ _ off _ => decide (off < 0x1000)
  | .rxqDataRead _ _ => true
  | .txqDataWrite _ _ _ => true
  | .txqPush _ _ => true
  | .cnvStart _ _ _ => true
  | .cnvPipelineReady _ => true
  | .cnvStop _ _ _ => true
  | .cnvOutputFrame _ _ _ => true
  | .cnvCellReset _ _ => true
  | .lutLoad _ _ _ => true
  | .lutLoadDone _ => true
  | .datapathCheckFail _ => true
  | .cpoStart _ _ _ => true
  | .cpoStop _ _ _ => true
  | .layerCommit _ _ _ => true
  | .layerCommitCancel _ _ _ _ => true
  | .cpoCommitPoint _ => true
  | .hbmWrite _ addr bytes => decide (addr + bytes.length ≤ 2 ^ 40)
  | .bezelBind _ _ => true
  | .bezelMsgGo _ => true
  | .bezelVerifyDone _ => true
  | .rasterCommit _ _ _ => true
  | .rasterCommitCancel _ _ _ _ => true
  | .rasterCapture _ => true
  | .rasterCommitPoint _ => true
  | .rasterLineStart _ x => lineWf x.line
  | .rasterLastActiveLine _ => true
  | .contentReadyLineTest _ => true
  | .rasterFrameEnd _ => true
  | .formatStart _ => true
  | .routeWrite _ _ => true
  | .routeRampDone _ => true
  | .routeSetLoad _ => true
  | .routeSetLoadDone => true
  | .routeSetDelete _ => true
  | .asrcLock _ _ => true
  | .zeroCrossTimeout _ _ _ => true
  | .aupEnable _ _ _ => true
  | .aupDisable _ _ _ => true
  | .aupStopped _ => true
  | .rennetEvent _ => true
  | .rennetPinEdge => true
  | .rennetOutEnd => true
  | .aupFrame _ _ => true
  | .aupWsLoss _ => true
  | .aupRateMismatch _ => true
  | .aupRateMeasure _ _ => true
  | .aupLoopTick _ => true
  | .hoopPointerWrite _ _ _ _ => true
  | .laneAdapt _ _ => true
  | .laneAdaptDone _ _ => true
  | .eyeScanStart _ _ => true
  | .eyeScanAbort _ _ => true
  | .eyeScanDone _ _ _ => true
  | .gylosBlockSend _ _ => true
  | .gylosBlockReceive _ _ b => decide (1056 ≤ b.bits.length ∧ b.bits.length ≤ 1101)
  | .linkNak _ _ seq => decide (seq < 256)
  | .linkReplay _ _ _ => true
  | .linkNakTimeout _ _ => true
  | .gylosLaneLoss _ _ _ => true
  | .fabPortStart _ _ _ => true
  | .helloSend _ => true
  | .hello _ _ _ => true
  | .neighbourTimeout _ => true
  | .segmentRecordReceive _ r => lineWf r.line
  | .delayReqSend _ _ => true
  | .delayReq _ _ _ => true
  | .delayResp _ _ _ => true
  | .beaconSend _ _ => true
  | .beacon _ b => lineWf b.line
  | .fevtSubmit _ => true
  | .fevt _ _ => true
  | .fevtAck _ _ => true
  | .fevtAckTimeout _ => true
  | .fevtAckRead _ => true
  | .mirrorReceive x => mirrorWf x
  | .sealReceive x => lineWf x.line
  | .changeover _ => true
  | .coMismatch _ => true
  | .coCmd _ _ => true
  | .claspLead _ => true
  | .claspJoin _ _ => true
  | .joinCopyDone image => image.all mirrorWf
  | .joinAlignDone => true
  | .alignTimeout => true
  | .joinFillDone => true
  | .joinCompareDone _ => true
  | .tbSkewExceeded _ _ => true
  | .claspRelease _ => true
  | .heartbeatSend => true
  | .twinLoss _ _ => true
  | .clockStop _ => true
  | .clockFreqError _ => true
  | .supplyOutOfWindow _ _ => true
  | .memEccError _ => true
  | .thermAlert => true
  | .caveRecordWrite _ => true
  | .caveJournalCopy => true
  | .caveClear _ _ => true
  | .imageWriteDone _ => true
  | .fwDataWrite _ _ => true
  | .fwGo _ => true
  | .fwVerifyDone => true
  | .hbmTrainingDone _ _ => true
  | .hbmwinWrite _ _ _ => true
  | .bar2Read off len => decide (0 < len ∧ off + len ≤ 0x10000000)
  | .bar2Write off bytes enables => decide (off + bytes.length ≤ 0x10000000 ∧ enables.length = bytes.length)
  | .devregWrite _ _ => true
  | .profileLoad _ => true
  | .profileLoadDone => true
  | .profileErase _ => true
  | .devProfileGo _ _ => true
  | .profilePinsWrite _ _ => true
  | .profilePinSample _ _ => true
  | .profilePrepare _ => true
  | .powerRequest _ purpose => decide (purpose < 14)
  | .powerGrant => true
  | .powerRampStep => true
  | .powerRelease _ purpose => decide (purpose < 14)
  | .powerTimeout => true
  | .pauTimeoutWrite _ _ => true
  | .powerOverstay => true
  | .deferredRepost _ purpose => decide (purpose < 14)
  | .synStart _ _ _ => true
  | .synLocked _ => true
  | .synDelayStep _ _ => true
  | .keyLoad _ => true
  | .keyInvalidate _ => true
  | .keyDerive _ => true
  | .keyGenerate _ => true
  | .keyImport _ => true
  | .keyRewrap _ => true
  | .keyHallmark _ => true
  | .keyHelper _ => true
  | .keyEnroll _ => true
  | .keyCmdDone => true
  | .lcTransition _ _ => true
  | .lcTransitionDone _ => true
  | .cvuStart _ _ => true
  | .cvuRestart _ _ => true
  | .cvuAbort _ _ => true
  | .cvuArm _ _ => true
  | .cvuFeed _ _ _ => true
  | .cvuFeed1 _ _ _ => true
  | .cvuJobDone _ => true
  | .pressSubmit _ => true
  | .pressJobDone => true
  | .pressDoneRead _ => true
  | .spiWrite _ _ => true
  | .spiRead _ => true
  | .spiStatus => true
  | .ipLinkUp _ _ => true
  | .pcieLinkUp => true
  | .pinCopyDone _ => true
  | .heartbeatReceive _ => true
  | .coInChange _ _ => true
  | .healthTestFail => true
  | .extest => true

/-- A well-formed command. -/
abbrev Instr.WellFormed (i : Instr) : Prop := i.wf = true

end Sys2Proof
end

