-- ==== Sys2Proof/Tests/Slice0.lean ====
section
/-! SUPPORT. Tests: the refusal of ill-formed commands, values that the manual gives, and for each statement a state and
operands that meet its hypotheses, clause by clause. -/

set_option maxRecDepth 4000
set_option Elab.async false

namespace Sys2Proof.Tests
open Sys2Proof Sys2Proof.Machine

/-- The state after reset with some register fields set. -/
def seed (l : List (Nat × Nat × Field × Nat)) : State :=
  l.foldl (fun s e => s.put e.1 e.2.1 e.2.2.1 e.2.2.2) State.reset


/-- A line, a frame, a packet and a record with nothing in them. -/
def sdiLine0 : SdiLine := { line := 1, trsOk := false, fits := true, numberOk := true, crcOk := true, picture := [], audio := [] }
def anc0 (ok : Bool) : AncPacket :=
  { line := 9, hanc := true, ds := 0, offset := 0, did := 1, sdid := 2, words := [], sumOk := ok }
def record0 (next hops : Fin 8) : SegRecord :=
  { srcDev := 1, srcFlow := 2, line := 1, seg := 0, ty := 0, last := true, next := next, hops := hops, ports := 0
    lineSeal := 0, route := none, data := [0, 1, 2, 3], errored := false, enc := false }
def fevt0 (dst : BitVec 14) (w0 w1 w2 : Word) : FevtMsg :=
  { tag := 5, origin := 9, next := 1, hops := 1, ports := 0, dst := dst, ret := 0, w0 := w0, w1 := w1, w2 := w2, w3 := 0
    enc := false }
def event0 (k : EvKind) (notify : Bool) : Event :=
  { handle := 0, kind := k, tb := 3, notify := notify, line := 7, frame := 5, sample := 0, arg := 3, page := 0, unit := 0
    origin := .submit 1 }
def seal0 (waived : Bool) : SealMsg :=
  { flow := 4095, line := 1, frame := 0, part := 0, lineSeal := 7, localBit := false, waived := waived }
def buffer0 : FsBuffer :=
  { seq := 1, frame := 1, begunNs := 0, secondNs := none, complete := true, endNs := 0, lines := [], audio := [] }
/-- A Bezel state message for cell 15 under a key of zeros. -/
def bezHead0 : List Byte := [1, 0, 15, 2, 16, 0, 0, 0, 1, 0, 0, 0, 0, 0, 0, 0] ++ zeros 16
def bezRest0 : List Byte :=
  [206, 167, 64, 61, 77, 96, 107, 110, 7, 78, 197, 211, 186, 243, 157, 24] ++
    [121, 67, 124, 105, 178, 151, 245, 234, 206, 191, 44, 175, 188, 242, 95, 88]
/-- A profile image of one empty section. -/
def profImage0 : List Byte :=
  leBytes 4 0x464F5250 ++ leBytes 2 1 ++ leBytes 2 1 ++ leBytes 4 72 ++ leBytes 4 (crc32c [1, 0, 0, 0, 0, 0, 0, 0]) ++
    zeros 48 ++ [1, 0, 0, 0, 0, 0, 0, 0]
def pressWords0 : List Nat := [0x13000000, 0, 0, 0x1000, 64, 64, 0, 0]
def keySlot0 : KeySlot := { KeySlot.cold with state := slotValid, attr := attrDecrypt, share := zeros 32, masked := zeros 32 }
def raster0 : Raster := { Raster.idle with running := true }
/-- A take of flow 8 to egress flow 9, armed for `event0`. -/
def xp0 : XpEntry := { xpDisconnect 9 with source := 8, disconnect := false }
def copy0 : BankCopy := { owner := .event 0, tb := 3, late := false, state := .armed, entries := [xp0], routes := [], phases := [] }
def audBlank : AudRun := { flow := 9, egress := true, base := 0, count := 1 }
def picture0 : InPicture := { fields := [], startNs := 0, frame := 0, cadence := false, pic := fun _ _ => ⟨0, 0, 0⟩ }
def chBlank : CnvChoice := { a := picture0, b := picture0, num := 0, den := 1, shows := none }
theorem some_getD {α : Type} (o : Option α) (d : α) (h : o.isSome = true) : o = some (o.getD d) := by
  cases o with
  | none => cases h
  | some x => rfl

/-! ### Ill-formed commands -/

theorem test_illformed_line : Instr.wf (.refHEdge false 0) = false := by decide +kernel
theorem test_illformed_line_high : Instr.wf (.rindOpen 0 9001) = false := by decide +kernel
theorem test_illformed_bar0 : Instr.wf (.registerWrite 1 (.bar0 0x1000000 0) 0) = false := by decide +kernel
theorem test_illformed_bar4 : Instr.wf (.registerWrite 1 (.bar4 0x4000) 0) = false := by decide +kernel
theorem test_illformed_internal : Instr.wf (.registerWrite 1 (.internal (2 ^ 40)) 0) = false := by decide +kernel
theorem test_illformed_anc_line : Instr.wf (.ancPacketReceive 0 { anc0 true with line := 0 }) = false := by decide +kernel
theorem test_illformed_anc_did : Instr.wf (.ancPacketReceive 0 { anc0 true with did := 256 }) = false := by decide +kernel
theorem test_illformed_anc_word : Instr.wf (.ancPacketReceive 0 { anc0 true with words := [1024] }) = false := by decide +kernel
theorem test_illformed_anc_length : Instr.wf (.ancPacketReceive 0 { anc0 true with words := List.replicate 256 0 }) = false := by decide +kernel
theorem test_illformed_frame_time : Instr.wf (.ipFrameReceive 0 0 ⟨[], 0, 0, 1000000000⟩) = false := by decide +kernel
theorem test_illformed_mirror_offset : Instr.wf (.mirrorReceive (.write 0 0 0x800 0)) = false := by decide +kernel
theorem test_illformed_mirror_memory : Instr.wf (.mirrorReceive (.hbm (2 ^ 40) [1])) = false := by decide +kernel
theorem test_illformed_mirror_image : Instr.wf (.joinCopyDone [.write 0 0 0x800 0]) = false := by decide +kernel
theorem test_illformed_read_offset : Instr.wf (.loRegisterRead 1 (.page 0) 0x1000) = false := by decide +kernel
theorem test_illformed_rc_offset : Instr.wf (.rcRead 1 0 0x1000) = false := by decide +kernel
theorem test_illformed_parity_offset : Instr.wf (.configParityError 0 0 0x800 0) = false := by decide +kernel
theorem test_illformed_parity_bit : Instr.wf (.configParityError 0 0 0 32) = false := by decide +kernel
theorem test_illformed_fragment : Instr.wf (.segmentIngress 0 1 0 0 (zeros 9) false) = false := by decide +kernel
theorem test_illformed_ptp_offset : Instr.wf (.ptpClientRestart 1 0 0x1000 0) = false := by decide +kernel
theorem test_illformed_memory_range : Instr.wf (.hbmWrite 1 (2 ^ 40) [1]) = false := by decide +kernel
theorem test_illformed_block_length : Instr.wf (.gylosBlockReceive 0 0 ⟨[true, false]⟩) = false := by decide +kernel
theorem test_illformed_nak : Instr.wf (.linkNak 0 0 256) = false := by decide +kernel
theorem test_illformed_bar2_empty : Instr.wf (.bar2Read 0 0) = false := by decide +kernel
theorem test_illformed_bar2_range : Instr.wf (.bar2Read 0x10000000 1) = false := by decide +kernel
theorem test_illformed_bar2_enables : Instr.wf (.bar2Write 0 [1] []) = false := by decide +kernel
theorem test_illformed_purpose : Instr.wf (.powerRequest 0 14) = false := by decide +kernel
theorem test_illformed_line_input : Instr.wf (.rasterLineStart (.cpo 0) ⟨0, []⟩) = false := by decide +kernel
theorem test_illformed_record_line : Instr.wf (.segmentRecordReceive 0 { record0 0 1 with line := 0 }) = false := by decide +kernel
theorem test_illformed_seal_line : Instr.wf (.sealReceive { seal0 true with line := 0 }) = false := by decide +kernel
theorem test_illformed_sdi_line : Instr.wf (.sdirxLine 0 { sdiLine0 with line := 0 }) = false := by decide +kernel

/-! ### Values that the manual gives -/

/-- 1080p50 has 2,640 sample periods in each of 1,125 lines, and line 7 as switch line (R6). -/
theorem test_raster_1080p50 : (fmtLines 0, fmtSamples 0 5, switchLines 0) = (1125, 2640, [7]) := by decide +kernel

/-- The test vector of the scrambler: an IDLE block with SEQ = 0x00 (R263). -/
theorem test_scrambler_idle : (scramble 0 (zeros 128)).take 4 = [0xCC, 0x0E, 0x0E, 0x0D] := by decide +kernel

/-- A run of 24 identical bits, its stuffing bit and a violation (R264). -/
theorem test_stuffing : stuffed false 0 (List.replicate 25 true) = (List.replicate 24 true ++ [false, true], true, 1) ∧
    destuffed false 0 (List.replicate 24 true ++ [false, true]) = (List.replicate 25 true, false, true, 1) ∧
    (destuffed false 0 (List.replicate 26 true)).2.1 = true := by decide +kernel

/-- The CRC-32C of the nine bytes "123456789" (the worked example of chapter 17). -/
theorem test_crc32c_check_value : crc32c [0x31, 0x32, 0x33, 0x34, 0x35, 0x36, 0x37, 0x38, 0x39] = 0xE3069283 := by
  decide +kernel

/-- The lock of an engine is taken by the first of two masters (R31). -/
theorem test_lock_is_taken : (match exec (.lockWrite 1 (⟨pgTb 0, by decide⟩) 0x10) State.reset with
    | .next t => (t.get (pgTb 0) 0 F.hdrLockHeld, t.get (pgTb 0) 0 F.hdrLockOwner)
    | _ => (9, 9)) = (1, 1) := by
  decide +kernel

/-- DEVICE_ID starts with part number 0x1640 (R3). -/
theorem test_device_id_part : State.reset.get pgDev 0 F.devDeviceIdPart = 0x1640 := by decide +kernel

/-! ### Hypotheses that are met -/

theorem witness_AudioPortsComplete :
    (∃ (n : Fin 32) (s : Machine.State) (m : Fin 8),
    s.accepts (↑m) (pgAup ↑n) 128 = true ∧ s.flag (pgAup ↑n) 0 F.aupCtrlEn = false ∧ s.running (pgAup ↑n) = false ∧
      s.acts (pgAup ↑n) = true) ∧
    (∃ (n : Fin 32) (s : Machine.State) (m : Fin 8),
    s.accepts (↑m) (pgAup ↑n) 128 = true ∧ s.flag (pgAup ↑n) 0 F.aupCtrlEn = true ∧
      (s.aup ↑n).state = AupState.running) ∧
    (∃ (n : Fin 32) (s : Machine.State) (m : Fin 8),
    s.accepts (↑m) (pgAup ↑n) 128 = true ∧ s.flag (pgAup ↑n) 0 F.aupCtrlEn = true ∧
      (s.aup ↑n).state = AupState.armed) ∧
    (∃ (n : Fin 32) (s : Machine.State),
    (s.aup ↑n).state = AupState.stopping ∧ s.flag (pgAup ↑n) 0 F.aupCtrlEn = false ∧
      s.gateShut { page := pgAup ↑n, cell := 0, slot := 0 } = true ∧
      s.gateShut { page := pgAup ↑n, cell := 1, slot := 0 } = true) ∧
    (∃ (n : Fin 32) (s : Machine.State),
    (s.aup ↑n).state = AupState.starting ∧ s.flag (pgAup ↑n) 0 F.aupCtrlMaster = true ∧
      s.flag (pgAup ↑n) 0 F.aupCtrlDir = false ∧ s.leases = []) ∧
    (∃ (n : Fin 32) (s : Machine.State),
    (s.aup ↑n).state = AupState.running ∧ s.flag (pgAup ↑n) 0 F.aupCtrlDir = true ∧
      s.flag (pgAup ↑n) 0 F.aupCtrlSrc = true ∧ s.hoopFill ↑n = 0 ∧
      s.gate { page := pgAup ↑n, cell := 0, slot := 0 } = none ∧
      s.gate { page := pgAup ↑n, cell := 1, slot := 0 } = none ∧ s.aupDue ↑n = true) ∧
    (∃ (n : Fin 32) (s : Machine.State),
    (s.aup ↑n).state = AupState.running ∧ s.flag (pgAup ↑n) 0 F.aupCtrlMaster = false ∧
      (s.aup ↑n).edgeNs + 2 * (1000000000 / srateHz (s.get (pgAup ↑n) 0 F.aupCtrlRate)) ≤ s.now) ∧
    (∃ (n : Fin 32) (s : Machine.State) (t0 : Nat),
    (s.aup ↑n).state = AupState.running ∧ s.flag (pgAup ↑n) 0 F.aupCtrlMaster = false ∧
      (s.aup ↑n).offSince = some t0 ∧ t0 + mismatchNs ≤ s.now) ∧
    (∃ (n : Fin 32) (s : Machine.State),
    s.running (pgAup ↑n) = true) ∧
    (∃ (n : Fin 32) (s : Machine.State),
    s.flag (pgAup ↑n) 0 F.aupCtrlNcoMode = true ∧ s.flag (pgAup ↑n) 0 F.aupCtrlDir = true ∧
      s.flag (pgAup ↑n) 0 F.aupCtrlMaster = true ∧ (s.aup ↑n).state = AupState.running) :=
  ⟨⟨31, seed [((pgAup 31), 0, F.aupCtrlEn, 0), ((pgAup 31), 0, F.hdrReady, 1)], 7, by decide +kernel⟩,
    ⟨31, { (seed [((pgAup 31), 0, F.aupCtrlEn, 1)]) with aups := [(31, { AupRun.cold with state := .running })] }, 7,
      by decide +kernel⟩,
    ⟨31, { (seed [((pgAup 31), 0, F.aupCtrlEn, 1)]) with aups := [(31, { AupRun.cold with state := .armed })] }, 7,
      by decide +kernel⟩,
    ⟨31, { (seed [((pgAup 31), 0, F.aupCtrlEn, 0)]) with aups := [(31, { AupRun.cold with state := .stopping })], gates := [(⟨pgAup 31, 0, 0⟩, ⟨.shut, none, 0, 0⟩), (⟨pgAup 31, 1, 0⟩, ⟨.shut, none, 0, 0⟩)] }, by decide +kernel⟩,
    ⟨31, { (seed [((pgAup 31), 0, F.aupCtrlMaster, 1), ((pgAup 31), 0, F.aupCtrlDir, 0)]) with aups := [(31, { AupRun.cold with state := .starting })], leases := [] }, by decide +kernel⟩,
    ⟨31, { (seed [((pgAup 31), 0, F.aupCtrlDir, 1), ((pgAup 31), 0, F.aupCtrlSrc, 1), (pgAup 31, 0, F.aupCtrlMaster, 0)]) with aups := [(31, { AupRun.cold with state := .running })] }, by decide +kernel⟩,
    ⟨31, { (seed [((pgAup 31), 0, F.aupCtrlMaster, 0), (pgAup 31, 0, F.aupCtrlMaster, 0)]) with aups := [(31, { AupRun.cold with state := .running })], now := 100000 }, by decide +kernel⟩,
    ⟨31, { (seed [((pgAup 31), 0, F.aupCtrlMaster, 0)]) with aups := [(31, { AupRun.cold with state := .running, offSince := some 0 })], now := mismatchNs }, 0, by decide +kernel⟩,
    ⟨31, seed [((pgAup 31), 0, F.hdrStatusRunning, 1)], by decide +kernel⟩,
    ⟨31, { (seed [((pgAup 31), 0, F.aupCtrlNcoMode, 1), ((pgAup 31), 0, F.aupCtrlDir, 1), ((pgAup 31), 0, F.aupCtrlMaster, 1)]) with aups := [(31, { AupRun.cold with state := .running })] }, by decide +kernel⟩⟩

theorem witness_AudioRoutesComplete :
    (∃ (m : Fin 8) (w : Word) (out : Nat) (s : Machine.State),
    s.accepts (↑m) pgAsh 148 = true ∧ out = s.get pgAsh 0 F.ashRouteIndexOut ∧
      F.ashRouteRamp.legal.ok (bits (BitVec.toNat w) 24 6) = true ∧
      F.ashRouteSource.legal.ok (bits (BitVec.toNat w) 0 13) = true ∧
      s.samePeriod out (s.routeRun out).eventNs s.now = false) ∧
    (∃ (out : Fin 6144) (s : Machine.State),
    (s.routeRun ↑out).ramping = true ∧ (s.routeRun ↑out).held = false) ∧
    (∃ (m : Fin 8) (s : Machine.State),
    s.accepts (↑m) pgAsh 176 = true ∧ s.acts pgAsh = true ∧ s.setOp = none ∧
      s.setBusy (s.get pgAsh 0 F.ashRsIndexSet) = false ∧ 1 ≤ s.get pgAsh 0 F.ashRsCountCount ∧
      s.get pgAsh 0 F.ashRsCountCount ≤ 6144 ∧ s.get pgAsh 0 F.ashRsCountCount ≤ s.routeFree) ∧
    (∃ (v : Nat) (es : List RouteEntry) (s : Machine.State),
    s.setOp = some { set := v, entries := some es }) ∧
    (∃ (unit : Fin 4) (ch : Fin 128) (s : Machine.State),
    s.flag (pgAsrc ↑unit) (↑ch) F.asrcChStatusBound = true) ∧
    (∃ (page : Fin 4096) (channel : Nat) (cell : Nat) (g : Gate) (s : Machine.State),
    s.gate { page := ↑page, cell := channel, slot := cell } = some g ∧ g.sinceNs + s.crossTimeout ↑page ≤ s.now ∧
      g.state = GateState.opening) ∧
    (∃ (page : Fin 4096) (channel : Nat) (cell : Nat) (g : Gate) (s : Machine.State),
    s.gate { page := ↑page, cell := channel, slot := cell } = some g ∧ g.sinceNs + s.crossTimeout ↑page ≤ s.now ∧
      (g.state = GateState.closing ∨ g.state = GateState.leaving)) :=
  ⟨⟨7, 0x04000000, 0, seed [(pgAsh, 0, F.ashRouteIndexOut, 0)], by decide +kernel⟩,
    ⟨6143, { State.reset with routes := [(6143, { RouteRun.cold with ramping := true })] }, by decide +kernel⟩,
    ⟨7, { (seed [(pgAsh, 0, F.hdrReady, 1), (pgAsh, 0, F.ashRsCountCount, 1)]) with setOp := none },
      by decide +kernel⟩,
    ⟨0, [], { State.reset with setOp := some { set := 0, entries := some ([]) } }, by decide +kernel⟩,
    ⟨3, 127, seed [((pgAsrc 3), (127), F.asrcChStatusBound, 1)], by decide +kernel⟩,
    ⟨⟨pgAup 31, by decide⟩, 1, 0, ⟨.opening, none, 0, 7⟩,
      { State.reset with now := 3000000, gates := [(⟨pgAup 31, 1, 0⟩, ⟨.opening, none, 0, 7⟩)] }, by decide +kernel⟩,
    ⟨⟨pgAup 31, by decide⟩, 1, 0, ⟨.leaving, none, 0, 7⟩,
      { State.reset with now := 3000000, gates := [(⟨pgAup 31, 1, 0⟩, ⟨.leaving, none, 0, 7⟩)] }, by decide +kernel⟩⟩

theorem witness_BezelCommandsComplete :
    (∃ (m : Fin 8) (w : Word) (s : Machine.State),
    s.accepts (↑m) pgBez 192 = true ∧ s.bezState (s.get pgBez 0 F.bezCellIndexCell) = bezUnbound ∧
      s.decryptSlot (bits (BitVec.toNat w) 0 7) = true) ∧
    (∃ (m : Fin 8) (s : Machine.State),
    s.accepts (↑m) pgBez 208 = true ∧ (s.bezCell (s.get pgBez 0 F.bezCellIndexCell)).op = none ∧
      (s.bezCell (s.get pgBez 0 F.bezCellIndexCell)).waiting = [] ∧
      s.bezState (s.get pgBez 0 F.bezCellIndexCell) ≠ bezUnbound ∧
      s.bezState (s.get pgBez 0 F.bezCellIndexCell) ≠ bezKeyLost) ∧
    (∃ (cell : Fin 16) (o : BezOp) (s : Machine.State) (code : Nat),
    (s.bezCell ↑cell).op = some o ∧ s.bezPaired = false ∧
      ((s.putBez (↑cell) (have __src := s.bezCell ↑cell; { own := __src.own, partner := __src.partner, gen := __src.gen, image := __src.image, waiting := __src.waiting, op := none, quiet := __src.quiet })).put pgBez (↑cell) F.bezCellStatusBusy 0).bezVerdict (↑cell) o = Sum.inl code) ∧
    (∃ (cell : Fin 16) (o : BezOp) (s : Machine.State) (kind : Nat) (alive : Nat) (b : Bytes),
    (s.bezCell ↑cell).op = some o ∧ s.bezPaired = false ∧
      ((s.putBez (↑cell) (have __src := s.bezCell ↑cell; { own := __src.own, partner := __src.partner, gen := __src.gen, image := __src.image, waiting := __src.waiting, op := none, quiet := __src.quiet })).put pgBez (↑cell) F.bezCellStatusBusy 0).bezVerdict (↑cell) o = Sum.inr (kind, alive, b)) :=
  ⟨⟨7, 127, { State.reset with keySlots := [(127, keySlot0)] }, by decide +kernel⟩,
    ⟨7, seed [(pgBez, 0, F.bezCellStatusState, bezBound)], by decide +kernel⟩,
    ⟨15, ⟨none, none, 64⟩, { State.reset with bez := [(15, { BezCell.cold with op := some ⟨none, none, 64⟩ })] },
      bezReadFail, by decide +kernel⟩,
    ⟨15, ⟨some bezHead0, some bezRest0, 64⟩,
      { (seed [(pgBez, 15, F.bezCellKeySlot, 127)]) with bez := [(15, { BezCell.cold with op := some ⟨some bezHead0, some bezRest0, 64⟩ })], keySlots := [(127, keySlot0)] }, 2, 1, zeros 16, by decide +kernel⟩⟩

theorem witness_CaveCommandsComplete :
    (∃ (page : Fin 4096) (s : Machine.State),
    populated (home ↑page) = true ∧ home ↑page ≠ pgCave ∧ s.caveDue (home ↑page) = true ∧ s.journal.length < 4) ∧
    (∃ (b : CaveBatch) (rest : List CaveBatch) (s : Machine.State),
    s.journal = b :: rest ∧ s.caveWait = []) ∧
    (∃ (m : Fin 8) (w : Word) (s : Machine.State),
    s.accepts (↑m) pgCave F.caveCtrlClear.off = true ∧ F.caveCtrlKey.extract (BitVec.toNat w) = 24186 ∧
      s.caveWait = []) ∧
    (∃ (m : Fin 8) (w : Word) (s : Machine.State),
    s.accepts (↑m) pgCave F.caveCtrlClear.off = true ∧ F.caveCtrlKey.extract (BitVec.toNat w) ≠ 24186) ∧
    (∃ (page : Fin 4096) (s : Machine.State),
    hasImage ↑page = true ∧ s.hbm = HbmState.ready ∧ ↑page = pgFlow) :=
  ⟨⟨⟨pgTb 3, by decide⟩, { State.reset with caveDirty := [pgTb 3] }, by decide +kernel⟩,
    ⟨⟨pgTb 3, []⟩, [], { State.reset with journal := [⟨pgTb 3, []⟩], caveWait := [] }, by decide +kernel⟩,
    ⟨7, 0x5E7A0000, { State.reset with caveWait := [] }, by decide +kernel⟩,
    ⟨7, 0, State.reset, by decide +kernel⟩,
    ⟨⟨pgFlow, by decide⟩, { State.reset with hbm := HbmState.ready }, by decide +kernel⟩⟩

theorem witness_ChangeoverAndSealsComplete :
    (∃ (g : Fin 12) (b : Bool) (s : Machine.State),
    s.role = roleLead ∧ Assoc.find id (↑g) s.coTarget = some b) ∧
    (∃ (g : Fin 12) (level : Bool) (s : Machine.State),
    bit s.coIn ↑g ≠ level) ∧
    (∃ (g : Fin 12) (s : Machine.State),
    s.role = roleLead ∧ bit s.coIn ↑g ≠ bit s.coOut ↑g ∧ s.elapsed pgClasp (↑g) timerSwitch switchNs = true) ∧
    (∃ (m : Fin 8) (w : Word) (s : Machine.State),
    s.accepts (↑m) pgClasp F.claspCoCmdGo.off = true ∧ s.role = roleLead ∧ s.pairing = pairReady ∧
      F.claspCoCmdGroup.extract (BitVec.toNat w) < 12 ∧
      s.sideFaulty (F.claspCoCmdSide.extract (BitVec.toNat w)) (F.claspCoCmdGroup.extract (BitVec.toNat w)) = false) ∧
    (∃ (m : Fin 8) (w : Word) (s : Machine.State),
    s.accepts (↑m) pgClasp F.claspCoCmdGo.off = true ∧
      (s.role ≠ roleLead ∨ s.pairing ≠ pairReady ∨ 12 ≤ F.claspCoCmdGroup.extract (BitVec.toNat w) ∨ s.sideFaulty (F.claspCoCmdSide.extract (BitVec.toNat w)) (F.claspCoCmdGroup.extract (BitVec.toNat w)) = true)) ∧
    (∃ (x : SealMsg) (p : Nat) (i : Nat) (g : Option Nat) (s : Machine.State),
    pairCompare ≤ s.pairing ∧ s.outputOf ↑x.flow = some (p, i, g) ∧
      (x.waived = true ∨ Option.any OutSeal.waived (s.ownSeal x) = true)) ∧
    (∃ (x : SealMsg) (p : Nat) (i : Nat) (g : Option Nat) (s : Machine.State) (y : OutSeal),
    pairCompare ≤ s.pairing ∧ s.outputOf ↑x.flow = some (p, i, g) ∧ x.waived = false ∧ s.ownSeal x = some y ∧
      y.waived = false ∧ x.lineSeal.toNat = y.value) ∧
    (∃ (x : SealMsg) (p : Nat) (i : Nat) (g : Option Nat) (s : Machine.State) (y : OutSeal),
    pairCompare ≤ s.pairing ∧ s.outputOf ↑x.flow = some (p, i, g) ∧ x.waived = false ∧ s.ownSeal x = some y ∧
      y.waived = false ∧ x.lineSeal.toNat ≠ y.value ∧ (↑x.flow, x.frame.toNat) ∉ s.sealRecords) ∧
    (∃ (s : Machine.State),
    s.pairing = pairReady ∧ s.hbLaneNs + 100000 ≤ s.now ∧ s.role = roleLead) ∧
    (∃ (s : Machine.State),
    s.pairing = pairReady ∧ s.hbLaneNs + 100000 ≤ s.now ∧ s.role = roleShadow ∧ s.hbPinNs + 100000 ≤ s.now) ∧
    (∃ (s : Machine.State),
    s.pairing = pairReady ∧ s.hbLaneNs + 100000 ≤ s.now ∧ s.role = roleShadow ∧ s.now < s.hbPinNs + 100000) :=
  ⟨⟨11, true, { (seed [(pgClasp, 0, F.claspStateRole, roleLead)]) with coTarget := [(11, true)] }, by decide +kernel⟩,
    ⟨11, true, State.reset, by decide +kernel⟩,
    ⟨11, { (seed [(pgClasp, 0, F.claspStateRole, roleLead)]) with coIn := 0x800, now := 2000, timers := [(⟨pgClasp, 11, timerSwitch⟩, 0)] }, by decide +kernel⟩,
    ⟨7, 0, seed [(pgClasp, 0, F.claspStateRole, roleLead), (pgClasp, 0, F.claspState, pairReady)], by decide +kernel⟩,
    ⟨7, 0, State.reset, by decide +kernel⟩,
    ⟨seal0 true, pgSditx 95, fltWhole, some 11,
      { (seed [(pgClasp, 0, F.claspState, pairCompare), (pgFlow, 4095, F.flowwinCtx0Valid, 1), (pgFlow, 4095, F.flowwinCtx0Dir, 1), (pgFlow, 4095, F.flowwinCtx0Port, 95)]) with seals := [⟨4095, 1, 0, 0, 7, false, false⟩] }, by decide +kernel⟩,
    ⟨seal0 false, pgSditx 95, fltWhole, some 11,
      { (seed [(pgClasp, 0, F.claspState, pairCompare), (pgFlow, 4095, F.flowwinCtx0Valid, 1), (pgFlow, 4095, F.flowwinCtx0Dir, 1), (pgFlow, 4095, F.flowwinCtx0Port, 95)]) with seals := [⟨4095, 1, 0, 0, 7, false, false⟩] }, ⟨4095, 1, 0, 0, 7, false, false⟩, by decide +kernel⟩,
    ⟨seal0 false, pgSditx 95, fltWhole, some 11,
      { (seed [(pgClasp, 0, F.claspState, pairCompare), (pgFlow, 4095, F.flowwinCtx0Valid, 1), (pgFlow, 4095, F.flowwinCtx0Dir, 1), (pgFlow, 4095, F.flowwinCtx0Port, 95)]) with seals := [⟨4095, 1, 0, 0, 8, false, false⟩] }, ⟨4095, 1, 0, 0, 8, false, false⟩, by decide +kernel⟩,
    ⟨{ (seed [(pgClasp, 0, F.claspState, pairReady), (pgClasp, 0, F.claspStateRole, roleLead)]) with now := 100000 },
      by decide +kernel⟩,
    ⟨{ (seed [(pgClasp, 0, F.claspState, pairReady), (pgClasp, 0, F.claspStateRole, roleShadow)]) with now := 100000 }, by decide +kernel⟩,
    ⟨{ (seed [(pgClasp, 0, F.claspState, pairReady), (pgClasp, 0, F.claspStateRole, roleShadow)]) with now := 100000, hbPinNs := 1 }, by decide +kernel⟩⟩

theorem witness_CheckValueUnitsComplete :
    (∃ (n : Fin 16) (s : Machine.State) (m : Fin 8),
    s.accepts (↑m) (pgCvu ↑n) 160 = true ∧ s.acts (pgCvu ↑n) = true ∧ (s.cvu ↑n).job = none ∧
      s.get (pgCvu ↑n) 0 F.cvuLenBytes ≠ 0 ∧ s.flag (pgCvu ↑n) 0 F.cvuCfgCont = false) ∧
    (∃ (n : Fin 16) (s : Machine.State) (m : Fin 8),
    s.accepts (↑m) (pgCvu ↑n) 160 = true ∧ s.acts (pgCvu ↑n) = true ∧ (s.cvu ↑n).job = none ∧
      s.get (pgCvu ↑n) 0 F.cvuLenBytes ≠ 0 ∧ s.flag (pgCvu ↑n) 0 F.cvuCfgCont = true) ∧
    (∃ (n : Fin 16) (s : Machine.State) (m : Fin 8) (x : Nat × Nat),
    s.accepts (↑m) (pgCvu ↑n) 160 = true ∧ s.acts (pgCvu ↑n) = true ∧ (s.cvu ↑n).job = some x) ∧
    (∃ (n : Fin 16) (s : Machine.State) (m : Fin 8),
    s.acts (pgCvu ↑n) = true ∧ (s.cvu ↑n).job = none ∧ s.accepts (↑m) (pgCvu ↑n) 164 = true) ∧
    (∃ (n : Fin 16) (s : Machine.State) (m : Fin 8),
    s.acts (pgCvu ↑n) = true ∧ (s.cvu ↑n).job = none ∧ s.accepts (↑m) (pgCvu ↑n) 168 = true) ∧
    (∃ (n : Fin 16) (s : Machine.State) (addr : Nat) (len : Nat),
    (s.cvu ↑n).job = some (addr, len) ∧ List.length (s.readable addr len) = len) :=
  ⟨⟨15, seed [((pgCvu 15), 0, F.hdrReady, 1), ((pgCvu 15), 0, F.cvuCfgCont, 0), (pgCvu 15, 0, F.cvuLenBytes, 1)], 7,
    by decide +kernel⟩,
    ⟨15, seed [((pgCvu 15), 0, F.hdrReady, 1), ((pgCvu 15), 0, F.cvuCfgCont, 1), (pgCvu 15, 0, F.cvuLenBytes, 1)], 7,
      by decide +kernel⟩,
    ⟨15, { (seed [((pgCvu 15), 0, F.hdrReady, 1)]) with cvus := [(15, { CvuRun.cold with job := some (0, 1) })] }, 7,
      (0, 1), by decide +kernel⟩,
    ⟨15, seed [((pgCvu 15), 0, F.hdrReady, 1)], 7, by decide +kernel⟩,
    ⟨15, seed [((pgCvu 15), 0, F.hdrReady, 1)], 7, by decide +kernel⟩,
    ⟨15, { State.reset with cvus := [(15, { CvuRun.cold with job := some (0, 1) })] }, 0, 1, by decide +kernel⟩⟩

theorem witness_CommandsKeepQueueAndTime :
    ∃ (i : Instr) (s : Machine.State) (t : Machine.State),
    exec i s = Host.Outcome.next t ∧ (∀ (mapMode twinSide : Bool), i ≠ Instr.coldReset mapMode twinSide) :=
  ⟨.configComparePass, State.reset, State.reset, rfl, (fun _ _ h => by cases h)⟩

theorem witness_CommitPointsComplete :
    (∃ (k : Fin 4) (page : Fin 4096) (s : Machine.State),
    ↑page = pgTb ↑k ∧ (s.tb ↑k).state ≠ TbState.off ∧ s.commitPending (↑page) 0 = true ∧
      (s.unit (↑page) 0).frame = none) ∧
    (∃ (k : Fin 4) (page : Fin 4096) (s : Machine.State),
    ↑page = pgTb ↑k ∧ (s.tb ↑k).state ≠ TbState.off ∧ s.commitPending (↑page) 0 = false) ∧
    (∃ (n : Fin 96) (page : Fin 4096) (s : Machine.State),
    ↑page = pgSdirx ↑n ∧ s.lock ↑n = lockLocked ∧ s.commitPending (↑page) 0 = true ∧
      (s.unit (↑page) 0).frame = none) ∧
    (∃ (n : Fin 96) (page : Fin 4096) (c : Nat) (v : Nat) (f : Machine.Field) (s : Machine.State),
    ↑page = pgSdirx ↑n ∧ s.running ↑page = true ∧ (s.unit (↑page) 0).captured = true ∧
      (s.unit (↑page) 0).next = none ∧ f ∈ F.sdirxFields ∧ f.cls = FieldClass.shadow ∧ s.shadow = [(f.key (↑page) c,
      v)]) ∧
    (∃ (k : Fin 4) (page : Fin 4096) (c : Nat) (v : Nat) (f : Machine.Field) (s : Machine.State),
    ↑page = pgTb ↑k ∧ (s.tb ↑k).state ≠ TbState.off ∧ (s.unit (↑page) 0).captured = true ∧
      (s.unit (↑page) 0).next = none ∧ f ∈ F.tbFields ∧ f.cls = FieldClass.shadow ∧ s.shadow = [(f.key (↑page) c,
      v)]) ∧
    (∃ (page : Fin 4096) (off : Nat) (lo : Nat) (f : Machine.Field) (s : Machine.State),
    fieldAtSlot (↑page) (off * 32 + lo) = some f ∧ populated ↑page = true ∧ f.cls ≠ FieldClass.none ∧
      Option.map CaveRecord.sealOk (Assoc.find id (home ↑page) s.cave) = some true) :=
  ⟨⟨3, ⟨pgTb 3, by decide⟩,
    { (seed [(home ((pgTb 3)), (commitField ((pgTb 3)) 0).1, (commitField ((pgTb 3)) 0).2, 1)]) with tbs := [(3, { Timebase.cold with state := .free })] }, by decide +kernel⟩,
    ⟨3, ⟨pgTb 3, by decide⟩, { State.reset with tbs := [(3, { Timebase.cold with state := .free })] },
      by decide +kernel⟩,
    ⟨95, ⟨pgSdirx 95, by decide⟩, seed [(home ((pgSdirx 95)), (commitField ((pgSdirx 95)) 0).1,
      (commitField ((pgSdirx 95)) 0).2, 1), (pgSdirx 95, 0, F.hdrStatusEng, lockLocked)], by decide +kernel⟩,
    ⟨95, ⟨pgSdirx 95, by decide⟩, 0, 5, F.sdirxCtrlCrcConceal,
      { (seed [((pgSdirx 95), 0, F.hdrStatusRunning, 1)]) with shadow := [(F.sdirxCtrlCrcConceal.key (pgSdirx 95) 0, 5)], units := [(⟨pgSdirx 95, 0, 0⟩, { CommitUnit.idle with captured := true, frozen := true })] }, by decide +kernel⟩,
    ⟨3, ⟨pgTb 3, by decide⟩, 0, 5, F.tbPtpSelDomain,
      { State.reset with tbs := [(3, { Timebase.cold with state := .free })], shadow := [(F.tbPtpSelDomain.key (pgTb 3) 0, 5)], units := [(⟨pgTb 3, 0, 0⟩, { CommitUnit.idle with captured := true, frozen := true })] }, by decide +kernel⟩,
    ⟨⟨pgTb 3, by decide⟩, 0x080, 0, F.tbCtrlRun,
      { State.reset with cave := [(pgTb 3, { written := true, sealOk := true, values := [] })] }, by decide +kernel⟩⟩

theorem witness_CommitRequestsComplete :
    (∃ (m : Fin 8) (k : Fin 4) (page : Fin 4096) (s : Machine.State),
    ↑page = pgTb ↑k ∧ s.accepts (↑m) (↑page) F.hdrCommit.off = true ∧ s.inert ↑page = false ∧ s.running ↑page = true ∧
      s.commitPending (↑page) 0 = false) ∧
    (∃ (m : Fin 8) (k : Fin 4) (page : Fin 4096) (s : Machine.State),
    ↑page = pgTb ↑k ∧ s.accepts (↑m) (↑page) F.hdrCommit.off = true ∧ s.inert ↑page = false ∧
      s.running ↑page = false) ∧
    (∃ (m : Fin 8) (k : Fin 4) (page : Fin 4096) (s : Machine.State),
    ↑page = pgTb ↑k ∧ s.accepts (↑m) (↑page) F.hdrCommit.off = true ∧ s.inert ↑page = false ∧
      s.commitPending (↑page) 0 = false ∧ (s.tb ↑k).state ≠ TbState.off ∧ s.events.length < scheduleSize ∧
      s.frameLate (↑k) (s.frame48 (↑page) 0 F.hdrCommitFrameLoFrameLo F.hdrCommitFrameHiFrameHi) = false) ∧
    (∃ (m : Fin 8) (k : Fin 4) (page : Fin 4096) (s : Machine.State),
    ↑page = pgTb ↑k ∧ s.accepts (↑m) (↑page) F.hdrCommit.off = true ∧ s.inert ↑page = false ∧
      s.commitPending (↑page) 0 = true ∧ (s.unit (↑page) 0).captured = false ∧ (s.unit (↑page) 0).next = none) :=
  ⟨⟨7, 3, ⟨pgTb 3, by decide⟩, seed [((pgTb 3), 0, F.hdrReady, 1), ((pgTb 3), 0, F.hdrStatusRunning, 1)],
    by decide +kernel⟩,
    ⟨7, 3, ⟨pgTb 3, by decide⟩, seed [((pgTb 3), 0, F.hdrReady, 1)], by decide +kernel⟩,
    ⟨7, 3, ⟨pgTb 3, by decide⟩,
      { (seed [((pgTb 3), 0, F.hdrReady, 1), (pgTb 3, 0, F.hdrCommitFrameLoFrameLo, 5)]) with tbs := [(3, { Timebase.cold with state := .free })] }, by decide +kernel⟩,
    ⟨7, 3, ⟨pgTb 3, by decide⟩, seed [((pgTb 3), 0, F.hdrReady, 1), (home ((pgTb 3)), (commitField ((pgTb 3)) 0).1,
      (commitField ((pgTb 3)) 0).2, 1)], by decide +kernel⟩⟩

theorem witness_CompositorControlCompletes :
    (∃ (m : Fin 8) (n : Fin 16) (s : Machine.State),
    s.accepts (↑m) (pgCpo ↑n) 128 = true ∧ s.flag (pgCpo ↑n) 0 F.cpoCtrlEn = false ∧ s.running (pgCpo ↑n) = false ∧
      s.acts (pgCpo ↑n) = true ∧ s.powerSought (pgCpo ↑n) Purpose.compositor false = false ∧
      s.powerQueue.length < powerQueueSize ∧ 1800 ≤ s.get pgPau 0 F.pauBudgetMw) ∧
    (∃ (m : Fin 8) (n : Fin 16) (s : Machine.State),
    s.accepts (↑m) (pgCpo ↑n) 128 = true ∧ s.flag (pgCpo ↑n) 0 F.cpoCtrlEn = true ∧ s.running (pgCpo ↑n) = true ∧
      (s.raster (pgCpo ↑n) 0).waiting = false) ∧
    (∃ (m : Fin 8) (n : Fin 16) (s : Machine.State),
    s.accepts (↑m) (pgCpo ↑n) 128 = true ∧ s.flag (pgCpo ↑n) 0 F.cpoCtrlEn = true ∧ s.running (pgCpo ↑n) = true ∧
      (s.raster (pgCpo ↑n) 0).waiting = true ∧ (s.bezCell ↑n).waiting = [] ∧ (∀ (u : Nat),
      u < 8 → s.commitPending (pgCpo ↑n) u = false)) ∧
    (∃ (m : Fin 8) (n : Fin 16) (s : Machine.State),
    s.accepts (↑m) (pgCpo ↑n) 128 = true ∧ s.flag (pgCpo ↑n) 0 F.cpoCtrlEn = true ∧ s.running (pgCpo ↑n) = false) ∧
    (∃ (m : Fin 8) (n : Fin 16) (s : Machine.State),
    s.accepts (↑m) (pgCpo ↑n) 564 = true ∧ s.get (pgCpo ↑n) 0 F.cpoCellIndexCell < 7 ∧ s.running (pgCpo ↑n) = true ∧
      s.commitPending (pgCpo ↑n) (s.get (pgCpo ↑n) 0 F.cpoCellIndexCell + 1) = false) ∧
    (∃ (m : Fin 8) (n : Fin 16) (s : Machine.State),
    s.accepts (↑m) (pgCpo ↑n) 564 = true ∧ s.get (pgCpo ↑n) 0 F.cpoCellIndexCell < 7 ∧ s.running (pgCpo ↑n) = false ∧
      (s.unstage (pgCpo ↑n) (s.get (pgCpo ↑n) 0 F.cpoCellIndexCell + 1)).cpoLayerRefusal (↑n) (s.get (pgCpo ↑n) 0 F.cpoCellIndexCell) = none) ∧
    (∃ (m : Fin 8) (n : Fin 16) (s : Machine.State),
    s.accepts (↑m) (pgCpo ↑n) 564 = true ∧ s.get (pgCpo ↑n) 0 F.cpoCellIndexCell < 7 ∧
      s.commitPending (pgCpo ↑n) (s.get (pgCpo ↑n) 0 F.cpoCellIndexCell + 1) = true ∧
      (s.unit (pgCpo ↑n) (s.get (pgCpo ↑n) 0 F.cpoCellIndexCell + 1)).captured = false ∧
      (s.unit (pgCpo ↑n) (s.get (pgCpo ↑n) 0 F.cpoCellIndexCell + 1)).next = none) ∧
    (∃ (n : Fin 16) (s : Machine.State),
    (s.raster (pgCpo ↑n) 0).running = true ∧ (s.raster (pgCpo ↑n) 0).waiting = false) :=
  ⟨⟨7, 15, seed [((pgCpo 15), 0, F.cpoCtrlEn, 0), ((pgCpo 15), 0, F.hdrReady, 1), (pgPau, 0, F.pauBudgetMw, 1800)],
    by decide +kernel⟩,
    ⟨7, 15, seed [((pgCpo 15), 0, F.cpoCtrlEn, 1), ((pgCpo 15), 0, F.hdrStatusRunning, 1)], by decide +kernel⟩,
    ⟨7, 15, { (seed [((pgCpo 15), 0, F.cpoCtrlEn, 1), ((pgCpo 15), 0, F.hdrStatusRunning, 1)]) with rasters := [(⟨pgCpo 15, 0, 0⟩, { raster0 with waiting := true })] }, by decide +kernel⟩,
    ⟨7, 15, seed [((pgCpo 15), 0, F.cpoCtrlEn, 1)], by decide +kernel⟩,
    ⟨7, 15, seed [((pgCpo 15), 0, F.hdrStatusRunning, 1)], by decide +kernel⟩,
    ⟨7, 15, State.reset, by decide +kernel⟩,
    ⟨7, 15, seed [(pgCpo 15, 0, F.cpoCellIndexCell, 6), (pgCpo 15, 6, F.cpoLCommitCommit, 1)], by decide +kernel⟩,
    ⟨15, { State.reset with rasters := [(⟨pgCpo 15, 0, 0⟩, raster0)] }, by decide +kernel⟩⟩

theorem witness_DatapathFaultsComplete :
    ∃ (f : Fin 4096) (s : Machine.State),
    s.flag pgFlt 0 F.fltCoverSeals = true ∧ s.flag pgFlow (↑f) F.flowwinCtx6SealEn = true :=
  ⟨4095, seed [(pgFlt, 0, F.fltCoverSeals, 1), (pgFlow, (4095), F.flowwinCtx6SealEn, 1)], by decide +kernel⟩

theorem witness_DeviceIdIsFixed :
    (∃ (s : Machine.State) (m : Fin 8),
    (∀ f ∈ fieldsAt pgDev 128, s.get pgDev 0 f = coldOf pgDev 0 f) ∧ s.controlReset = false ∧ s.masterOpen ↑m = true ∧
      Assoc.find Key.code (latchKey (↑m) pgDev 128) s.latch = none) ∧
    (∃ (s : Machine.State),
    (∀ f ∈ fieldsAt pgDev 128, s.get pgDev 0 f = coldOf pgDev 0 f)) ∧
    (∃ (s : Machine.State) (mapMode : Bool) (twinSide : Bool) (loss : PortLoss) (m : Fin 8) (i : Instr),
    (∀ f ∈ fieldsAt pgDev 128, s.get pgDev 0 f = coldOf pgDev 0 f) ∧ i ∈ [Instr.coldReset mapMode twinSide,
      Instr.warmReset, Instr.watchdogExpiry, Instr.devResetWarm m, Instr.devResetControl m, Instr.pcieReset loss]) :=
  ⟨⟨{ State.reset with controlReset := false }, 7, (fun _ _ => rfl), by decide +kernel, by decide +kernel,
    by decide +kernel⟩,
    ⟨State.reset, (fun _ _ => rfl)⟩,
    ⟨State.reset, true, true, ⟨true, [], 0⟩, 7, .warmReset, (fun _ _ => rfl), by decide +kernel⟩⟩

theorem witness_DoneLogKeepsOrder :
    (∃ (e : Event) (s : Machine.State),
    e.notify = true ∧ s.doneLog.length < 64) ∧
    (∃ (e : Event) (s : Machine.State),
    e.notify = true ∧ 64 ≤ s.doneLog.length) ∧
    (∃ (e : Event),
    e.notify = false ∧ e.kind ≠ EvKind.notify) ∧
    (∃ (h : BitVec 16) (e : Event) (s : Machine.State),
    s.pendingEvent h.toNat = some e ∧ e.kind = EvKind.notify ∧ s.doneLog.length < 64) ∧
    (∃ (h : BitVec 16) (e : Event) (s : Machine.State),
    s.pendingEvent h.toNat = some e ∧ e.kind = EvKind.notify ∧ 64 ≤ s.doneLog.length) ∧
    (∃ (m : Fin 8) (s : Machine.State) (h : Nat) (rest : List Nat),
    s.controlReset = false ∧ s.masterOpen ↑m = true ∧
      Assoc.find Key.code (latchKey (↑m) pgSched F.schedDoneHandle.off) s.latch = none ∧ s.doneLog = h :: rest) ∧
    (∃ (m : Fin 8) (s : Machine.State),
    s.controlReset = false ∧ s.masterOpen ↑m = true ∧
      Assoc.find Key.code (latchKey (↑m) pgSched F.schedDoneHandle.off) s.latch = none ∧ s.doneLog = []) :=
  ⟨⟨event0 .take true, State.reset, by decide +kernel⟩,
    ⟨event0 .take true, { State.reset with doneLog := List.replicate 64 0 }, by decide +kernel⟩,
    ⟨event0 .take false, by decide +kernel⟩,
    ⟨0, event0 .notify true, { State.reset with events := [event0 .notify true] }, by decide +kernel⟩,
    ⟨0, event0 .notify true, { State.reset with events := [event0 .notify true], doneLog := List.replicate 64 0 },
      by decide +kernel⟩,
    ⟨7, { State.reset with controlReset := false, doneLog := 0 :: ([]) }, 0, [], by decide +kernel⟩,
    ⟨7, { State.reset with controlReset := false, doneLog := [] }, by decide +kernel⟩⟩

theorem witness_FabricEventsComplete :
    (∃ (m : Fin 8) (l : Nat) (s : Machine.State),
    s.accepts (↑m) (pgFab 0) 160 = true ∧ s.deviceIdSet = true ∧
      s.routeOk none (s.get (pgFab 0) (↑m) F.fabFevtRtLoPorts) (s.get (pgFab 0) (↑m) F.fabFevtRtHiHops) (s.get (pgFab 0) (↑m) F.fabFevtRtHiDstDev) = true ∧ s.fabOpen (pgFab (portAt (s.get (pgFab 0) (↑m) F.fabFevtRtLoPorts) 0)) = true ∧ s.fevtWait.length < 64 ∧ fevtKind (s.get (pgFab 0) (↑m) F.fabFevtW0Word) = true ∧ s.lowestUp (pgFab (portAt (s.get (pgFab 0) (↑m) F.fabFevtRtLoPorts) 0)) = some l) ∧
    (∃ (p : Fin 16) (x : FevtMsg) (s : Machine.State),
    s.fabLive (pgFab ↑p) = true ∧ x.enc = false ∧ s.flag (pgFab ↑p) 0 F.fabCtrlEncReq = false ∧ x.hops ≠ 0 ∧
      x.next = x.hops ∧ s.role ≠ roleShadow ∧ x.dst.toNat ≠ s.deviceId) ∧
    (∃ (p : Fin 16) (x : FevtMsg) (s : Machine.State) (kind : EvKind) (e : Event) (l : Nat),
    s.fabLive (pgFab ↑p) = true ∧ x.enc = false ∧ s.flag (pgFab ↑p) 0 F.fabCtrlEncReq = false ∧ x.hops ≠ 0 ∧
      x.next = x.hops ∧ s.role ≠ roleShadow ∧ x.dst.toNat = s.deviceId ∧ s.fw = FwState.running ∧
      evKindOf (bits (BitVec.toNat x.w0) 28 4) = some kind ∧
      e = eventOf (BitVec.toNat x.w0) (BitVec.toNat x.w1) (BitVec.toNat x.w2) (BitVec.toNat x.w3) kind EvOrigin.fabric ∧ s.evCheck e = evOk ∧ s.lowestUp (pgFab ↑p) = some l) ∧
    (∃ (p : Fin 16) (x : FevtAckMsg) (s : Machine.State),
    s.fabLive (pgFab ↑p) = true ∧ x.enc = false ∧ s.flag (pgFab ↑p) 0 F.fabCtrlEncReq = false ∧ x.hops ≠ 0 ∧
      x.next = x.hops ∧ (∃ e ∈ s.fevtWait, e.1 = x.tag.toNat) ∧ s.fevtLog.length < 64) ∧
    (∃ (tag : BitVec 16) (s : Machine.State),
    (∃ e ∈ s.fevtWait, e.1 = tag.toNat ∧ e.2 + 200000 ≤ s.now) ∧ s.fevtLog.length < 64) ∧
    (∃ (tag : BitVec 16) (s : Machine.State),
    (∃ e ∈ s.fevtWait, e.1 = tag.toNat ∧ e.2 + 200000 ≤ s.now) ∧ 64 ≤ s.fevtLog.length) ∧
    (∃ (m : Fin 8) (e : AckEntry) (rest : List AckEntry) (s : Machine.State),
    s.controlReset = false ∧ s.masterOpen ↑m = true ∧ s.fevtLog = e :: rest) :=
  ⟨⟨7, 0, seed [(pgFab 0, 0, F.fabFidValid, 1), (pgFab 0, 7, F.fabFevtRtHiHops, 1), (pgFab 0, 7, F.fabFevtRtHiDstDev,
    1), (pgFab 0, 0, F.fabPortStatusState, fabUp), (pgFab 0, 7, F.fabFevtW0Word, 0x10000000), (pgFab 0, 0,
    F.laneStatusState, laneUp)], by decide +kernel⟩,
    ⟨15, fevt0 1 0 0 0, seed [((pgFab 15), 0, F.fabPortStatusState, fabUp), ((pgFab 15), 3, F.laneStatusState,
      laneUp), ((pgFab 15), 0, F.fabCtrlEncReq, 0)], by decide +kernel⟩,
    ⟨15, fevt0 0 0x7C000007 5 0,
      { (seed [((pgFab 15), 0, F.fabPortStatusState, fabUp), ((pgFab 15), 3, F.laneStatusState, laneUp), ((pgFab 15), 0, F.fabCtrlEncReq, 0)]) with fw := FwState.running, tbs := [(3, { Timebase.cold with state := .free })] }, .notify, eventOf 0x7C000007 5 0 0 .notify .fabric, 3, by decide +kernel⟩,
    ⟨15, ⟨5, 1, 1, 0, 1, 0, false⟩,
      { (seed [((pgFab 15), 0, F.fabPortStatusState, fabUp), ((pgFab 15), 3, F.laneStatusState, laneUp), ((pgFab 15), 0, F.fabCtrlEncReq, 0)]) with fevtWait := [(5, 0)] }, by decide +kernel⟩,
    ⟨0, { State.reset with fevtWait := [(0, 0)], now := 200000 }, by decide +kernel⟩,
    ⟨0, { State.reset with fevtLog := List.replicate 64 ⟨0, 0, 0⟩, fevtWait := [(0, 0)], now := 200000 },
      by decide +kernel⟩,
    ⟨7, ⟨1, 2, 3⟩, [], { State.reset with controlReset := false, fevtLog := (⟨1, 2, 3⟩) :: ([]) }, by decide +kernel⟩⟩

theorem witness_FabricPortsComplete :
    (∃ (p : Fin 16) (s : Machine.State) (m : Fin 8),
    s.accepts (↑m) (pgFab ↑p) 192 = true ∧ s.running (pgFab ↑p) = false ∧ s.acts (pgFab ↑p) = true ∧
      s.deviceIdSet = true ∧ s.laneResumes (pgFab ↑p) 0 = false ∧ 600 ≤ s.get pgPau 0 F.pauBudgetMw ∧
      s.powerQueue.length < powerQueueSize) ∧
    (∃ (p : Fin 16) (s : Machine.State) (dev : BitVec 14),
    s.fabLive (pgFab ↑p) = true ∧ dev.toNat = s.deviceId) ∧
    (∃ (p : Fin 16) (s : Machine.State),
    s.flag (pgFab ↑p) 0 F.fabPortStatusNbrValid = true ∧ Tab.at 0 s.fabHello (pgFab ↑p) + 3000000 ≤ s.now) ∧
    (∃ (p : Fin 16) (s : Machine.State) (r : SegRecord) (q : Nat) (l : Nat),
    s.fabLive (pgFab ↑p) = true ∧ r.enc = false ∧ s.flag (pgFab ↑p) 0 F.fabCtrlEncReq = false ∧ r.errored = false ∧
      r.line ≠ 0 ∧ r.next < r.hops ∧ q = pgFab (portAt r.ports.toNat ↑r.next) ∧ s.fabOpen q = true ∧
      s.transitHeld q (recordKind r.ty) + List.length (recordBytes r (↑r.next + 1)) ≤ transitLimit (recordKind r.ty) ∧
      s.leastLane q = some l) ∧
    (∃ (p : Fin 16) (s : Machine.State) (r : SegRecord),
    s.fabLive (pgFab ↑p) = true ∧ r.enc = false ∧ s.flag (pgFab ↑p) 0 F.fabCtrlEncReq = false ∧ r.errored = false ∧
      r.line ≠ 0 ∧ r.hops < r.next) ∧
    (∃ (p : Fin 16) (s : Machine.State) (r : SegRecord),
    s.fabLive (pgFab ↑p) = true ∧ r.enc = false ∧ s.flag (pgFab ↑p) 0 F.fabCtrlEncReq = false ∧ r.errored = false ∧
      r.line ≠ 0 ∧ r.next = r.hops ∧ r.hops ≠ 0 ∧ r.route = none ∧ (s.receiveSlot (pgFab ↑p) r).1 = none) ∧
    (∃ (p : Fin 16) (s : Machine.State) (lane : Fin 4) (x : DelayReqMsg),
    s.fabLive (pgFab ↑p) = true ∧ s.laneState (pgFab ↑p) ↑lane = laneUp ∧ x.replay = false) ∧
    (∃ (p : Fin 16) (s : Machine.State) (lane : Fin 4) (x : DelayRespMsg) (t1 : Nat),
    s.fabLive (pgFab ↑p) = true ∧ s.laneState (pgFab ↑p) ↑lane = laneUp ∧ x.replay = false ∧
      (s.delayRun (pgFab ↑p) ↑lane).sent = some (x.num.toNat, t1)) ∧
    (∃ (p : Fin 16) (s : Machine.State) (k : Fin 4) (l : Nat),
    s.fabLive (pgFab ↑p) = true ∧ s.lowestUp (pgFab ↑p) = some l ∧
      bit (s.get (pgFab ↑p) 0 F.fabCtrlBeaconOut) ↑k = true ∧ (s.tb ↑k).state ≠ TbState.off) ∧
    (∃ (p : Fin 16) (s : Machine.State),
    s.fabLive (pgFab ↑p) = true ∧ (∀ (k : Nat), k < 4 → s.tbSource k ≠ srcBeacon)) :=
  ⟨⟨15, seed [((pgFab 15), 0, F.hdrReady, 1), (pgPau, 0, F.pauBudgetMw, 600), (pgFab 0, 0, F.fabFidValid, 1)], 7,
    by decide +kernel⟩,
    ⟨15, seed [((pgFab 15), 0, F.fabPortStatusState, fabUp), ((pgFab 15), 3, F.laneStatusState, laneUp), (pgFab 0, 0,
      F.fabFidId, 0x3FFF)], 0x3FFF, by decide +kernel⟩,
    ⟨15, { (seed [((pgFab 15), 0, F.fabPortStatusNbrValid, 1)]) with now := 3000000 }, by decide +kernel⟩,
    ⟨15, seed [((pgFab 15), 0, F.fabPortStatusState, fabUp), ((pgFab 15), 3, F.laneStatusState, laneUp), ((pgFab 15),
      0, F.fabCtrlEncReq, 0), (pgFab 0, 0, F.fabPortStatusState, fabUp), (pgFab 0, 2, F.laneStatusState, laneUp)],
      record0 0 1, pgFab 0, 2, by decide +kernel⟩,
    ⟨15, seed [((pgFab 15), 0, F.fabPortStatusState, fabUp), ((pgFab 15), 3, F.laneStatusState, laneUp), ((pgFab 15),
      0, F.fabCtrlEncReq, 0)], record0 2 1, by decide +kernel⟩,
    ⟨15, seed [((pgFab 15), 0, F.fabPortStatusState, fabUp), ((pgFab 15), 3, F.laneStatusState, laneUp), ((pgFab 15),
      0, F.fabCtrlEncReq, 0)], record0 7 7, by decide +kernel⟩,
    ⟨15, seed [((pgFab 15), 0, F.fabPortStatusState, fabUp), ((pgFab 15), 3, F.laneStatusState, laneUp)], 3, ⟨5,
      false, 0⟩, by decide +kernel⟩,
    ⟨15, { (seed [((pgFab 15), 0, F.fabPortStatusState, fabUp), ((pgFab 15), 3, F.laneStatusState, laneUp)]) with fabDelays := [(⟨pgFab 15, 3, 0⟩, { DelayRun.cold with sent := some (5, 3) })] }, 3, ⟨5, false, 1, 2, 9⟩, 3, by decide +kernel⟩,
    ⟨15, { (seed [((pgFab 15), 0, F.fabPortStatusState, fabUp), ((pgFab 15), 3, F.laneStatusState, laneUp), (pgFab 15, 0, F.fabCtrlBeaconOut, 8)]) with tbs := [(3, { Timebase.cold with state := .free })] }, 3, 3, by decide +kernel⟩,
    ⟨15, seed [((pgFab 15), 0, F.fabPortStatusState, fabUp), ((pgFab 15), 3, F.laneStatusState, laneUp)],
      by decide +kernel⟩⟩

theorem witness_FaultEventsComplete :
    (∃ (d : Fin 365) (p : Nat) (i : Nat) (s : Machine.State),
    s.clockOwner ↑d = (p, i, true) ∧ s.flag pgFlt 0 F.fltCoverClkmon = true) ∧
    (∃ (rail : Fin 16) (s : Machine.State),
    s.flag pgFlt 0 F.fltCoverSupply = true ∧ ↑rail < 14 ∧ s.pairing ≠ pairReady) ∧
    (∃ (rail : Fin 16) (s : Machine.State),
    s.flag pgFlt 0 F.fltCoverSupply = true ∧ ↑rail < 14 ∧ s.pairing = pairReady ∧ s.role = roleLead) ∧
    (∃ (s : Machine.State),
    s.flag pgFlt 0 F.fltCoverEcc = true) ∧
    (∃ (s : Machine.State) (ch : Fin 32) (addr : Nat),
    s.flag pgFlt 0 F.fltCoverEcc = true ∧ (↑ch, addr) ∈ s.hbmUe) ∧
    (∃ (s : Machine.State) (page : Fin 4096),
    s.flag pgFlt 0 F.fltCoverEcc = true ∧ populated ↑page = true) ∧
    (∃ (s : Machine.State),
    s.thermLow = false) :=
  ⟨⟨364, pgCave, fltWhole, seed [(pgFlt, 0, F.fltCoverClkmon, 1)], by decide +kernel⟩,
    ⟨13, seed [(pgFlt, 0, F.fltCoverSupply, 1)], by decide +kernel⟩,
    ⟨13, seed [(pgFlt, 0, F.fltCoverSupply, 1), (pgClasp, 0, F.claspState, pairReady), (pgClasp, 0, F.claspStateRole,
      roleLead)], by decide +kernel⟩,
    ⟨seed [(pgFlt, 0, F.fltCoverEcc, 1)], by decide +kernel⟩,
    ⟨{ (seed [(pgFlt, 0, F.fltCoverEcc, 1)]) with hbmUe := [(31, 64)] }, 31, 64, by decide +kernel⟩,
    ⟨seed [(pgFlt, 0, F.fltCoverEcc, 1)], ⟨pgTb 3, by decide⟩, by decide +kernel⟩,
    ⟨{ State.reset with thermLow := false }, by decide +kernel⟩⟩

theorem witness_FlowContextsComplete :
    (∃ (m : Fin 8) (w : Word) (s : Machine.State),
    s.accepts (↑m) pgFlow 132 = true ∧ bits (BitVec.toNat w) 24 2 ≠ 3 ∧ firstFree s.flows 0 flowCount < flowCount) ∧
    (∃ (m : Fin 8) (s : Machine.State),
    s.accepts (↑m) pgFlow 132 = true ∧ s.isIngress (s.flowIndex ↑m) = true ∧ s.flowEn (s.flowIndex ↑m) = false ∧
      s.readers (s.flowIndex ↑m) = []) ∧
    (∃ (m : Fin 8) (w : Word) (s : Machine.State) (n : Fin 8) (f : Machine.Field),
    s.accepts (↑m) pgFlow (160 + 4 * ↑n) = true ∧ s.flowValid (s.flowIndex ↑m) = true ∧
      s.flowEn (s.flowIndex ↑m) = false ∧ f ∈ fieldsAt pgFlow (160 + 4 * ↑n) ∧ f.access = Access.rw ∧
      f.legal.ok (f.extract (BitVec.toNat w)) = true ∧ n ≠ 0 ∧ n ≠ 1 ∧ n ≠ 2 ∧ n ≠ 4) ∧
    (∃ (m : Fin 8) (w : Word) (s : Machine.State) (n : Fin 8) (f : Machine.Field),
    s.accepts (↑m) pgFlow (160 + 4 * ↑n) = true ∧ s.flowValid (s.flowIndex ↑m) = true ∧
      s.flowEn (s.flowIndex ↑m) = false ∧ f ∈ fieldsAt pgFlow (160 + 4 * ↑n) ∧ f.access = Access.rw ∧
      f.legal.ok (f.extract (BitVec.toNat w)) = true ∧ n = 0 ∧ f ≠ F.flowwinCtx0En ∧
      F.flowwinCtx0En.extract (BitVec.toNat w) = 0 ∧
      (s.isEgress (s.flowIndex ↑m) = false ∨ F.flowwinCtx0PortKind.extract (BitVec.toNat w) ≠ kindCnv ∧
      F.flowwinCtx0PortKind.extract (BitVec.toNat w) ≠ kindCpo) ∧ F.flowwinCtx0PortKind.extract (BitVec.toNat w) ≤ 6 ∧
      streamLegal (F.flowwinCtx0PortKind.extract (BitVec.toNat w)) (F.flowwinCtx0Stream.extract (BitVec.toNat w)) = true) ∧
    (∃ (m : Fin 8) (w : Word) (s : Machine.State) (n : Fin 8) (f : Machine.Field),
    s.accepts (↑m) pgFlow (160 + 4 * ↑n) = true ∧ s.flowValid (s.flowIndex ↑m) = true ∧
      s.flowEn (s.flowIndex ↑m) = false ∧ f ∈ fieldsAt pgFlow (160 + 4 * ↑n) ∧ f.access = Access.rw ∧
      f.legal.ok (f.extract (BitVec.toNat w)) = true ∧ n = 1 ∧
      fmtLegal (F.flowwinCtx1Struct.extract (BitVec.toNat w)) (F.flowwinCtx1Rate.extract (BitVec.toNat w)) = true ∧
      (s.run (s.flowIndex ↑m)).store = none) ∧
    (∃ (m : Fin 8) (w : Word) (s : Machine.State) (n : Fin 8) (f : Machine.Field),
    s.accepts (↑m) pgFlow (160 + 4 * ↑n) = true ∧ s.flowValid (s.flowIndex ↑m) = true ∧
      s.flowEn (s.flowIndex ↑m) = false ∧ f ∈ fieldsAt pgFlow (160 + 4 * ↑n) ∧ f.access = Access.rw ∧
      f.legal.ok (f.extract (BitVec.toNat w)) = true ∧ n = 2 ∧ F.flowwinCtx2FsEn.extract (BitVec.toNat w) = 0 ∧
      s.get pgFlow (s.flowIndex ↑m) F.flowwinCtx2FsEn = 0 ∧ (s.run (s.flowIndex ↑m)).store = none) ∧
    (∃ (m : Fin 8) (w : Word) (s : Machine.State) (n : Fin 8) (f : Machine.Field),
    s.accepts (↑m) pgFlow (160 + 4 * ↑n) = true ∧ s.flowValid (s.flowIndex ↑m) = true ∧
      s.flowEn (s.flowIndex ↑m) = false ∧ f ∈ fieldsAt pgFlow (160 + 4 * ↑n) ∧ f.access = Access.rw ∧
      f.legal.ok (f.extract (BitVec.toNat w)) = true ∧ n = 4 ∧
      F.flowwinCtx4Offset.extract (BitVec.toNat w) ≤ s.offsetLimit (s.flowIndex ↑m)) ∧
    (∃ (m : Fin 8) (s : Machine.State),
    s.accepts (↑m) pgFlow 140 = true ∧ s.flowValid (s.flowIndex ↑m) = true ∧ s.flowEn (s.flowIndex ↑m) = true ∧
      s.commitPending pgFlow (s.flowIndex ↑m + 1) = false) ∧
    (∃ (m : Fin 8) (s : Machine.State),
    s.accepts (↑m) pgFlow 140 = true ∧ s.flowValid (s.flowIndex ↑m) = true ∧ s.flowEn (s.flowIndex ↑m) = false) ∧
    (∃ (m : Fin 8) (s : Machine.State),
    s.accepts (↑m) pgFlow 140 = true ∧ s.flowValid (s.flowIndex ↑m) = true ∧
      s.commitPending pgFlow (s.flowIndex ↑m + 1) = true ∧ (s.unit pgFlow (s.flowIndex ↑m + 1)).captured = false ∧
      (s.unit pgFlow (s.flowIndex ↑m + 1)).next = none) :=
  ⟨⟨7, 0, State.reset, by decide +kernel⟩,
    ⟨7, seed [(pgFlow, 7, F.flowwinFlowIndexFlow, 4095), (pgFlow, 4095, F.flowwinCtx0Valid, 1)], by decide +kernel⟩,
    ⟨7, 0, seed [(pgFlow, 7, F.flowwinFlowIndexFlow, 4095), (pgFlow, 4095, F.flowwinCtx0Valid, 1)], 6,
      F.flowwinCtx6SealEn, by decide +kernel⟩,
    ⟨7, 0x0045F003, seed [(pgFlow, 7, F.flowwinFlowIndexFlow, 4095), (pgFlow, 4095, F.flowwinCtx0Valid, 1)], 0,
      F.flowwinCtx0Port, by decide +kernel⟩,
    ⟨7, 0x05500000, seed [(pgFlow, 7, F.flowwinFlowIndexFlow, 4095), (pgFlow, 4095, F.flowwinCtx0Valid, 1)], 1,
      F.flowwinCtx1Struct, by decide +kernel⟩,
    ⟨7, 0x08000000, seed [(pgFlow, 7, F.flowwinFlowIndexFlow, 4095), (pgFlow, 4095, F.flowwinCtx0Valid, 1)], 2,
      F.flowwinCtx2FsDepth, by decide +kernel⟩,
    ⟨7, 5, seed [(pgFlow, 7, F.flowwinFlowIndexFlow, 4095), (pgFlow, 4095, F.flowwinCtx0Valid, 1)], 4,
      F.flowwinCtx4Offset, by decide +kernel⟩,
    ⟨7, seed [(pgFlow, 7, F.flowwinFlowIndexFlow, 4095), (pgFlow, 4095, F.flowwinCtx0Valid, 1), (pgFlow, 4095,
      F.flowwinCtx0En, 1)], by decide +kernel⟩,
    ⟨7, seed [(pgFlow, 7, F.flowwinFlowIndexFlow, 4095), (pgFlow, 4095, F.flowwinCtx0Valid, 1)], by decide +kernel⟩,
    ⟨7, seed [(pgFlow, 7, F.flowwinFlowIndexFlow, 4095), (pgFlow, 4095, F.flowwinCtx0Valid, 1), (pgFlow, 4095,
      F.flowwinFlowCommitCommit, 1)], by decide +kernel⟩⟩

theorem witness_FrameReadIsOnePosition :
    ∃ (m : Fin 8) (k : Fin 4) (page : Fin 4096) (s : Machine.State),
    ↑page = pgTb ↑k ∧ s.controlReset = false ∧ s.masterOpen ↑m = true ∧
      Assoc.find Key.code (latchKey (↑m) (pgTb ↑k) 168) s.latch = none ∧ (s.tb ↑k).state ≠ TbState.off :=
  ⟨7, 3, ⟨pgTb 3, by decide⟩,
    { State.reset with controlReset := false, tbs := [(3, { Timebase.cold with state := .free })] },
    by decide +kernel⟩

theorem witness_GylosLanesComplete :
    (∃ (page : Fin 4096) (lane : Fin 4) (s : Machine.State),
    isGylos ↑page = true ∧ s.laneState ↑page ↑lane ≠ laneOff ∧ (s.gyl ↑page ↑lane).tx.link = [] ∧
      (s.gyl ↑page ↑lane).tx.replay = [] ∧ (s.gyl ↑page ↑lane).tx.queue = [] ∧
      s.fabStream (↑page) (↑lane) blkData = [] ∧ s.fabStream (↑page) (↑lane) blkVideo = [] ∧
      (s.gyl ↑page ↑lane).tx.slack < 1056) ∧
    (∃ (page : Fin 4096) (lane : Fin 4) (s : Machine.State) (b : GylosBlock) (h : Nat),
    isGylos ↑page = true ∧ s.laneState ↑page ↑lane = laneAligning ∧ (s.gyl ↑page ↑lane).rx.aligned = false ∧
      (s.gyl ↑page ↑lane).rx.streak = 2 ∧
      h = beValue (List.take 4 ((s.gyl ↑page ↑lane).rx.take b).1) ^^^ (s.gyl ↑page ↑lane).rx.crc ∧ headerOk h = true ∧
      bits h 20 8 = ((s.gyl ↑page ↑lane).rx.seq + 1) % 256) ∧
    (∃ (page : Fin 4096) (lane : Fin 4) (s : Machine.State) (seq : Nat) (first : Nat),
    isGylos ↑page = true ∧ first < (s.gyl ↑page ↑lane).tx.count ∧ (s.gyl ↑page ↑lane).tx.count ≤ first + 256 ∧
      first % 256 = seq % 256 ∧ (s.gyl ↑page ↑lane).tx.dropped = none ∧ (s.gyl ↑page ↑lane).tx.replay = []) ∧
    (∃ (page : Fin 4096) (lane : Fin 4) (s : Machine.State) (seq : Nat),
    isGylos ↑page = true ∧ (s.gyl ↑page ↑lane).rx.nak = some seq ∧ (s.gyl ↑page ↑lane).rx.naks < 3 ∧
      (s.gyl ↑page ↑lane).rx.nakNs + 1000 ≤ s.now) ∧
    (∃ (page : Fin 4096) (lane : Fin 4) (s : Machine.State),
    isGylos ↑page = true ∧ s.laneState ↑page ↑lane = laneUp ∧ s.flag (↑page) (↑lane) F.laneEyeStatusBusy = false) :=
  ⟨⟨⟨pgFab 15, by decide⟩, 3, seed [(pgFab 15, 3, F.laneStatusState, laneAligning)], by decide +kernel⟩,
    ⟨⟨pgFab 15, by decide⟩, 3,
      { (seed [((pgFab 15), 3, F.laneStatusState, laneAligning)]) with gyls := [(⟨pgFab 15, 3, 0⟩, { GylLane.cold with rx := { GylLane.cold.rx with streak := 2 } })] }, ⟨(stuffed false 0 (serialBits (beBytes 4 0x50105A3C ++ zeros 128))).1⟩, 0x50105A3C, by decide +kernel⟩,
    ⟨⟨pgFab 15, by decide⟩, 3,
      { State.reset with gyls := [(⟨pgFab 15, 3, 0⟩, { GylLane.cold with tx := { GylLane.cold.tx with count := 2 } })] }, 1, 1, by decide +kernel⟩,
    ⟨⟨pgFab 15, by decide⟩, 3,
      { State.reset with now := 1000, gyls := [(⟨pgFab 15, 3, 0⟩, { GylLane.cold with rx := { GylLane.cold.rx with nak := some 9, naks := 2 } })] }, 9, by decide +kernel⟩,
    ⟨⟨pgFab 15, by decide⟩, 3, seed [((pgFab 15), 3, F.laneStatusState, laneUp), (((pgFab 15)), (3),
      F.laneEyeStatusBusy, 0)], by decide +kernel⟩⟩

theorem witness_HbmWriteStoresItsBytes :
    ∃ (m : Fin 8) (addr : Nat) (bytes : List Byte) (s : Machine.State),
    s.controlReset = false ∧ s.masterOpen ↑m = true ∧ s.hbm = HbmState.ready ∧ inHbm addr bytes.length = true :=
  ⟨7, hbmBase + hbmSize - 2, [1, 2], { State.reset with controlReset := false, hbm := HbmState.ready },
    by decide +kernel⟩

theorem witness_HostFramesComplete :
    (∃ (m : Fin 8) (p : Fin 8) (s : Machine.State) (w : Nat) (v : Nat) (rest : List Nat) (more : List (List Nat)),
    s.controlReset = false ∧ s.masterOpen ↑m = true ∧
      Assoc.find Key.code (latchKey (↑m) (pgIpp ↑p) F.ippRxqDataWord.off) s.latch = none ∧
      s.rxRecords ↑p = (w :: v :: rest) :: more) ∧
    (∃ (m : Fin 8) (p : Fin 8) (s : Machine.State),
    s.accepts (↑m) (pgIpp ↑p) 776 = true) ∧
    (∃ (m : Fin 8) (p : Fin 8) (s : Machine.State) (w : Nat) (l : List Nat),
    s.accepts (↑m) (pgIpp ↑p) 780 = true ∧ Tab.at [] s.txBuild ↑p = w :: l ∧ 60 ≤ w % 2 ^ 16 ∧ w % 2 ^ 16 ≤ 1518 ∧
      w % 2 ^ 16 ≤ 4 * l.length ∧ w / 2 ^ 30 < s.linkCount ↑p ∧ Tab.at [] s.txq ↑p = [] ∧
      4 * (l.length + 1) ≤ txqBytes ∧ s.linkUp (↑p) (w / 2 ^ 30) = false) ∧
    (∃ (m : Fin 8) (p : Fin 8) (s : Machine.State) (w : Nat) (l : List Nat),
    s.accepts (↑m) (pgIpp ↑p) 780 = true ∧ Tab.at [] s.txBuild ↑p = w :: l ∧ 60 ≤ w % 2 ^ 16 ∧ w % 2 ^ 16 ≤ 1518 ∧
      w % 2 ^ 16 ≤ 4 * l.length ∧ w / 2 ^ 30 < s.linkCount ↑p ∧ Tab.at [] s.txq ↑p = [] ∧
      4 * (l.length + 1) ≤ txqBytes ∧ s.linkUp (↑p) (w / 2 ^ 30) = true ∧
      s.hasRoom ↑p { link := w / 2 ^ 30, tsReq := bit w 29, tag := bits w 16 12, bytes := List.take (w % 2 ^ 16) (List.flatMap (leBytes 4) l) } = true) :=
  ⟨⟨7, 7, { State.reset with controlReset := false, rxq := [(7, [[1, 2, 3], [4]])] }, 1, 2, [3], [[4]],
    by decide +kernel⟩,
    ⟨7, 7, State.reset, by decide +kernel⟩,
    ⟨7, 7, { State.reset with txBuild := [(7, 60 :: List.replicate 15 0)] }, 60, List.replicate 15 0,
      by decide +kernel⟩,
    ⟨7, 7, { (seed [(pgIpp 7, 0, F.ippCtrlMode, 1), (pgIpp 7, 3, F.ippLinkStatusUp, 1)]) with txBuild := [(7, 0xC000003C :: List.replicate 15 0)] }, 0xC000003C, List.replicate 15 0, by decide +kernel⟩⟩

theorem witness_IdleStepPassesANanosecond :
    (∃ (s : Machine.State),
    s.pending = [] ∧ s.spiPending = [] ∧ (∀ (p : Nat), p < 8 → Tab.at [] s.txq p = [])) ∧
    (∃ (s : Machine.State) (n : Nat) (w : Nat) (rest : List (Nat × Nat)),
    s.pending = [] ∧ s.spiPending = (n, w) :: rest ∧ (s.spiIssued ≠ 0 ∨ s.masterOpen 7 = false)) ∧
    (∃ (s : Machine.State) (n : Nat) (w : Nat) (rest : List (Nat × Nat)),
    s.pending = [] ∧ s.spiPending = (n, w) :: rest ∧ s.spiIssued = 0 ∧ s.masterOpen 7 = true ∧ s.trackerRoom 7 = 0 ∧
      (∀ (p : Nat), p < 8 → Tab.at [] s.txq p = [])) :=
  ⟨⟨{ State.reset with pending := [], spiPending := [] }, by decide +kernel⟩,
    ⟨{ State.reset with pending := [], spiPending := (0, 0) :: ([]), spiIssued := 1 }, 0, 0, [], by decide +kernel⟩,
    ⟨{ (seed [(0x009, 7, F.mtxMstCtrlLimit, 8), (0x009, 7, F.mtxMstStatusOutstanding, 8)]) with pending := [], spiPending := (0, 0) :: ([]), spiIssued := 0 }, 0, 0, [], by decide +kernel⟩⟩

theorem witness_IpPortsComplete :
    (∃ (p : Fin 8) (s : Machine.State) (lane : Fin 4),
    s.running (pgIpp ↑p) = true ∧ laneAligning ≤ s.laneState (pgIpp ↑p) ↑lane ∧
      s.laneState (pgIpp ↑p) ↑lane ≤ laneUp) ∧
    (∃ (p : Fin 8) (s : Machine.State) (link : Fin 4),
    s.running (pgIpp ↑p) = true ∧ ↑link < s.linkCount ↑p ∧ s.linkUp ↑p ↑link = false ∧ (∀ n ∈ s.linkLanes ↑p ↑link,
      s.laneState (pgIpp ↑p) n = laneDown ∨ s.laneState (pgIpp ↑p) n = laneAligning ∨ s.laneState (pgIpp ↑p) n = laneUp) ∧ (∀ n ∈ s.linkLanes ↑p ↑link, s.ipLaneStale (pgIpp ↑p) n = false)) ∧
    (∃ (p : Fin 8) (s : Machine.State) (link : Fin 4) (f : EthFrame),
    s.running (pgIpp ↑p) = true ∧ s.linkUp ↑p ↑link = true ∧ frameOk f.bytes = false) ∧
    (∃ (p : Fin 8) (s : Machine.State) (m : Fin 8),
    s.accepts (↑m) (pgIpp ↑p) 688 = true ∧ s.slotOn (↑p) (s.strmSelected ↑p) = true ∧ s.strmSelected ↑p / 64 = 1 ∧
      s.commitPending (pgIpp ↑p) (unitStrm (s.strmSelected ↑p)) = false) ∧
    (∃ (p : Fin 8) (s : Machine.State) (m : Fin 8),
    s.accepts (↑m) (pgIpp ↑p) 688 = true ∧ s.commitPending (pgIpp ↑p) (unitStrm (s.strmSelected ↑p)) = true ∧
      (s.unit (pgIpp ↑p) (unitStrm (s.strmSelected ↑p))).captured = false ∧
      (s.unit (pgIpp ↑p) (unitStrm (s.strmSelected ↑p))).next = none) :=
  ⟨⟨7, seed [((pgIpp 7), 0, F.hdrStatusRunning, 1), (pgIpp 7, 3, F.laneStatusState, laneUp)], 3, by decide +kernel⟩,
    ⟨7, seed [((pgIpp 7), 0, F.hdrStatusRunning, 1), (pgIpp 7, 0, F.ippCtrlMode, 1), (pgIpp 7, 3, F.laneStatusState,
      laneAligning)], 3, by decide +kernel⟩,
    ⟨7, seed [((pgIpp 7), 0, F.hdrStatusRunning, 1), (pgIpp 7, 3, F.ippLinkStatusUp, 1)], 3, ⟨zeros 63, 0, 0, 0⟩,
      by decide +kernel⟩,
    ⟨7, seed [(pgIpp 7, 0, F.ippStrmIndexDir, 1), (pgIpp 7, 0, F.ippStrmIndexSlot, 63), (pgIpp 7, 0,
      F.hdrStatusRunning, 1), (pgIpp 7, 127, F.ippStrmCfgEn, 1)], 7, by decide +kernel⟩,
    ⟨7, seed [(pgIpp 7, 0, F.ippStrmIndexDir, 1), (pgIpp 7, 0, F.ippStrmIndexSlot, 63), (pgIpp 7, 0,
      F.hdrStatusRunning, 1), (pgIpp 7, 127, F.ippStrmCfgEn, 1), (pgIpp 7, 127, F.ippStrmCommitCommit, 1)], 7,
      by decide +kernel⟩⟩

theorem witness_IpSlotsComplete :
    (∃ (p : Fin 8) (slot : Fin 64) (s : Machine.State) (e : RelPiece) (f : Nat),
    s.slotOn (↑p) (strmCell 0 ↑slot) = true ∧ s.slotFlow (↑p) (strmCell 0 ↑slot) = some f ∧
      (s.ipSlot (↑p) (strmCell 0 ↑slot)).buffer = [e] ∧ e.dueNs ≤ s.now) ∧
    (∃ (p : Fin 8) (slot : Fin 64) (s : Machine.State),
    s.receiving (↑p) (strmCell 0 ↑slot) = true ∧
      s.streamSilence (↑p) (strmCell 0 ↑slot) ≤ s.now - (s.ipSlot (↑p) (strmCell 0 ↑slot)).lastNs ∧
      s.commitPending (pgIpp ↑p) (unitStrm (strmCell 0 ↑slot)) = false) ∧
    (∃ (p : Fin 8) (slot : Fin 64) (s : Machine.State),
    s.flag (pgIpp ↑p) (strmCell 0 ↑slot) F.ippStrmStatusPath1Up = true ∧
      1000000 ≤ s.now - (s.ipSlot (↑p) (strmCell 0 ↑slot)).last1) ∧
    (∃ (p : Fin 8) (slot : Fin 64) (s : Machine.State),
    s.flag (pgIpp ↑p) (strmCell 0 ↑slot) F.ippStrmStatusPath2Up = true ∧
      1000000 ≤ s.now - (s.ipSlot (↑p) (strmCell 0 ↑slot)).last2) ∧
    (∃ (p : Fin 8) (slot : Fin 64) (s : Machine.State) (x : IpPacket) (f : Nat),
    s.slotOn (↑p) (strmCell 1 ↑slot) = true ∧ s.slotFlow (↑p) (strmCell 1 ↑slot) = some f ∧
      s.slotAudio (↑p) (strmCell 1 ↑slot) = false ∧ s.essence (↑p) (strmCell 1 ↑slot) ≠ 3 ∧
      (s.packetFrame (↑p) (strmCell 1 ↑slot) x.parts).isSome = true ∧
      s.partsOk (↑p) (strmCell 1 ↑slot) f (s.raster (pgIpp ↑p) (s.get (pgIpp ↑p) (strmCell 1 ↑slot) F.ippStrmCfgRaster)).struct x.parts = true ∧ s.onSchedule (↑p) (strmCell 1 ↑slot) f x.parts = true) ∧
    (∃ (p : Fin 8) (slot : Fin 64) (s : Machine.State) (f : Nat) (r : Raster),
    s.slotOn (↑p) (strmCell 1 ↑slot) = true ∧ s.slotFlow (↑p) (strmCell 1 ↑slot) = some f ∧
      s.slotAudio (↑p) (strmCell 1 ↑slot) = false ∧ s.essence (↑p) (strmCell 1 ↑slot) = 3 ∧
      r = s.raster (pgIpp ↑p) (s.get (pgIpp ↑p) (strmCell 1 ↑slot) F.ippStrmCfgRaster) ∧ r.running = true ∧
      r.waiting = false ∧ r.line ≤ fmtLines r.struct ∧ (s.sourceOf f).isSome = true) ∧
    (∃ (p : Fin 8) (slot : Fin 64) (s : Machine.State) (f : Nat) (n : Nat) (k : Nat) (a : AudRun),
    s.slotOn (↑p) (strmCell 1 ↑slot) = true ∧ s.slotFlow (↑p) (strmCell 1 ↑slot) = some f ∧
      s.slotAudio (↑p) (strmCell 1 ↑slot) = true ∧ s.commitPending (pgIpp ↑p) (unitStrm (strmCell 1 ↑slot)) = false ∧
      s.audRun f = some a ∧
      n = packetSamples (srateHz (s.flowSrate f)) (s.flag (pgIpp ↑p) (strmCell 1 ↑slot) F.ippStrmCfgPtime) ∧
      k = (s.tb (s.get pgFlow f F.flowwinCtx0Tb)).mediaCount s.now (srateHz (s.flowSrate f)) + 1 ∧ n ≤ k ∧
      (s.ipSlot (↑p) (strmCell 1 ↑slot)).nextSample ≠ (k / n - 1) * n + n) :=
  ⟨⟨7, 63, { (seed [(pgIpp 7, 0, F.hdrStatusRunning, 1), (pgIpp 7, 63, F.ippStrmCfgEn, 1), (pgFlow, 9, F.flowwinCtx0Valid, 1), (pgFlow, 9, F.flowwinCtx0En, 1), (pgFlow, 9, F.flowwinCtx0PortKind, kindIp), (pgFlow, 9, F.flowwinCtx0Port, 7), (pgFlow, 9, F.flowwinCtx0Stream, 63)]) with now := 5, ipSlots := [(⟨pgIpp 7, 63, 0⟩, { IpSlot.cold with buffer := [⟨5, 0, 21, 0, [], [], false⟩] })] }, ⟨5, 0, 21, 0, [], [], false⟩, 9, by decide +kernel⟩,
    ⟨7, 63, { (seed [(pgIpp 7, 63, F.ippStrmStatusReceiving, 1)]) with now := 1000000000 }, by decide +kernel⟩,
    ⟨7, 63, { (seed [((pgIpp 7), (strmCell 0 63), F.ippStrmStatusPath1Up, 1)]) with now := 1000000 },
      by decide +kernel⟩,
    ⟨7, 63, { (seed [((pgIpp 7), (strmCell 0 63), F.ippStrmStatusPath2Up, 1)]) with now := 1000000 },
      by decide +kernel⟩,
    ⟨7, 63, { (seed [(pgIpp 7, 0, F.hdrStatusRunning, 1), (pgIpp 7, 127, F.ippStrmCfgEn, 1), (pgFlow, 9, F.flowwinCtx0Valid, 1), (pgFlow, 9, F.flowwinCtx0En, 1), (pgFlow, 9, F.flowwinCtx0PortKind, kindIp), (pgFlow, 9, F.flowwinCtx0Port, 7), (pgFlow, 9, F.flowwinCtx0Stream, 63), (pgFlow, 9, F.flowwinCtx0Dir, 1), (pgIpp 7, 127, F.ippStrmCfgPace, 0)]) with rasters := [(⟨pgIpp 7, 0, 0⟩, raster0)], now := (raster0.placeNs 42 0 5280) }, ⟨[(42, 0, 5)]⟩, 9, by decide +kernel⟩,
    ⟨7, 63, { (seed [(pgIpp 7, 0, F.hdrStatusRunning, 1), (pgIpp 7, 127, F.ippStrmCfgEn, 1), (pgFlow, 9, F.flowwinCtx0Valid, 1), (pgFlow, 9, F.flowwinCtx0En, 1), (pgFlow, 9, F.flowwinCtx0PortKind, kindIp), (pgFlow, 9, F.flowwinCtx0Port, 7), (pgFlow, 9, F.flowwinCtx0Stream, 63), (pgFlow, 9, F.flowwinCtx0Dir, 1), (pgIpp 7, 127, F.ippStrmCfgEssence, 3), (pgFlow, 9, F.flowwinCtx0Type, 2)]) with rasters := [(⟨pgIpp 7, 0, 0⟩, raster0)], xp := [(9, { xpDisconnect 9 with source := 8, disconnect := false })] }, 9, raster0, by decide +kernel⟩,
    ⟨7, 63, { (seed [(pgIpp 7, 0, F.hdrStatusRunning, 1), (pgIpp 7, 127, F.ippStrmCfgEn, 1), (pgFlow, 9, F.flowwinCtx0Valid, 1), (pgFlow, 9, F.flowwinCtx0En, 1), (pgFlow, 9, F.flowwinCtx0PortKind, kindIp), (pgFlow, 9, F.flowwinCtx0Port, 7), (pgFlow, 9, F.flowwinCtx0Stream, 63), (pgFlow, 9, F.flowwinCtx0Dir, 1), (pgIpp 7, 127, F.ippStrmCfgEssence, 1), (pgFlow, 9, F.flowwinCtx0Type, 1)]) with now := 2000000000, audRuns := [audBlank], tbs := [(0, { Timebase.cold with state := .free })] }, 9, 48, (({ (seed [(pgIpp 7, 0, F.hdrStatusRunning, 1), (pgIpp 7, 127, F.ippStrmCfgEn, 1), (pgFlow, 9, F.flowwinCtx0Valid, 1), (pgFlow, 9, F.flowwinCtx0En, 1), (pgFlow, 9, F.flowwinCtx0PortKind, kindIp), (pgFlow, 9, F.flowwinCtx0Port, 7), (pgFlow, 9, F.flowwinCtx0Stream, 63), (pgFlow, 9, F.flowwinCtx0Dir, 1), (pgIpp 7, 127, F.ippStrmCfgEssence, 1), (pgFlow, 9, F.flowwinCtx0Type, 1)]) with now := 2000000000, audRuns := [audBlank], tbs := [(0, { Timebase.cold with state := .free })] }).tb 0).mediaCount 2000000000 48000 + 1, audBlank, by decide +kernel⟩⟩

theorem witness_KeyCommandsComplete :
    (∃ (m : Fin 8) (s : Machine.State) (x : Instr × Nat),
    s.accepts (↑m) pgKey 152 = true ∧ s.keyOp = none ∧ s.lcTarget = none ∧ s.inert pgKey = false ∧
      x ∈ [(Instr.keyLoad m, opLoad), (Instr.keyInvalidate m, opInvalidate), (Instr.keyDerive m, opDerive),
      (Instr.keyGenerate m, opGenerate), (Instr.keyImport m, opImport), (Instr.keyRewrap m, opRewrap),
      (Instr.keyHallmark m, opHallmark)] ∧
      (s.put pgKey (↑m) F.keyCmdOp x.2).keyCheck ((s.put pgKey (↑m) F.keyCmdOp x.2).stagedKeyOp ↑m) (s.get pgKey (↑m) F.keyCmdLenBytes) = keyOk) ∧
    (∃ (m : Fin 8) (s : Machine.State) (x : Instr × Nat),
    s.accepts (↑m) pgKey 152 = true ∧ s.keyOp = none ∧ s.lcTarget = none ∧ s.inert pgKey = false ∧
      x ∈ [(Instr.keyHelper m, opHelper), (Instr.keyEnroll m, opEnroll)] ∧
      (s.put pgKey (↑m) F.keyCmdOp x.2).keyCheck ((s.put pgKey (↑m) F.keyCmdOp x.2).stagedKeyOp ↑m) (s.get pgKey (↑m) F.keyCmdLenBytes) = keyOk ∧ 200 ≤ s.get pgPau 0 F.pauBudgetMw ∧ s.powerQueue.length < powerQueueSize) ∧
    (∃ (o : KeyOp) (b : List Byte) (s : Machine.State),
    s.keyOp = some o ∧ o.op = opInvalidate ∧ o.input = some b) ∧
    (∃ (m : Fin 8) (w : Word) (s : Machine.State),
    s.accepts (↑m) pgKey 164 = true ∧ bits (BitVec.toNat w) 16 16 = 19523 ∧ s.lcTarget = none ∧
      (bits (BitVec.toNat w) 0 2 = 1 ∨ bits (BitVec.toNat w) 0 2 = 2) ∧
      s.get pgKey 0 F.keyLcStatusState < bits (BitVec.toNat w) 0 2) ∧
    (∃ (target : Nat) (s : Machine.State),
    s.lcTarget = some target ∧ (target = 1 ∨ target = 2)) :=
  ⟨⟨7, { (seed [(pgKey, 0, F.hdrReady, 1), (pgKey, 0, F.hdrStatusEng, 2)]) with keyOp := none, lcTarget := none },
    (.keyInvalidate 7, opInvalidate), by decide +kernel⟩,
    ⟨7, { (seed [(pgKey, 0, F.hdrReady, 1), (pgPau, 0, F.pauBudgetMw, 200), (pgKey, 0, F.hdrStatusEng, 0)]) with keyOp := none, lcTarget := none }, (.keyHelper 7, opHelper), by decide +kernel⟩,
    ⟨{ master := 7, op := opInvalidate, replace := false, attr := 0, slot := 127, parent := 0, newParent := 0, input := some [], dst := 0 }, [], { State.reset with keyOp := some { master := 7, op := opInvalidate, replace := false, attr := 0, slot := 127, parent := 0, newParent := 0, input := some [], dst := 0 } }, by decide +kernel⟩,
    ⟨7, 0x4C430002, { (seed [(pgKey, 0, F.keyLcStatusState, 1)]) with lcTarget := none }, by decide +kernel⟩,
    ⟨2, { State.reset with lcTarget := some 2 }, by decide +kernel⟩⟩

theorem witness_LaneCommandsComplete :
    (∃ (m : Fin 8) (page : Fin 4096) (l : Nat) (s : Machine.State),
    isGylos ↑page = true ∧ s.accepts (↑m) (↑page) 516 = true ∧ l = s.get (↑page) 0 F.laneIndexLane ∧
      s.get (↑page) l F.laneCtrlTxInv ≤ 1 ∧ s.get (↑page) l F.laneCtrlRxInv ≤ 1 ∧
      (s.laneState (↑page) l = laneUp ∨ s.laneState (↑page) l = laneAligning) ∧ s.laneResumes (↑page) l = false) ∧
    (∃ (page : Fin 4096) (lane : Fin 4) (s : Machine.State),
    pageType ↑page ≠ 64 ∧ s.laneState ↑page ↑lane = laneAdapting) ∧
    (∃ (m : Fin 8) (page : Fin 4096) (l : Nat) (s : Machine.State),
    laneCount ↑page ≠ 0 ∧ s.accepts (↑m) (↑page) 552 = true ∧ l = s.get (↑page) 0 F.laneIndexLane ∧
      pageType ↑page ≠ 65 ∧
      signedOf 8 (s.get (↑page) l F.laneEyeRangePhLo) ≤ signedOf 8 (s.get (↑page) l F.laneEyeRangePhHi) ∧
      signedOf 8 (s.get (↑page) l F.laneEyeRangeVLo) ≤ signedOf 8 (s.get (↑page) l F.laneEyeRangeVHi) ∧
      s.get (↑page) l F.laneEyeStepPhStep ≠ 0 ∧ s.get (↑page) l F.laneEyeStepVStep ≠ 0 ∧
      16 ≤ s.get (↑page) l F.laneEyeStepDwell ∧ s.get (↑page) l F.laneEyeStepDwell ≤ 40 ∧ (∀ (n : Nat),
      n < 4 → s.flag (↑page) n F.laneEyeStatusBusy = false) ∧ s.laneState (↑page) l = laneUp ∧
      150 ≤ s.get pgPau 0 F.pauBudgetMw ∧ s.powerQueue.length < powerQueueSize) ∧
    (∃ (m : Fin 8) (page : Fin 4096) (l : Nat) (s : Machine.State),
    laneCount ↑page ≠ 0 ∧ s.accepts (↑m) (↑page) 552 = true ∧ l = s.get (↑page) 0 F.laneIndexLane ∧
      s.flag (↑page) l F.laneEyeStatusBusy = true) ∧
    (∃ (page : Fin 4096) (lane : Fin 4) (e : EyeScan) (counts : List Nat) (s : Machine.State),
    Assoc.find id (↑page) s.eyes = some e ∧ s.flag (↑page) (↑lane) F.laneEyeStatusBusy = true ∧
      s.holds (↑page) (Purpose.eye ↑lane) = true ∧ counts.length = e.phases.length * e.volts.length ∧
      s.eyePoints ↑page ↑lane = counts.length) :=
  ⟨⟨7, ⟨pgFab 15, by decide⟩, 0, seed [(((pgFab 15)), 0, F.laneIndexLane, 0), (((pgFab 15)), 0, F.laneStatusState,
    laneAligning)], by decide +kernel⟩,
    ⟨⟨pgFab 15, by decide⟩, 3, seed [((pgFab 15), 3, F.laneStatusState, laneAdapting)], by decide +kernel⟩,
    ⟨7, ⟨pgFab 15, by decide⟩, 3, seed [(((pgFab 15)), 0, F.laneIndexLane, 3), (((pgFab 15)), 3, F.laneEyeStepDwell,
      16), (((pgFab 15)), 3, F.laneStatusState, laneUp), (pgPau, 0, F.pauBudgetMw, 150), (pgFab 15, 0,
      F.laneIndexLane, 3), (pgFab 15, 3, F.laneEyeStepPhStep, 1), (pgFab 15, 3, F.laneEyeStepVStep, 1), (pgFab 15, 3,
      F.laneEyeStepDwell, 16)], by decide +kernel⟩,
    ⟨7, ⟨pgFab 15, by decide⟩, 0, seed [(((pgFab 15)), 0, F.laneIndexLane, 0), (((pgFab 15)), 0, F.laneEyeStatusBusy,
      1)], by decide +kernel⟩,
    ⟨⟨pgFab 15, by decide⟩, 3, ⟨3, some 0, 2000, [0], [0], []⟩, [4],
      { (seed [(((pgFab 15)), (3), F.laneEyeStatusBusy, 1)]) with now := 2000, eyes := [(pgFab 15, ⟨3, some 0, 2000, [0], [0], []⟩)], grants := [⟨pgFab 15, .eye 3, 150, 7, 0, 0⟩] }, by decide +kernel⟩⟩

theorem witness_LoReadLatchesHi :
    (∃ (m : Fin 8) (page : Fin 4096) (lo : Nat) (s : Machine.State),
    s.controlReset = false ∧ s.masterOpen ↑m = true ∧ populated ↑page = true ∧ lo < 2044 ∧ lo % 4 = 0 ∧
      lo + 4 ∈ latchedBy (↑page) lo ∧ Assoc.find Key.code (latchKey (↑m) (↑page) lo) s.latch = none) ∧
    (∃ (m : Fin 8) (page : Fin 4096) (lo : Nat) (s : Machine.State) (v : Nat),
    s.controlReset = false ∧ s.masterOpen ↑m = true ∧ populated ↑page = true ∧ lo < 2044 ∧ lo % 4 = 0 ∧
      lo + 4 ∈ latchedBy (↑page) lo ∧ Assoc.find Key.code (latchKey (↑m) (↑page) (lo + 4)) s.latch = some v) ∧
    (∃ (m : Fin 8) (page : Fin 4096) (lo : Nat) (s : Machine.State),
    s.controlReset = false ∧ s.masterOpen ↑m = true ∧ populated ↑page = true ∧ lo < 2044 ∧ lo % 4 = 0 ∧
      lo + 4 ∈ latchedBy (↑page) lo ∧ Assoc.find Key.code (latchKey (↑m) (↑page) (lo + 4)) s.latch = none) :=
  ⟨⟨7, ⟨pgTb 3, by decide⟩, 0x0A8, { State.reset with controlReset := false }, by decide +kernel⟩,
    ⟨7, ⟨pgTb 3, by decide⟩, 0x0A8,
      { State.reset with controlReset := false, latch := [(latchKey 7 (pgTb 3) 0x0AC, 5)] }, 5, by decide +kernel⟩,
    ⟨7, ⟨pgTb 3, by decide⟩, 0x0A8, { State.reset with controlReset := false }, by decide +kernel⟩⟩

theorem witness_LockIsOneMasters :
    (∃ (m : Fin 8) (page : Fin 4096) (w : Word) (s : Machine.State),
    s.accepts (↑m) (↑page) F.hdrLockHeld.off = true ∧ s.role ≠ roleShadow ∧
      F.hdrLockHeld.extract (BitVec.toNat w) = 1 ∧ s.flag (home ↑page) 0 F.hdrLockHeld = false) ∧
    (∃ (m : Fin 8) (page : Fin 4096) (w : Word) (s : Machine.State),
    s.accepts (↑m) (↑page) F.hdrLockHeld.off = true ∧ s.role ≠ roleShadow ∧
      F.hdrLockHeld.extract (BitVec.toNat w) = 1 ∧ s.flag (home ↑page) 0 F.hdrLockHeld = true) ∧
    (∃ (m : Fin 8) (page : Fin 4096) (w : Word) (s : Machine.State),
    s.accepts (↑m) (↑page) F.hdrLockHeld.off = true ∧ s.role ≠ roleShadow ∧
      F.hdrLockHeld.extract (BitVec.toNat w) = 0 ∧ s.flag (home ↑page) 0 F.hdrLockHeld = true ∧
      s.get (home ↑page) 0 F.hdrLockOwner = ↑m) ∧
    (∃ (m : Fin 8) (page : Fin 4096) (w : Word) (s : Machine.State),
    s.accepts (↑m) (↑page) F.hdrLockHeld.off = true ∧ s.role ≠ roleShadow ∧
      F.hdrLockHeld.extract (BitVec.toNat w) = 0 ∧ s.flag (home ↑page) 0 F.hdrLockHeld = true ∧
      s.get (home ↑page) 0 F.hdrLockOwner ≠ ↑m) :=
  ⟨⟨7, ⟨pgTb 3, by decide⟩, 0x10, seed [((home (pgTb 3)), 0, F.hdrLockHeld, 0)], by decide +kernel⟩,
    ⟨7, ⟨pgTb 3, by decide⟩, 0x10, seed [((home (pgTb 3)), 0, F.hdrLockHeld, 1)], by decide +kernel⟩,
    ⟨7, ⟨pgTb 3, by decide⟩, 0, seed [((home (pgTb 3)), 0, F.hdrLockHeld, 1), ((home (pgTb 3)), 0, F.hdrLockOwner, 7),
      (home (pgTb 3), 0, F.hdrLockOwner, 7)], by decide +kernel⟩,
    ⟨7, ⟨pgTb 3, by decide⟩, 0, seed [((home (pgTb 3)), 0, F.hdrLockHeld, 1)], by decide +kernel⟩⟩

theorem witness_LockKeepsOthersOut :
    (∃ (m : Fin 8) (page : Fin 4096) (off : Nat) (s : Machine.State),
    s.controlReset = false ∧ s.masterOpen ↑m = true ∧ populated ↑page = true ∧ s.resetting ↑page = false ∧
      s.role ≠ roleShadow ∧ s.flag (home ↑page) 0 F.hdrLockHeld = true ∧ s.get (home ↑page) 0 F.hdrLockOwner ≠ ↑m ∧
      (off ∈ [20, 28, 32, 36, 40, 56] ∨ 128 ≤ off ∧ off < 2048 ∧ off % 4 = 0)) ∧
    (∃ (m : Fin 8) (page : Fin 4096) (off : Nat) (s : Machine.State),
    s.controlReset = false ∧ s.masterOpen ↑m = true ∧ populated ↑page = true ∧ (off = 16 ∨ off = 24)) ∧
    (∃ (m : Fin 8) (page : Fin 4096) (w : Word) (s : Machine.State),
    s.controlReset = false ∧ s.masterOpen ↑m = true ∧ populated ↑page = true ∧
      F.hdrFaultValid.extract (BitVec.toNat w) = 1) ∧
    (∃ (m : Fin 8) (page : Fin 4096) (s : Machine.State),
    s.accepts (↑m) 9 F.mtxMstCtrlReset.off = true ∧ s.get 9 0 F.mtxMstIndexIndex ≠ ↑m ∧ populated ↑page = true ∧
      s.flag (home ↑page) 0 F.hdrLockHeld = true ∧
      s.get (home ↑page) 0 F.hdrLockOwner = s.get 9 0 F.mtxMstIndexIndex) ∧
    (∃ (m : Fin 8) (page : Fin 4096) (s : Machine.State),
    s.accepts (↑m) pgDev F.devResetKey.off = true ∧ 16 ≤ ↑page ∧ populated ↑page = true ∧ s.resetting ↑page = false ∧
      s.warmReset = false) :=
  ⟨⟨7, ⟨pgTb 3, by decide⟩, 0x7FC,
    { (seed [((home (pgTb 3)), 0, F.hdrLockHeld, 1), (pgTb 3, 0, F.hdrLockOwner, 1)]) with controlReset := false },
    by decide +kernel⟩,
    ⟨7, ⟨pgTb 3, by decide⟩, 0x018, { State.reset with controlReset := false }, by decide +kernel⟩,
    ⟨7, ⟨pgTb 3, by decide⟩, 0x80000000, { State.reset with controlReset := false }, by decide +kernel⟩,
    ⟨7, ⟨pgTb 3, by decide⟩, seed [((home (pgTb 3)), 0, F.hdrLockHeld, 1), (0x009, 0, F.mtxMstIndexIndex, 1), (pgTb 3,
      0, F.hdrLockOwner, 1)], by decide +kernel⟩,
    ⟨7, ⟨pgTb 3, by decide⟩, { State.reset with warmReset := false }, by decide +kernel⟩⟩

theorem witness_ManagementSpiCompletes :
    (∃ (s : Machine.State) (addr : BitVec 40),
    20000000 ≤ s.now ∧ addr.toNat % 4 = 0 ∧ s.spiPending.length < 2) ∧
    (∃ (s : Machine.State) (addr : BitVec 40),
    20000000 ≤ s.now ∧ (addr.toNat % 4 ≠ 0 ∨ 2 ≤ s.spiPending.length)) ∧
    (∃ (s : Machine.State) (addr : BitVec 40) (v : Nat) (u : Machine.State),
    20000000 ≤ s.now ∧ addr.toNat % 4 = 0 ∧ s.spiPending = [] ∧ s.controlReset = false ∧ s.masterOpen 7 = true ∧
      s.busRead 7 addr.toNat = (some v, u)) ∧
    (∃ (s : Machine.State) (addr : BitVec 40),
    20000000 ≤ s.now ∧ addr.toNat % 4 = 0 ∧ s.spiPending = [] ∧ s.masterOpen 7 = false) :=
  ⟨⟨{ State.reset with now := 20000000 }, 0, by decide +kernel⟩,
    ⟨{ State.reset with now := 20000000 }, 1, by decide +kernel⟩,
    ⟨{ State.reset with now := 20000000, spiPending := [], controlReset := false }, 0x80,
      (({ State.reset with now := 20000000, spiPending := [], controlReset := false }.busRead 7 0x80).1.getD 0),
      ({ State.reset with now := 20000000, spiPending := [], controlReset := false }.busRead 7 0x80).2,
      by decide +kernel⟩,
    ⟨{ (seed [(0x009, 7, F.mtxMstStatusQuiesced, 0)]) with now := 20000000, spiPending := [] }, 0, by decide +kernel⟩⟩

theorem witness_MatrixCommandsComplete :
    (∃ (s : Machine.State),
    s.controlReset = false) ∧
    (∃ (s : Machine.State),
    (s.controlReset = true ∨ s.warmReset = true)) ∧
    (∃ (x : PortLoss),
    (∀ b ∈ x.bursts, b.accepted = 0)) ∧
    (∃ (m : Fin 8) (x : ResetWrite) (s : Machine.State),
    s.accepts (↑m) 9 F.mtxMstCtrlReset.off = true ∧ s.get 9 0 F.mtxMstIndexIndex ≠ ↑m ∧ (∀ b ∈ x.bursts,
      b.accepted = 0)) ∧
    (∃ (m : Fin 8) (s : Machine.State),
    s.accepts (↑m) pgMtx F.mtxCfgRemap.off = true ∧ s.mapMode = true) ∧
    (∃ (b : Bool) (s : Machine.State),
    s.remapPending = some b) :=
  ⟨⟨{ State.reset with controlReset := false }, by decide +kernel⟩,
    ⟨{ State.reset with controlReset := true }, by decide +kernel⟩,
    ⟨⟨true, [], 0⟩, by decide +kernel⟩,
    ⟨7, ⟨0, [], 0⟩, State.reset, by decide +kernel⟩,
    ⟨7, { State.reset with mapMode := true }, by decide +kernel⟩,
    ⟨true, { State.reset with remapPending := some (true) }, by decide +kernel⟩⟩

theorem witness_OnlyStoringCommandsStore :
    ∃ (i : Instr) (s : Machine.State) (t : Machine.State),
    storesMemory i = false ∧ exec i s = Host.Outcome.next t :=
  ⟨.configComparePass, State.reset, State.reset, rfl, rfl⟩

theorem witness_PairingComplete :
    (∃ (m : Fin 8) (s : Machine.State) (x : Partner),
    s.accepts (↑m) pgClasp F.claspCtrlJoin.off = true ∧ s.get pgClasp 0 F.claspCtrlResetMirror ≤ 1 ∧
      s.role = roleNone ∧ s.pairing = pairDetached ∧ x.lead = true ∧ x.side ≠ s.twinSide ∧ x.same = true ∧
      s.upLanes pgClasp ≠ []) ∧
    (∃ (m : Fin 8) (s : Machine.State) (x : Partner),
    s.accepts (↑m) pgClasp F.claspCtrlJoin.off = true ∧ s.get pgClasp 0 F.claspCtrlResetMirror ≤ 1 ∧
      (x.lead = false ∨ s.upLanes pgClasp = [])) ∧
    (∃ (m : Fin 8) (s : Machine.State),
    s.accepts (↑m) pgClasp F.claspCtrlJoin.off = true ∧ s.get pgClasp 0 F.claspCtrlResetMirror ≤ 1 ∧
      s.role = roleLead ∧ s.pairing ≠ pairDetached) ∧
    (∃ (m : Fin 8) (s : Machine.State),
    s.accepts (↑m) pgClasp F.claspCtrlJoin.off = true ∧ s.get pgClasp 0 F.claspCtrlResetMirror ≤ 1 ∧
      s.role = roleShadow ∧ s.pairing ≠ pairDetached) ∧
    (∃ (s : Machine.State),
    s.role = roleLead ∧ s.pairing = pairCopy ∧ s.joinDue = false) ∧
    (∃ (s : Machine.State),
    s.role = roleLead ∧ s.pairing = pairAlign ∧ s.elapsed pgClasp 0 timerAlign alignNs = true) ∧
    (∃ (s : Machine.State),
    s.role = roleLead ∧ s.pairing = pairFill) ∧
    (∃ (s : Machine.State),
    s.role = roleShadow ∧ s.pairing = pairAlign ∧ s.elapsed pgClasp 0 timerAlign alignNs = true) ∧
    (∃ (s : Machine.State),
    s.pairing = pairCompare ∧ s.compareBad = false) ∧
    (∃ (s : Machine.State) (agree : Bool),
    s.pairing = pairCompare ∧ (agree = false ∨ s.compareBad = true) ∧ s.get pgClasp 0 F.claspStateRestarts < 3) ∧
    (∃ (k : Fin 4) (ps : Int) (s : Machine.State),
    s.pairing = pairReady ∧ (s.tb ↑k).state ≠ TbState.off ∧ (ps > 50000 ∨ ps < -50000)) ∧
    (∃ (s : Machine.State),
    s.role = roleShadow ∧ s.pairing = pairCopy) ∧
    (∃ (s : Machine.State),
    s.role = roleShadow ∧ s.pairing ≠ pairCopy ∧ s.controlReset = false) :=
  ⟨⟨7, seed [(pgClasp, 0, F.claspStateRole, roleNone), (pgClasp, 0, F.claspState, pairDetached), (pgClasp, 3,
    F.laneStatusState, laneUp)], ⟨true, true, true⟩, by decide +kernel⟩,
    ⟨7, State.reset, ⟨false, true, true⟩, by decide +kernel⟩,
    ⟨7, seed [(pgClasp, 0, F.claspStateRole, roleLead), (pgClasp, 0, F.claspState, pairCopy)], by decide +kernel⟩,
    ⟨7, seed [(pgClasp, 0, F.claspStateRole, roleShadow), (pgClasp, 0, F.claspState, pairCopy)], by decide +kernel⟩,
    ⟨{ (seed [(pgClasp, 0, F.claspStateRole, roleLead), (pgClasp, 0, F.claspState, pairCopy)]) with joinDue := false }, by decide +kernel⟩,
    ⟨{ (seed [(pgClasp, 0, F.claspStateRole, roleLead), (pgClasp, 0, F.claspState, pairAlign)]) with now := 10000000000, timers := [(⟨pgClasp, 0, timerAlign⟩, 0)] }, by decide +kernel⟩,
    ⟨seed [(pgClasp, 0, F.claspStateRole, roleLead), (pgClasp, 0, F.claspState, pairFill)], by decide +kernel⟩,
    ⟨{ (seed [(pgClasp, 0, F.claspStateRole, roleShadow), (pgClasp, 0, F.claspState, pairAlign)]) with now := 10000000000, timers := [(⟨pgClasp, 0, timerAlign⟩, 0)] }, by decide +kernel⟩,
    ⟨{ (seed [(pgClasp, 0, F.claspState, pairCompare)]) with compareBad := false }, by decide +kernel⟩,
    ⟨seed [(pgClasp, 0, F.claspState, pairCompare)], false, by decide +kernel⟩,
    ⟨3, 50001, { (seed [(pgClasp, 0, F.claspState, pairReady)]) with tbs := [(3, { Timebase.cold with state := .free })] }, by decide +kernel⟩,
    ⟨seed [(pgClasp, 0, F.claspStateRole, roleShadow), (pgClasp, 0, F.claspState, pairCopy)], by decide +kernel⟩,
    ⟨{ (seed [(pgClasp, 0, F.claspStateRole, roleShadow)]) with controlReset := false }, by decide +kernel⟩⟩

theorem witness_PowerCommandsComplete :
    (∃ (page : Fin 4096) (n : Nat) (u : Purpose) (s : Machine.State),
    purposeOf (↑page) n = some u ∧ (∀ (l : ℕ), u ≠ Purpose.eye l) ∧ s.asks (↑page) u = false ∧
      s.holds (↑page) u = false ∧ u.ask.1 ≤ s.get pgPau 0 F.pauBudgetMw ∧ s.powerQueue.length < powerQueueSize) ∧
    (∃ (r : PowerReq) (rest : List PowerReq) (s : Machine.State),
    s.powerQueue = r :: rest ∧ s.canGrant r = true) ∧
    (∃ (s : Machine.State),
    s.elapsed pgPau 0 timerRamp rampStepNs = true) ∧
    (∃ (r : PowerReq) (s : Machine.State),
    s.powerPaused = none ∧ s.powerQueue = [r] ∧ r.purpose = Purpose.slice ∧
      s.powerTimeoutNs < r.waited + (s.now - r.postedNs)) ∧
    (∃ (m : Fin 8) (w : Word) (s : Machine.State),
    s.accepts (↑m) pgPau 136 = true ∧ F.pauTimeoutMs.legal.ok (F.pauTimeoutMs.extract (BitVec.toNat w)) = true ∧
      s.get pgPau 0 F.pauTimeoutMs ≤ F.pauTimeoutMs.extract (BitVec.toNat w)) ∧
    (∃ (g : PowerGrant) (limit : Nat) (s : Machine.State),
    g ∈ s.grants ∧ durLimitNs g.dur = some limit ∧ 2 * limit < s.now - g.grantedNs) ∧
    (∃ (page : Fin 4096) (n : Nat) (u : Purpose) (s : Machine.State),
    purposeOf (↑page) n = some u ∧ s.reposts (↑page) u = true ∧ s.elapsed (↑page) u.code timerRepost repostNs = true ∧
      u.ask.1 ≤ s.get pgPau 0 F.pauBudgetMw ∧ s.powerQueue.length < powerQueueSize) :=
  ⟨⟨⟨pgCnv 15, by decide⟩, 0, .slice, seed [(pgPau, 0, F.pauBudgetMw, 3200)], by decide, (fun _ h => by cases h),
    by decide +kernel, by decide +kernel, by decide +kernel, by decide⟩,
    ⟨⟨pgCnv 15, .slice, 3200, 0, true, 0, 0⟩, [],
      { (seed [(pgPau, 0, F.pauBudgetMw, 3200), (pgPau, 0, F.hdrReady, 1)]) with powerQueue := (⟨pgCnv 15, .slice, 3200, 0, true, 0, 0⟩) :: ([]) }, by decide +kernel⟩,
    ⟨{ State.reset with now := 10000, timers := [(⟨pgPau, 0, timerRamp⟩, 0)] }, by decide +kernel⟩,
    ⟨⟨pgCnv 15, .slice, 3200, 0, true, 0, 0⟩,
      { State.reset with powerPaused := none, powerQueue := [(⟨pgCnv 15, .slice, 3200, 0, true, 0, 0⟩)], now := 0xFFFFFFFFFF }, by decide +kernel⟩,
    ⟨7, 10000, State.reset, by decide +kernel⟩,
    ⟨⟨pgCnv 15, .slice, 3200, 1, 0, 0⟩, 1000000,
      { State.reset with now := 2000001, grants := [⟨pgCnv 15, .slice, 3200, 1, 0, 0⟩] }, by decide +kernel⟩,
    ⟨⟨pgFab 15, by decide⟩, 12, .fabric,
      { (seed [(pgFab 15, 0, F.fabPortStatusState, fabWaitPower), (pgPau, 0, F.pauBudgetMw, 600)]) with now := 100000000, timers := [(⟨pgFab 15, 12, timerRepost⟩, 0)] }, by decide +kernel⟩⟩

theorem witness_PressCommandsComplete :
    (∃ (m : Fin 8) (d : PressDesc) (s : Machine.State),
    s.accepts (↑m) pgPress 160 = true ∧ s.acts pgPress = true ∧
      d = { words := List.map (s.get pgPress ↑m) [F.pressSubW0Word, F.pressSubW1Word, F.pressSubW2Word, F.pressSubW3Word, F.pressSubW4Word, F.pressSubW5Word, F.pressSubW6Word, F.pressSubW7Word], master := ↑m } ∧ s.pressQueue.length < 64 ∧ d.bad = false ∧ chainBad s.pressQueue.getLast? d = false ∧ d.overlaps = false ∧ (s.pressJob = true ∨ 1100 ≤ s.get pgPau 0 F.pauBudgetMw ∧ s.powerQueue.length < powerQueueSize)) ∧
    (∃ (ds : List PressDesc) (rest : List PressDesc) (s : Machine.State),
    s.pressJob = true ∧ splitJob s.pressQueue = some (ds, rest) ∧ 1100 ≤ s.get pgPau 0 F.pauBudgetMw ∧
      s.powerQueue.length < powerQueueSize ∧ s.pressDone.length < 64) ∧
    (∃ (m : Fin 8) (r : List Nat) (rest : List (List Nat)) (s : Machine.State),
    s.controlReset = false ∧ s.masterOpen ↑m = true ∧ s.pressDone = r :: rest) :=
  ⟨⟨7, ⟨pressWords0, 7⟩,
    { (seed [(pgPress, 0, F.hdrReady, 1), (pgPress, 7, F.pressSubW0Word, 0x13000000), (pgPress, 7, F.pressSubW1Word, 0), (pgPress, 7, F.pressSubW2Word, 0), (pgPress, 7, F.pressSubW3Word, 0x1000), (pgPress, 7, F.pressSubW4Word, 64), (pgPress, 7, F.pressSubW5Word, 64), (pgPress, 7, F.pressSubW6Word, 0), (pgPress, 7, F.pressSubW7Word, 0)]) with pressJob := true }, by decide +kernel⟩,
    ⟨[⟨pressWords0, 7⟩], [],
      { (seed [(pgPau, 0, F.pauBudgetMw, 1100)]) with pressJob := true, pressQueue := [⟨pressWords0, 7⟩] },
      by decide +kernel⟩,
    ⟨7, [1, 2, 3, 4], [], { State.reset with controlReset := false, pressDone := ([1, 2, 3, 4]) :: ([]) },
      by decide +kernel⟩⟩

theorem witness_ProfilesComplete :
    (∃ (m : Fin 8) (s : Machine.State),
    s.accepts (↑m) pgProf F.profProfOpOp.off = true ∧ s.acts pgProf = true ∧ s.profOp = none ∧
      s.profNamed (s.get pgProf 0 F.profProfIndexCell) = false) ∧
    (∃ (x : ProfileLoadOp) (c : Nat) (n : Nat) (s : Machine.State),
    s.profOp = some x ∧ x.check = (c, n) ∧ c = 0) ∧
    (∃ (x : ProfileLoadOp) (c : Nat) (n : Nat) (s : Machine.State),
    s.profOp = some x ∧ x.check = (c, n) ∧ c ≠ 0) ∧
    (∃ (m : Fin 8) (s : Machine.State),
    s.accepts (↑m) pgDev F.devProfileGo.off = true ∧ s.fw = FwState.running ∧ s.flag pgProf 0 F.profCtrlPins = true) ∧
    (∃ (m : Fin 8) (w : Word) (s : Machine.State) (frame : Nat) (line : Nat),
    s.accepts (↑m) pgDev F.devProfileGo.off = true ∧ s.fw = FwState.running ∧ s.flag pgProf 0 F.profCtrlPins = false ∧
      (s.tb (F.devProfileTb.extract (BitVec.toNat w))).state ≠ TbState.off ∧
      s.profileValid (F.devProfileSel.extract (BitVec.toNat w)) = true ∧
      s.profPoint (F.devProfileTb.extract (BitVec.toNat w)) = some (frame, line) ∧ s.events.length < scheduleSize) ∧
    (∃ (m : Fin 8) (s : Machine.State),
    s.accepts (↑m) pgProf F.profCtrlPins.off = true ∧ s.profPreps = [] ∧ s.flag pgProf 0 F.profCtrlPins = false) ∧
    (∃ (enN : Bool) (sel : Fin 4) (s : Machine.State),
    (s.tb 0).state ≠ TbState.off ∧ s.role ≠ roleShadow ∧ (s.pinSel ≠ some (if enN = true then none else some ↑sel))) ∧
    (∃ (enN : Bool) (sel : Fin 4) (s : Machine.State),
    (s.tb 0).state ≠ TbState.off ∧ s.role ≠ roleShadow ∧ (s.pinSel = some (if enN = true then none else some ↑sel))) ∧
    (∃ (h : BitVec 16) (e : Event) (s : Machine.State),
    s.pendingEvent h.toNat = some e ∧ e.kind = EvKind.profile ∧ s.profPreps = [] ∧
      profCrcOk (s.profImage e.arg) = false) ∧
    (∃ (h : BitVec 16) (e : Event) (s : Machine.State) (ss : List ProfSection),
    s.pendingEvent h.toNat = some e ∧ e.kind = EvKind.profile ∧ s.profPreps = [] ∧
      profCrcOk (s.profImage e.arg) = true ∧ profParse (s.profImage e.arg) = some ss) :=
  ⟨⟨7, { (seed [(pgProf, 0, F.hdrReady, 1)]) with profOp := none }, by decide +kernel⟩,
    ⟨⟨3, 72, some profImage0⟩, 0, 0, { State.reset with profOp := some (⟨3, 72, some profImage0⟩) },
      by decide +kernel⟩,
    ⟨⟨3, 72, none⟩, profReadFail, 0, { State.reset with profOp := some (⟨3, 72, none⟩) }, by decide +kernel⟩,
    ⟨7, { (seed [(pgProf, 0, F.profCtrlPins, 1)]) with fw := FwState.running }, by decide +kernel⟩,
    ⟨7, 0x03000003, { (seed [(pgProf, 0, F.profCtrlPins, 0)]) with fw := FwState.running, tbs := [(3, { Timebase.cold with state := .free })], profCells := [(3, ⟨true, 72⟩)] }, 1, 7, by decide +kernel⟩,
    ⟨7, { (seed [(pgProf, 0, F.profCtrlPins, 0)]) with profPreps := [] }, by decide +kernel⟩,
    ⟨true, 3, { State.reset with tbs := [(0, { Timebase.cold with state := .free })] }, by decide +kernel⟩,
    ⟨true, 3, { State.reset with tbs := [(0, { Timebase.cold with state := .free })], pinSel := some (if (true) = true then none else some 3) }, by decide +kernel⟩,
    ⟨0, event0 .profile false,
      { State.reset with events := [event0 .profile false], profPreps := [], profCells := [(3, ⟨true, 72⟩)] },
      by decide +kernel⟩,
    ⟨0, event0 .profile false,
      { State.reset with events := [event0 .profile false], profPreps := [], profCells := [(3, ⟨true, 72⟩)], mem := Memory.writeBytes [] (profileBase 3) profImage0 }, [⟨1, []⟩], by decide +kernel⟩⟩

theorem witness_PtpCommandsComplete :
    (∃ (p : Fin 8) (link : Fin 4) (s : Machine.State) (x : PtpSync),
    s.ptpFrom (↑p) (↑link) x.clock x.port x.domain = true) ∧
    (∃ (p : Fin 8) (link : Fin 4) (s : Machine.State) (d : Nat),
    s.linkUp ↑p ↑link = true ∧ s.reqDue ↑p ↑link = true ∧ s.ptpDomain ↑p ↑link = some d) ∧
    (∃ (p : Fin 8) (link : Fin 4) (s : Machine.State) (x : PtpResp) (t3 : Nat),
    s.ptpFrom (↑p) (↑link) x.clock x.port x.domain = true ∧ (s.ptpClient ↑p ↑link).req = some (x.seq, t3) ∧
      (s.ptpClient ↑p ↑link).sync.isSome = true) ∧
    (∃ (p : Fin 8) (link : Fin 4) (s : Machine.State) (m : Fin 8),
    s.accepts (↑m) (pgIpp ↑p) 160 = true ∧ s.get (pgIpp ↑p) 0 F.ippLinkIndexLink = ↑link) :=
  ⟨⟨7, 3, { (seed [(pgTb 3, 0, F.tbCtrlSource, srcPtp), (pgTb 3, 0, F.tbPtpSelPort, 7), (pgTb 3, 0, F.tbPtpSelLane, 3), (pgTb 3, 0, F.tbPtpSelDomain, 127), (pgIpp 7, 3, F.ippLinkStatusUp, 1)]) with tbs := [(3, { Timebase.cold with state := .free })] }, ⟨0, 0, 127, 0, 0, 0, 0⟩, by decide +kernel⟩,
    ⟨7, 3, { (seed [(pgIpp 7, 3, F.ippLinkStatusUp, 1), (pgTb 3, 0, F.tbCtrlSource, srcPtp), (pgTb 3, 0, F.tbPtpSelPort, 7), (pgTb 3, 0, F.tbPtpSelLane, 3), (pgTb 3, 0, F.tbPtpSelDomain, 127)]) with tbs := [(3, { Timebase.cold with state := .free })] }, 127, by decide +kernel⟩,
    ⟨7, 3, { (seed [(pgTb 3, 0, F.tbCtrlSource, srcPtp), (pgTb 3, 0, F.tbPtpSelPort, 7), (pgTb 3, 0, F.tbPtpSelLane, 3), (pgTb 3, 0, F.tbPtpSelDomain, 127), (pgIpp 7, 3, F.ippLinkStatusUp, 1)]) with tbs := [(3, { Timebase.cold with state := .free })], ptp := [(⟨pgIpp 7, 3, 0⟩, { PtpClient.cold with req := some (9, 5), sync := some (1, 0, 0) })] }, ⟨0, 0, 127, 9, 0⟩, 5, by decide +kernel⟩,
    ⟨7, 3, seed [((pgIpp 7), 0, F.ippLinkIndexLink, 3)], 7, by decide +kernel⟩⟩

theorem witness_RasterCommandsComplete :
    (∃ (m : Fin 8) (p : Fin 8) (s : Machine.State),
    s.accepts (↑m) (pgIpp ↑p) 280 = true ∧ s.running (pgIpp ↑p) = true ∧
      s.commitPending (pgIpp ↑p) (s.get (pgIpp ↑p) 0 F.ippRstIndexRaster + 1) = false) ∧
    (∃ (m : Fin 8) (p : Fin 8) (s : Machine.State),
    s.accepts (↑m) (pgIpp ↑p) 280 = true ∧ s.running (pgIpp ↑p) = false ∧
      (s.unstage (pgIpp ↑p) (s.get (pgIpp ↑p) 0 F.ippRstIndexRaster + 1)).rasterRefused (pgIpp ↑p) (s.get (pgIpp ↑p) 0 F.ippRstIndexRaster) = false) ∧
    (∃ (m : Fin 8) (p : Fin 8) (s : Machine.State),
    s.accepts (↑m) (pgIpp ↑p) 280 = true ∧
      s.commitPending (pgIpp ↑p) (s.get (pgIpp ↑p) 0 F.ippRstIndexRaster + 1) = true ∧
      (s.unit (pgIpp ↑p) (s.get (pgIpp ↑p) 0 F.ippRstIndexRaster + 1)).captured = false ∧
      (s.unit (pgIpp ↑p) (s.get (pgIpp ↑p) 0 F.ippRstIndexRaster + 1)).next = none ∧
      s.get (pgIpp ↑p) 0 F.ippRstIndexRaster < 16) ∧
    (∃ (k : Fin 8) (c : Fin 16) (s : Machine.State),
    s.rasterActs (RasterId.ipp k c) = true ∧ (s.raster (pgIpp ↑k) ↑c).waiting = false ∧
      s.commitPending (pgIpp ↑k) (↑c + 1) = true ∧ (s.unit (pgIpp ↑k) (↑c + 1)).frame = none) ∧
    (∃ (n : Fin 16) (s : Machine.State),
    s.rasterActs (RasterId.cpo n) = true ∧ (s.raster (pgCpo ↑n) 0).mode ≠ modeFree ∧
      (s.raster (pgCpo ↑n) 0).waiting = false) ∧
    (∃ (r : RasterId) (s : Machine.State),
    s.rasterActs r = true ∧ (s.raster (rasterAt r).1 (rasterAt r).2).mode ≠ modeFree ∧
      (s.raster (rasterAt r).1 (rasterAt r).2).waiting = false ∧ (∀ (p u : ℕ), (s.unit p u).captured = false)) ∧
    (∃ (r : RasterId) (s : Machine.State),
    s.rasterActs r = true ∧ (s.raster (rasterAt r).1 (rasterAt r).2).waiting = false) ∧
    (∃ (r : RasterId) (s : Machine.State),
    s.rasterActs r = true ∧ (s.raster (rasterAt r).1 (rasterAt r).2).waiting = false ∧
      (s.raster (rasterAt r).1 (rasterAt r).2).mode = modeFree) ∧
    (∃ (n : Fin 16) (s : Machine.State),
    s.rasterActs (RasterId.cpo n) = true ∧ (s.raster (pgCpo ↑n) 0).waiting = false ∧
      (s.raster (pgCpo ↑n) 0).mode = modeContent ∧
      fmtHeight (s.raster (pgCpo ↑n) 0).struct + s.get (pgCpo ↑n) 0 F.rstVbVbMin ≤ (s.raster (pgCpo ↑n) 0).line ∧
      s.decided (pgCpo ↑n) 512 = none ∧ s.requiredReady ↑n = true) ∧
    (∃ (r : RasterId) (s : Machine.State),
    s.rasterActs r = true ∧ (s.raster (rasterAt r).1 (rasterAt r).2).waiting = true) :=
  ⟨⟨7, 7, seed [((pgIpp 7), 0, F.hdrStatusRunning, 1)], by decide +kernel⟩,
    ⟨7, 7, State.reset, by decide +kernel⟩,
    ⟨7, 7, seed [(pgIpp 7, 0, F.ippRstIndexRaster, 15), (pgIpp 7, 15, F.rstCommit, 1)], by decide +kernel⟩,
    ⟨7, 15, { (seed [(home (pgIpp 7), (commitField (pgIpp 7) (15 + 1)).1, (commitField (pgIpp 7) (15 + 1)).2, 1)]) with rasters := [(⟨pgIpp 7, 15, 0⟩, raster0)] }, by decide +kernel⟩,
    ⟨15, { State.reset with rasters := [(⟨pgCpo 15, 0, 0⟩, raster0)] }, by decide +kernel⟩,
    ⟨.ipp 7 15, { State.reset with rasters := [(⟨pgIpp 7, 15, 0⟩, raster0)] },
      by and_intros <;> first | decide +kernel | exact fun _ _ => rfl⟩,
    ⟨.sditx 95, { State.reset with rasters := [(⟨pgSditx 95, 0, 0⟩, raster0)] }, by decide +kernel⟩,
    ⟨.cpo 15, { State.reset with rasters := [(⟨pgCpo 15, 0, 0⟩, { raster0 with mode := modeFree })] },
      by decide +kernel⟩,
    ⟨15, { State.reset with rasters := [(⟨pgCpo 15, 0, 0⟩, { raster0 with mode := modeContent, line := 2000 })] },
      by decide +kernel⟩,
    ⟨.ipp 7 15, { State.reset with rasters := [(⟨pgIpp 7, 15, 0⟩, { raster0 with waiting := true })] },
      by decide +kernel⟩⟩

theorem witness_RegisterAccessesComplete :
    (∃ (m : Fin 8) (page : Fin 4096) (s : Machine.State),
    s.accepts (↑m) (↑page) F.hdrErr.off = true) ∧
    (∃ (m : Fin 8) (page : Fin 4096) (s : Machine.State),
    s.controlReset = false ∧ s.masterOpen ↑m = true ∧ populated ↑page = true ∧
      Assoc.find Key.code (latchKey (↑m) (↑page) 36) s.latch = none) ∧
    (∃ (m : Fin 8) (page : Fin 4096) (v : Nat) (s : Machine.State),
    s.controlReset = false ∧ s.masterOpen ↑m = true ∧ populated ↑page = true ∧
      Assoc.find Key.code (latchKey (↑m) (↑page) 40) s.latch = some v) ∧
    (∃ (m : Fin 8) (page : Fin 4096) (off : Nat) (f : Machine.Field) (s : Machine.State),
    s.controlReset = false ∧ s.masterOpen ↑m = true ∧ populated ↑page = true ∧ off < 2048 ∧ off % 4 = 0 ∧
      f ∈ fieldsAt (↑page) off ∧ f.access = Access.rc ∧ fifoRead (↑page) off = false ∧
      Assoc.find Key.code (latchKey (↑m) (↑page) off) s.latch = none) ∧
    (∃ (v : Fin 512) (s : Machine.State),
    s.masterOpen 0 = true ∧ s.vectorMasked ↑v = true ∧ Tab.at false s.msixPending ↑v = true ∧ (∃ p ∈ allPages,
      s.get (home p) 0 F.hdrIntVecVector = ↑v ∧ s.masked p ≠ 0)) :=
  ⟨⟨7, ⟨pgTb 3, by decide⟩, State.reset, by decide +kernel⟩,
    ⟨7, ⟨pgTb 3, by decide⟩, { State.reset with controlReset := false }, by decide +kernel⟩,
    ⟨7, ⟨pgTb 3, by decide⟩, 9, { State.reset with controlReset := false, latch := [(latchKey 7 (pgTb 3) 0x028, 9)] },
      by decide +kernel⟩,
    ⟨7, 1, 0x94, ((fieldsAt 1 0x94).getD 0 F.hdrErr), { State.reset with controlReset := false }, by decide +kernel⟩,
    ⟨511, { (seed [(pgTb 3, 0, F.hdrIntVecVector, 511), (pgTb 3, 0, F.hdrIntStat, 1), (pgTb 3, 0, F.hdrIntEn, 1)]) with pcieUp := true, msixPending := [(511, true)] }, by decide +kernel⟩⟩

theorem witness_RennetsAndHoopsComplete :
    (∃ (h : BitVec 16) (e : Event) (s : Machine.State),
    s.pendingEvent h.toNat = some e ∧ e.kind = EvKind.rennet) ∧
    (∃ (s : Machine.State),
    s.rennetOut = true ∧ (∀ r ∈ s.rennets, r + 1036 ≤ s.now)) ∧
    (∃ (m : Fin 8) (n : Fin 32) (w : Word) (s : Machine.State),
    s.accepts (↑m) (pgAup ↑n) 156 = true ∧ s.flag (pgAup ↑n) 0 F.aupCtrlDir = false ∧
      s.get (pgAup ↑n) 0 F.aupHoopRdFrame < s.hoopSize ↑n ∧
      F.aupHoopRdFrame.extract (BitVec.toNat w) < s.hoopSize ↑n ∧
      0 < (F.aupHoopRdFrame.extract (BitVec.toNat w) + s.hoopSize ↑n - s.get (pgAup ↑n) 0 F.aupHoopRdFrame) % s.hoopSize ↑n ∧ (F.aupHoopRdFrame.extract (BitVec.toNat w) + s.hoopSize ↑n - s.get (pgAup ↑n) 0 F.aupHoopRdFrame) % s.hoopSize ↑n ≤ s.hoopFill ↑n) ∧
    (∃ (m : Fin 8) (n : Fin 32) (w : Word) (s : Machine.State),
    s.accepts (↑m) (pgAup ↑n) 156 = true ∧ s.flag (pgAup ↑n) 0 F.aupCtrlDir = false ∧
      s.get (pgAup ↑n) 0 F.aupHoopRdFrame < s.hoopSize ↑n ∧
      F.aupHoopRdFrame.extract (BitVec.toNat w) < s.hoopSize ↑n ∧
      (s.hoopFill ↑n < (F.aupHoopRdFrame.extract (BitVec.toNat w) + s.hoopSize ↑n - s.get (pgAup ↑n) 0 F.aupHoopRdFrame) % s.hoopSize ↑n ∨ F.aupHoopRdFrame.extract (BitVec.toNat w) = s.get (pgAup ↑n) 0 F.aupHoopRdFrame)) :=
  ⟨⟨0, event0 .rennet false, { State.reset with events := [event0 .rennet false] }, by decide +kernel⟩,
    ⟨{ State.reset with rennetOut := true }, by decide +kernel⟩,
    ⟨7, 31, 255, seed [((pgAup 31), 0, F.aupCtrlDir, 0), (pgAup 31, 0, F.aupHoopSizeFrames, 256), (pgAup 31, 0,
      F.aupHoopWrFrame, 255)], by decide +kernel⟩,
    ⟨7, 31, 255, seed [((pgAup 31), 0, F.aupCtrlDir, 0), (pgAup 31, 0, F.aupHoopSizeFrames, 256), (pgAup 31, 0,
      F.aupHoopWrFrame, 254)], by decide +kernel⟩⟩

theorem witness_ResetPhasesComplete :
    (∃ (m : Fin 8) (page : Fin 4096) (s : Machine.State),
    s.accepts (↑m) pgDev F.devResetKey.off = true ∧ 16 ≤ ↑page ∧ populated ↑page = true ∧ s.resetting ↑page = false ∧
      s.warmReset = false) ∧
    (∃ (page : Fin 4096) (s : Machine.State),
    populated ↑page = true ∧ s.resetting ↑page = true ∧ s.get (home ↑page) 0 F.hdrRestorePolicyPolicy = 2 ∧
      s.shadow = [] ∧ s.staged = []) ∧
    (∃ (s : Machine.State),
    s.controlReset = true ∧ s.mirrorHeld = []) :=
  ⟨⟨7, ⟨pgTb 3, by decide⟩, { State.reset with warmReset := false }, by decide +kernel⟩,
    ⟨⟨pgTb 3, by decide⟩,
      { (seed [(home (pgTb 3), 0, F.hdrStatusResetting, 1), ((home (pgTb 3)), 0, F.hdrRestorePolicyPolicy, 2)]) with shadow := [], staged := [] }, by decide +kernel⟩,
    ⟨{ State.reset with controlReset := true, mirrorHeld := [] }, by decide +kernel⟩⟩

theorem witness_ResetsComplete :
    (∃ (m : Fin 8) (s : Machine.State),
    s.accepts (↑m) pgDev F.devResetKey.off = true ∧ s.warmReset = false) ∧
    (∃ (s : Machine.State),
    s.flag pgFlt 0 F.fltCoverLockstep = true ∧ s.controlReset = false ∧ s.warmReset = false) :=
  ⟨⟨7, { State.reset with warmReset := false }, by decide +kernel⟩,
    ⟨{ (seed [(pgFlt, 0, F.fltCoverLockstep, 1)]) with controlReset := false, warmReset := false },
      by decide +kernel⟩⟩

theorem witness_SalvoCommandsComplete :
    (∃ (m : Fin 8) (s : Machine.State),
    s.accepts (↑m) pgSched 192 = true ∧ s.fw = FwState.running ∧ s.salvoOp = none ∧
      s.salvoBusy (s.get pgSched 0 F.schedSalvoIndexSalvo) = false ∧ 1 ≤ s.get pgSched 0 F.schedSalvoCountCount ∧
      s.get pgSched 0 F.schedSalvoCountCount ≤ 1024 ∧ s.get pgSched 0 F.schedSalvoCountCount ≤ s.poolFree) ∧
    (∃ (v : Nat) (es : List XpEntry) (s : Machine.State),
    s.salvoOp = some (SalvoOp.load v (some es))) ∧
    (∃ (v : Nat) (s : Machine.State),
    s.salvoOp = some (SalvoOp.delete v)) :=
  ⟨⟨7, { (seed [(pgSched, 0, F.schedSalvoCountCount, 1)]) with fw := FwState.running, salvoOp := none },
    by decide +kernel⟩,
    ⟨0, [], { State.reset with salvoOp := some (SalvoOp.load 0 (some ([]))) }, by decide +kernel⟩,
    ⟨0, { State.reset with salvoOp := some (SalvoOp.delete 0) }, by decide +kernel⟩⟩

theorem witness_ScheduleCommandsComplete :
    (∃ (m : Fin 8) (s : Machine.State) (kind : EvKind) (e : Event),
    s.fw = FwState.running ∧ s.accepts (↑m) pgSched 144 = true ∧
      evKindOf (bits (s.get pgSched (↑m) F.schedEvW0Word) 28 4) = some kind ∧
      e = eventOf (s.get pgSched (↑m) F.schedEvW0Word) (s.get pgSched (↑m) F.schedEvW1Word) (s.get pgSched (↑m) F.schedEvW2Word) (s.get pgSched (↑m) F.schedEvW3Word) kind (EvOrigin.submit ↑m) ∧ s.evCheck e = evOk) ∧
    (∃ (m : Fin 8) (s : Machine.State) (kind : EvKind) (e : Event),
    s.fw = FwState.running ∧ s.accepts (↑m) pgSched 144 = true ∧
      evKindOf (bits (s.get pgSched (↑m) F.schedEvW0Word) 28 4) = some kind ∧
      e = eventOf (s.get pgSched (↑m) F.schedEvW0Word) (s.get pgSched (↑m) F.schedEvW1Word) (s.get pgSched (↑m) F.schedEvW2Word) (s.get pgSched (↑m) F.schedEvW3Word) kind (EvOrigin.submit ↑m) ∧ s.evCheck e ≠ evOk) ∧
    (∃ (m : Fin 8) (s : Machine.State) (h : BitVec 16) (e : Event),
    s.fw = FwState.running ∧ s.accepts (↑m) pgSched 152 = true ∧ s.pendingEvent h.toNat = some e ∧
      e.kind ≠ EvKind.pageCommit ∧ e.kind ≠ EvKind.layerCommit ∧
      s.deadlinePassed e.kind e.tb e.frame e.line e.sample = false) :=
  ⟨⟨7, { (seed [(pgSched, 7, F.schedEvW0Word, 0x7C000007), (pgSched, 7, F.schedEvW1Word, 5)]) with fw := FwState.running, tbs := [(3, { Timebase.cold with state := .free })] }, .notify, eventOf 0x7C000007 5 0 0 .notify (.submit 7), by decide +kernel⟩,
    ⟨7, { (seed [(pgSched, 7, F.schedEvW0Word, 0x7C000007), (pgSched, 7, F.schedEvW1Word, 5)]) with fw := FwState.running }, .notify, eventOf 0x7C000007 5 0 0 .notify (.submit 7), by decide +kernel⟩,
    ⟨7, { State.reset with fw := FwState.running, events := [event0 .notify true], tbs := [(3, { Timebase.cold with state := .free })] }, 0, event0 .notify true, by decide +kernel⟩⟩

theorem witness_SdiReceptionCompletes :
    (∃ (n : Fin 96) (s : Machine.State),
    s.running (pgSdirx ↑n) = true ∧ s.lock ↑n = lockNoSignal ∧ s.commitPending (pgSdirx ↑n) 0 = false) ∧
    (∃ (n : Fin 96) (s : Machine.State),
    s.lock ↑n = lockAligning ∧ s.get (pgSdirx ↑n) 0 F.sdirxCtrlRate = 0 ∧ (s.rx ↑n).seen = none) ∧
    (∃ (n : Fin 96) (s : Machine.State) (l : SdiLine),
    s.running (pgSdirx ↑n) = true ∧ s.lock ↑n = lockLocked ∧ l.trsOk = false ∧ (s.rx ↑n).errored < 7) ∧
    (∃ (n : Fin 96) (s : Machine.State) (x : SdiFrame) (w : Nat),
    s.running (pgSdirx ↑n) = true ∧ s.lock ↑n = lockLocked ∧ x.link ≠ 1 ∧ x.payload = some w ∧
      s.commitPending (pgSdirx ↑n) 0 = false) ∧
    (∃ (n : Fin 96) (s : Machine.State) (skewNs : Nat) (f : SdiFmt) (q : Option Nat),
    s.rxLead ↑n = some ↑n ∧ (s.rxMembers ↑n).length = 4 ∧ skewNs ≤ 4000 ∧ f.link = 7 ∧ (∀ k ∈ s.rxMembers ↑n,
      s.lock k = lockWaitGroup ∧ Option.map (fun y => y.1) (s.rx k).seen = some (some f)) ∧
      (s.rx ↑n).seen = some (some f, q) ∧ (∀ l ∈ ([1, 2, 3, 4] : List Nat), ∃ k ∈ s.rxMembers ↑n,
      (s.rx k).quadLink = some l)) ∧
    (∃ (n : Fin 96) (s : Machine.State),
    s.running (pgSdirx ↑n) = true ∧ s.lock ↑n ≠ lockNoSignal ∧ s.commitPending (pgSdirx ↑n) 0 = false) ∧
    (∃ (n : Fin 96) (s : Machine.State) (x : AncPacket),
    s.running (pgSdirx ↑n) = true ∧ s.lock ↑n = lockLocked ∧ s.rxCarriesAnc ↑n = true ∧
      isAudioDid (s.get (pgSdirx ↑n) 0 F.sdirxFmtLink) x.did = false ∧ isPayloadId x.did x.sdid = false ∧
      x.sumOk = false) ∧
    (∃ (n : Fin 96) (s : Machine.State) (x : AncPacket),
    s.running (pgSdirx ↑n) = true ∧ s.lock ↑n = lockLocked ∧ s.rxCarriesAnc ↑n = true ∧
      isAudioDid (s.get (pgSdirx ↑n) 0 F.sdirxFmtLink) x.did = false ∧ isPayloadId x.did x.sdid = false ∧
      x.sumOk = true ∧ (∀ (c : Nat), c < 16 → s.ancMatches (pgSdirx ↑n) c x = false)) ∧
    (∃ (n : Fin 96) (s : Machine.State),
    s.stat (pgSditx ↑n) 19 = true) :=
  ⟨⟨95, seed [((pgSdirx 95), 0, F.hdrStatusRunning, 1), (pgSdirx 95, 0, F.hdrStatusEng, lockNoSignal)],
    by decide +kernel⟩,
    ⟨95, seed [((pgSdirx 95), 0, F.sdirxCtrlRate, 0), (pgSdirx 95, 0, F.hdrStatusEng, lockAligning)],
      by decide +kernel⟩,
    ⟨95, seed [((pgSdirx 95), 0, F.hdrStatusRunning, 1), (pgSdirx 95, 0, F.hdrStatusEng, lockLocked)], sdiLine0,
      by decide +kernel⟩,
    ⟨95, seed [((pgSdirx 95), 0, F.hdrStatusRunning, 1), (pgSdirx 95, 0, F.hdrStatusEng, lockLocked)], ⟨0, 0, 0, 0, 2,
      some 5, none⟩, 5, by decide +kernel⟩,
    ⟨95, { (seed [(pgSdirx 92, 0, F.hdrStatusEng, lockWaitGroup), (pgSdirx 92, 0, F.sdirxQuadQen, 1), (pgSdirx 92, 0, F.sdirxQuadLead, 95), (pgSdirx 93, 0, F.hdrStatusEng, lockWaitGroup), (pgSdirx 93, 0, F.sdirxQuadQen, 1), (pgSdirx 93, 0, F.sdirxQuadLead, 95), (pgSdirx 94, 0, F.hdrStatusEng, lockWaitGroup), (pgSdirx 94, 0, F.sdirxQuadQen, 1), (pgSdirx 94, 0, F.sdirxQuadLead, 95), (pgSdirx 95, 0, F.hdrStatusEng, lockWaitGroup), (pgSdirx 95, 0, F.sdirxQuadQen, 1), (pgSdirx 95, 0, F.sdirxQuadLead, 95)]) with rxBound := [(92, 95), (93, 95), (94, 95), (95, 95)], sdiRx := [(92, { SdiRxRun.cold with seen := some (some ⟨5, 0, 0, 0, 7⟩, some 1), quadLink := some 1 }), (93, { SdiRxRun.cold with seen := some (some ⟨5, 0, 0, 0, 7⟩, some 2), quadLink := some 2 }), (94, { SdiRxRun.cold with seen := some (some ⟨5, 0, 0, 0, 7⟩, some 3), quadLink := some 3 }), (95, { SdiRxRun.cold with seen := some (some ⟨5, 0, 0, 0, 7⟩, some 4), quadLink := some 4 })] }, 4000, ⟨5, 0, 0, 0, 7⟩, some 4, by decide +kernel⟩,
    ⟨95, seed [((pgSdirx 95), 0, F.hdrStatusRunning, 1), (pgSdirx 95, 0, F.hdrStatusEng, lockLocked)],
      by decide +kernel⟩,
    ⟨95, seed [((pgSdirx 95), 0, F.hdrStatusRunning, 1), (pgSdirx 95, 0, F.hdrStatusEng, lockLocked)], anc0 false,
      by decide +kernel⟩,
    ⟨95, seed [((pgSdirx 95), 0, F.hdrStatusRunning, 1), (pgSdirx 95, 0, F.hdrStatusEng, lockLocked)], anc0 true,
      by decide +kernel⟩,
    ⟨95, seed [(pgSditx 95, 0, F.hdrStatusEng, 8)], by decide +kernel⟩⟩

theorem witness_SliceControlCompletes :
    (∃ (n : Fin 16) (s : Machine.State) (m : Fin 8),
    s.accepts (↑m) (pgCnv ↑n) 128 = true ∧ s.flag (pgCnv ↑n) 0 F.cnvCtrlEn = false ∧ s.running (pgCnv ↑n) = false ∧
      s.acts (pgCnv ↑n) = true ∧ s.powerSought (pgCnv ↑n) Purpose.slice false = false ∧
      s.powerQueue.length < powerQueueSize ∧ 3200 ≤ s.get pgPau 0 F.pauBudgetMw) ∧
    (∃ (n : Fin 16) (s : Machine.State),
    s.holds (pgCnv ↑n) Purpose.slice = true ∧ s.flag (pgCnv ↑n) 0 F.cnvCtrlEn = true ∧ s.running (pgCnv ↑n) = false) ∧
    (∃ (n : Fin 16) (s : Machine.State) (m : Fin 8),
    s.accepts (↑m) (pgCnv ↑n) 128 = true ∧ s.flag (pgCnv ↑n) 0 F.cnvCtrlEn = true ∧ s.running (pgCnv ↑n) = true ∧
      (∀ c ∈ ([0, 1, 2, 3] : List Nat), s.flag (pgCnv ↑n) c F.cnvCellStatusProducing = false) ∧
      s.commitPending (pgCnv ↑n) 0 = false) ∧
    (∃ (n : Fin 16) (s : Machine.State) (m : Fin 8),
    s.accepts (↑m) (pgCnv ↑n) 128 = true ∧ s.flag (pgCnv ↑n) 0 F.cnvCtrlEn = true ∧ s.running (pgCnv ↑n) = true ∧
      (∃ c ∈ ([0, 1, 2, 3] : List Nat), s.flag (pgCnv ↑n) c F.cnvCellStatusProducing = true)) ∧
    (∃ (n : Fin 16) (s : Machine.State) (m : Fin 8),
    s.accepts (↑m) (pgCnv ↑n) 192 = true ∧ s.cnvQuad ↑n = true ∧
      s.get (pgCnv ↑n) (s.get (pgCnv ↑n) 0 F.cnvCellIndexCell) F.cnvCellCtrlEn ≤ 1 ∧
      s.getLast (pgCnv ↑n) (s.get (pgCnv ↑n) 0 F.cnvCellIndexCell) F.cnvCellCtrlAudEn ≤ 1) :=
  ⟨⟨15, seed [((pgCnv 15), 0, F.cnvCtrlEn, 0), ((pgCnv 15), 0, F.hdrReady, 1), (pgPau, 0, F.pauBudgetMw, 3200)], 7,
    by decide +kernel⟩,
    ⟨15, { (seed [((pgCnv 15), 0, F.cnvCtrlEn, 1)]) with grants := [⟨pgCnv 15, .slice, 3200, 0, 0, 0⟩] },
      by decide +kernel⟩,
    ⟨15, seed [((pgCnv 15), 0, F.cnvCtrlEn, 1), ((pgCnv 15), 0, F.hdrStatusRunning, 1)], 7, by decide +kernel⟩,
    ⟨15, seed [((pgCnv 15), 0, F.cnvCtrlEn, 1), ((pgCnv 15), 0, F.hdrStatusRunning, 1), (pgCnv 15, 3,
      F.cnvCellStatusProducing, 1)], 7, by decide +kernel⟩,
    ⟨15, seed [(pgCnv 15, 0, F.cnvCtrlMode, 1)], 7, by decide +kernel⟩⟩

theorem witness_SliceOutputCompletes :
    (∃ (n : Fin 16) (s : Machine.State) (cell : Fin 4) (x : CnvFrame) (src : Nat) (st : FrameStore) (ch : CnvChoice),
    s.running (pgCnv ↑n) = true ∧ s.flag (pgCnv ↑n) 0 F.cnvCtrlEn = true ∧ s.cnvWorks ↑n ↑cell = true ∧
      src = s.cnvGet (↑n) (↑cell) F.cnvSrcFlow ∧ s.isIngress src = true ∧ (s.run src).store = some st ∧
      (s.cnvFollow ↑n = true ∨ s.cnvGet (↑n) (↑cell) F.cnvFrcMode ≠ 0 ∨ s.get pgFlow src F.flowwinCtx1Rate = s.cnvRate (↑n) src) ∧ cropFits (s.cnvGet ↑n ↑cell) (s.get pgFlow src F.flowwinCtx1Struct) = true ∧ (s.cnvRefusal ↑n fun k => s.cnvGet (↑n) k) = none ∧ s.cnvLost src st = false ∧ (s.cnvCell ↑n ↑cell).job = none ∧ (s.cnvCadence (↑n) (↑cell) src x).cnvChosen (↑n) (↑cell) src st = some ch ∧ (s.cnvCell ↑n ↑cell).second = false) ∧
    (∃ (n : Fin 16) (s : Machine.State) (m : Fin 8) (w : Word),
    s.accepts (↑m) (pgCnv ↑n) 140 = true ∧ bits (BitVec.toNat w) 28 2 ≠ 3 ∧ Assoc.find id (↑n) s.lutLoads = none) ∧
    (∃ (n : Fin 16) (s : Machine.State) (x : LutLoad),
    Assoc.find id (↑n) s.lutLoads = some x ∧ s.running (pgCnv ↑n) = true) :=
  ⟨⟨15, { (seed [((pgCnv 15), 0, F.hdrStatusRunning, 1), ((pgCnv 15), 0, F.cnvCtrlEn, 1), (pgCnv 15, 0, F.cnvSrcFlow, 9), (pgCnv 15, 0, F.cnvCtrlTiming, 1), (pgFlow, 9, F.flowwinCtx0Valid, 1)]) with now := 20000000, runs := [(9, { FlowRun.idle with producing := true, store := some ⟨0, 0, 2, [buffer0]⟩ })] }, 0, ⟨[], []⟩, 9, ⟨0, 0, 2, [buffer0]⟩, (((({ (seed [((pgCnv 15), 0, F.hdrStatusRunning, 1), ((pgCnv 15), 0, F.cnvCtrlEn, 1), (pgCnv 15, 0, F.cnvSrcFlow, 9), (pgCnv 15, 0, F.cnvCtrlTiming, 1), (pgFlow, 9, F.flowwinCtx0Valid, 1)]) with now := 20000000, runs := [(9, { FlowRun.idle with producing := true, store := some ⟨0, 0, 2, [buffer0]⟩ })] }).cnvCadence 15 0 9 ⟨[], []⟩).cnvChosen 15 0 9 ⟨0, 0, 2, [buffer0]⟩).getD chBlank), by and_intros <;> first | exact some_getD _ _ (by decide +kernel) | decide +kernel⟩,
    ⟨15, State.reset, 7, 0, by decide +kernel⟩,
    ⟨15, { (seed [((pgCnv 15), 0, F.hdrStatusRunning, 1)]) with lutLoads := [(15, ⟨3, 2, some []⟩)] }, ⟨3, 2,
      some []⟩, by decide +kernel⟩⟩

theorem witness_SourceLossCompletes :
    (∃ (flow : Fin 4096) (s : Machine.State),
    s.isIngress ↑flow = true ∧ s.linesNs (↑flow) 2 ≤ s.now - (s.run ↑flow).lastSegNs) ∧
    (∃ (flow : Fin 4096) (src : Nat) (s : Machine.State),
    s.isEgress ↑flow = true ∧ s.flowEn ↑flow = true ∧ s.sourceOf ↑flow = some src ∧ (s.run ↑flow).lost = true ∧
      (s.run src).producing = true ∧ (s.run src).lost = false) :=
  ⟨⟨4095, { (seed [(pgFlow, 4095, F.flowwinCtx0Valid, 1)]) with now := 1000000000 }, by decide +kernel⟩,
    ⟨4095, 4094, { (seed [(pgFlow, 4095, F.flowwinCtx0Valid, 1), (pgFlow, 4095, F.flowwinCtx0Dir, 1), (pgFlow, 4095, F.flowwinCtx0En, 1)]) with xp := [(4095, { xpDisconnect 4095 with source := 4094, disconnect := false })], runs := [(4094, { FlowRun.idle with producing := true }), (4095, { FlowRun.idle with lost := true })] }, by decide +kernel⟩⟩

theorem witness_StartupCommandsComplete :
    (∃ (m : Fin 8) (s : Machine.State),
    s.accepts (↑m) pgDev F.devFwDataWord.off = true ∧ s.get pgDev 0 F.devFwAddrAddr < 196608) ∧
    (∃ (m : Fin 8) (s : Machine.State),
    s.accepts (↑m) pgDev F.devFwCtrlGo.off = true ∧ (s.fw = FwState.missing ∨ s.fw = FwState.bad)) ∧
    (∃ (s : Machine.State),
    s.hbm = HbmState.training) ∧
    (∃ (m : Fin 8) (w : Word) (inFlight : Bool) (s : Machine.State),
    s.accepts (↑m) pgDev F.devHbmwinOffsetMb.off = true ∧ F.devHbmwinOffsetMb.extract (BitVec.toNat w) ≤ 32512 ∧
      inFlight = true) ∧
    (∃ (off : Nat) (len : Nat) (b : List Byte) (s : Machine.State),
    s.bar2Open off len = true ∧ s.readBytes (s.windowAt off) len = some b) ∧
    (∃ (off : Nat) (bytes : List Byte) (s : Machine.State),
    s.bar2Open off bytes.length = true ∧ s.hbm = HbmState.ready ∧ s.windowAt off + bytes.length ≤ hbmBase + hbmSize) ∧
    (∃ (m : Fin 8) (w : Word) (s : Machine.State),
    s.accepts (↑m) pgDev F.devDevregBaseGib.off = true ∧
      s.baseRefused (F.devDevregBaseGib.extract (BitVec.toNat w)) = false) ∧
    (∃ (m : Fin 8) (w : Word) (s : Machine.State),
    s.accepts (↑m) pgDev F.devDevregBaseGib.off = true ∧
      s.baseRefused (F.devDevregBaseGib.extract (BitVec.toNat w)) = true) :=
  ⟨⟨7, seed [(pgDev, 0, F.devFwAddrAddr, 0x2FFFF)], by decide +kernel⟩,
    ⟨7, State.reset, by decide +kernel⟩,
    ⟨{ State.reset with hbm := HbmState.training }, by decide +kernel⟩,
    ⟨7, 0, true, State.reset, by decide +kernel⟩,
    ⟨0, 0, [], { State.reset with pcieUp := true }, by decide +kernel⟩,
    ⟨0, [], { State.reset with hbm := HbmState.ready, pcieUp := true }, by decide +kernel⟩,
    ⟨7, 31, State.reset, by decide +kernel⟩,
    ⟨7, 0, State.reset, by decide +kernel⟩⟩

theorem witness_StepKeepsMemoryForm :
    ∃ (s : Machine.State) (t : Machine.State),
    s.Inv ∧ step s = Host.Outcome.next t :=
  ⟨State.reset, { State.reset with now := 1 }, rfl, rfl⟩

theorem witness_SwitchLinesComplete :
    (∃ (k : Fin 4) (s : Machine.State),
    (s.tb ↑k).rind.isSome = true) ∧
    (∃ (k : Fin 4) (line : Nat) (s : Machine.State) (e : Event) (c : BankCopy) (x : XpEntry),
    s.switchLineOf (↑k) line = true ∧ s.events = [e] ∧ e.kind = EvKind.take ∧ e.tb = ↑k ∧ e.frame = (s.tb ↑k).frame ∧
      e.line = line ∧ s.bank = [c] ∧ c.owner = CopyOwner.event e.handle ∧ c.entries = [x] ∧ s.entryBad x = false ∧
      s.flowType x.egress = typeVideo ∧ x.audioFollow = false ∧ (∀ (n : Nat), n < 4 → (s.pin n).pending = false) ∧
      (∀ (p u : ℕ), (s.unit p u).captured = false)) :=
  ⟨⟨3, { State.reset with tbs := [(3, { Timebase.cold with state := .free, rind := some 7 })] }, by decide +kernel⟩,
    ⟨3, 7, { (seed [(pgFlow, 9, F.flowwinCtx0Valid, 1), (pgFlow, 9, F.flowwinCtx0Dir, 1), (pgFlow, 8, F.flowwinCtx0Valid, 1)]) with events := [(event0 .take false)], bank := [copy0], tbs := [(3, { Timebase.cold with state := .free, frame := 5 })] }, event0 .take false, copy0, xp0, by and_intros <;> first | decide +kernel | exact fun _ _ => rfl⟩⟩

theorem witness_SynthesizersComplete :
    (∃ (n : Fin 16) (s : Machine.State) (m : Fin 8),
    s.accepts (↑m) (pgSyn ↑n) 128 = true ∧ s.running (pgSyn ↑n) = false ∧ s.bandOk ↑n = true ∧
      s.acts (pgSyn ↑n) = true) ∧
    (∃ (n : Fin 16) (s : Machine.State) (m : Fin 8),
    s.accepts (↑m) (pgSyn ↑n) 128 = true ∧ s.running (pgSyn ↑n) = false ∧ s.bandOk ↑n = false) ∧
    (∃ (n : Fin 16) (s : Machine.State),
    (s.syn ↑n).state = SynState.acquire) ∧
    (∃ (n : Fin 16) (s : Machine.State) (o : Fin 8),
    s.delayAt ↑n ↑o < s.get (pgSyn ↑n) (↑o) F.synOutCtrlDelay) ∧
    (∃ (n : Fin 16) (s : Machine.State) (o : Fin 8),
    s.get (pgSyn ↑n) (↑o) F.synOutCtrlDelay < s.delayAt ↑n ↑o) :=
  ⟨⟨15, seed ([(pgSyn 15, 0, F.hdrReady, 1)] ++ (bandLimits.zipIdx.flatMap fun b => [(pgSyn 15, b.2, F.synBandMin,
    b.1.1), (pgSyn 15, b.2, F.synBandMax, b.1.2)])), 7, by decide +kernel⟩,
    ⟨15, State.reset, 7, by decide +kernel⟩,
    ⟨15, { State.reset with syns := [(15, { SynRun.cold with state := .acquire })] }, by decide +kernel⟩,
    ⟨15, seed [(pgSyn 15, 7, F.synOutCtrlDelay, 1)], 7, by decide +kernel⟩,
    ⟨15, { State.reset with synDelay := [(⟨pgSyn 15, 7, 0⟩, 1)] }, 7, by decide +kernel⟩⟩

theorem witness_TakePinsComplete :
    (∃ (n : Fin 4) (s : Machine.State),
    s.pinActs ↑n = true ∧ s.role ≠ roleShadow ∧ (s.pin ↑n).pending = false) ∧
    (∃ (n : Fin 4) (s : Machine.State) (g : Bool) (r : Bool),
    (s.pin ↑n).edge = PinEdge.take g r ∧ (s.pin ↑n).heldCfg = none ∧ s.role ≠ roleShadow ∧ g = true) ∧
    (∃ (n : Fin 4) (s : Machine.State),
    (s.pin ↑n).edge = PinEdge.none) ∧
    (∃ (m : Fin 8) (n : Fin 4) (s : Machine.State),
    s.accepts (↑m) pgCore (144 + 4 * ↑n) = true ∧ (s.pin ↑n).pending = true) ∧
    (∃ (m : Fin 8) (n : Fin 4) (s : Machine.State),
    s.accepts (↑m) pgCore (144 + 4 * ↑n) = true ∧ (s.pin ↑n).pending = false) :=
  ⟨⟨3, { (seed [(pgCore, 0, F.corePinCfg3Arm, 1), (pgCore, 0, F.corePinCfg3Tb, 3)]) with tbs := [(3, { Timebase.cold with state := .free })] }, by decide +kernel⟩,
    ⟨3, { (seed [(pgCore, 0, F.corePinStatusGated, 8)]) with pins := [(3, ⟨true, false, none, .take true true⟩)] },
      true, true, by decide +kernel⟩,
    ⟨3, State.reset, by decide +kernel⟩,
    ⟨7, 3, { State.reset with pins := [(3, ⟨true, false, none, .take false false⟩)] }, by decide +kernel⟩,
    ⟨7, 3, State.reset, by decide +kernel⟩⟩

theorem witness_TimebaseControlCompletes :
    (∃ (m : Fin 8) (k : Fin 4) (s : Machine.State),
    s.accepts (↑m) (pgTb ↑k) 128 = true ∧ s.running (pgTb ↑k) = false ∧ s.acts (pgTb ↑k) = true ∧
      s.flag (pgTb ↑k) 0 F.tbPresetArmArm = false) ∧
    (∃ (m : Fin 8) (k : Fin 4) (s : Machine.State),
    s.accepts (↑m) (pgTb ↑k) 128 = true ∧ s.running (pgTb ↑k) = true ∧ s.commitPending (pgTb ↑k) 0 = false) ∧
    (∃ (m : Fin 8) (k : Fin 4) (s : Machine.State),
    s.accepts (↑m) (pgTb ↑k) 160 = true ∧ s.tbSource ↑k ≤ srcRefB) :=
  ⟨⟨7, 3, seed [((pgTb 3), 0, F.hdrReady, 1), ((pgTb 3), 0, F.tbPresetArmArm, 0)], by decide +kernel⟩,
    ⟨7, 3, seed [((pgTb 3), 0, F.hdrStatusRunning, 1)], by decide +kernel⟩,
    ⟨7, 3, State.reset, by decide +kernel⟩⟩

theorem witness_TimebaseEventsComplete :
    (∃ (k : Fin 4) (s : Machine.State) (refB : Bool),
    (s.tbSource ↑k = if refB = true then srcRefB else srcRefA) ∧ (s.tb ↑k).state ≠ TbState.off ∧
      (s.tb ↑k).state ≠ TbState.free ∧ s.resetting (pgTb ↑k) = false) ∧
    (∃ (k : Fin 4) (s : Machine.State),
    s.tbSilent ↑k = true) ∧
    (∃ (k : Fin 4) (s : Machine.State),
    (s.tb ↑k).state = TbState.locked) ∧
    (∃ (k : Fin 4) (s : Machine.State),
    (s.tb ↑k).state = TbState.holdover ∧ 2 ≤ (s.tb ↑k).badFrames) ∧
    (∃ (k : Fin 4) (s : Machine.State),
    (s.tb ↑k).state ≠ TbState.off ∧ s.events = [] ∧ s.profPreps = [] ∧ s.handOver = false ∧
      (s.unit (pgTb ↑k) 0).captured = false) :=
  ⟨⟨3, { (seed [(pgTb 3, 0, F.tbCtrlSource, srcRefB)]) with tbs := [(3, { Timebase.cold with state := .locked })] },
    true, by decide +kernel⟩,
    ⟨3, { State.reset with now := 1000000000, tbs := [(3, { Timebase.cold with state := .locked, heard := some 0 })] }, by decide +kernel⟩,
    ⟨3, { State.reset with tbs := [(3, { Timebase.cold with state := .locked })] }, by decide +kernel⟩,
    ⟨3, { State.reset with tbs := [(3, { Timebase.cold with state := .holdover, badFrames := 2 })] },
      by decide +kernel⟩,
    ⟨3, { State.reset with tbs := [(3, { Timebase.cold with state := .free })], events := [], profPreps := [], handOver := false }, by decide +kernel⟩⟩

theorem witness_VatCommandsComplete :
    (∃ (flow : Fin 4096) (line : Nat) (seg : Nat) (frag : Nat) (bytes : List Byte) (last : Bool) (s : Machine.State),
    s.isIngress ↑flow = true ∧ s.flowEn ↑flow = true ∧ s.mayProduce (↑flow) line = true ∧
      (bytes.length = fragBytes ∨ bytes.length < fragBytes ∧ last = true) ∧ frag < 32 ∧
      s.nextFrag (↑flow) line seg frag = true ∧ (∀ e ∈ s.cnvCells, e.2.job = none)) ∧
    (∃ (m : Fin 8) (w : Word) (s : Machine.State),
    s.accepts (↑m) pgCore 180 = true ∧ bit (BitVec.toNat w) 31 = false ∧ bit (BitVec.toNat w) 30 = false ∧
      bit (BitVec.toNat w) 29 = false ∧ s.fenceRefused (s.get pgCore 0 F.coreVatIndexBank) = false) ∧
    (∃ (m : Fin 8) (w : Word) (s : Machine.State),
    s.accepts (↑m) pgCore 180 = true ∧ bit (BitVec.toNat w) 31 = false ∧ bit (BitVec.toNat w) 30 = false ∧
      bit (BitVec.toNat w) 29 = false ∧ (s.bank_ (s.get pgCore 0 F.coreVatIndexBank)).state = VatState.fenced ∧
      (s.bank_ (s.get pgCore 0 F.coreVatIndexBank)).tested = true ∧ 64 ≤ s.slotsHeld) ∧
    (∃ (bank : Fin 66) (s : Machine.State),
    (s.bank_ ↑bank).state = VatState.draining) ∧
    (∃ (bank : Fin 66) (s : Machine.State),
    (s.bank_ ↑bank).state = VatState.testing) :=
  ⟨⟨4095, 1, 0, 31, [1], true,
    { (seed [(pgFlow, 4095, F.flowwinCtx0PortKind, kindIp), (pgFlow, 4095, F.flowwinCtx0Valid, 1), (pgFlow, 4095, F.flowwinCtx0En, 1), (pgIpp 0, 0, F.hdrStatusRunning, 1), (pgIpp 0, 0, F.ippStrmCfgEn, 1), (pgIpp 0, 0, F.ippStrmStatusReceiving, 1)]) with runs := [(4095, { FlowRun.idle with line := 1, partLine := zeros 248 })] }, by decide +kernel⟩,
    ⟨7, 0, State.reset, by decide +kernel⟩,
    ⟨7, 0, { State.reset with vat := [(0, { VatBank.cold 0 with state := .fenced, tested := true }), (64, { VatBank.cold 64 with slot := some 0 })] }, by decide +kernel⟩,
    ⟨65, { State.reset with vat := [(65, { VatBank.cold 65 with state := .draining })] }, by decide +kernel⟩,
    ⟨65, { State.reset with vat := [(65, { VatBank.cold 65 with state := .testing })] }, by decide +kernel⟩⟩

end Sys2Proof.Tests
end

/-! # Locks and latched reads (R28, R31, R32)

Rules of the state's operations, then of accepted and rejected writes and of reads, then the three statements. -/

namespace Sys2Proof.Machine

/-! ## Commands and what they answer -/

/-- A command completes with what its next state satisfies. -/
theorem completes_iff_of_exec {i : Instr} {s t : State} (h : exec i s = .next t) (facts : State → Prop) :
    Completes i s facts ↔ facts t := by
  constructor
  · rintro ⟨u, hu, hf⟩
    cases h.symm.trans hu
    exact hf
  · exact fun hf => ⟨t, h, hf⟩

/-! ## Rules of the register operations -/

theorem get_put_of_not_names {p c p' c' : Nat} {f f' : Field} (h : ¬ Names p c f p' c' f') (s : State) (v : Nat) :
    (s.put p c f v).get p' c' f' = s.get p' c' f' := by
  rw [get_put, if_neg]
  rintro ⟨rfl, rfl, e⟩
  exact h ⟨rfl, rfl, e.symm⟩

theorem flag_eq_true {s : State} {p c : Nat} {f : Field} : s.flag p c f = true ↔ s.get p c f = 1 := by
  simp [State.flag]

theorem bit_withBit_mod {b n : Nat} (h : b < n) (w : Nat) : bit (withBit w b % 2 ^ n) b = true := by
  simp [bit, withBit, Nat.testBit_mod_two_pow, h]

/-- Setting an error bit of a page sets it (R40). -/
theorem errSet_setErr {b : Nat} (h : b < 32) (s : State) (p : Nat) : (s.setErr p b).errSet p b := by
  unfold State.errSet State.setErr
  split
  · assumption
  · rw [get_raise_slot (by decide), get_put_self]
    exact bit_withBit_mod h _

/-- Setting an error bit of a page changes its ERR and its INT_STAT alone (R40). -/
theorem onlyFields_setErr (s : State) (p b : Nat) : OnlyFields s (s.setErr p b) (ErrorOf p) := by
  intro p' c' f' h
  obtain ⟨hErr, hInt⟩ := not_or.1 h
  unfold State.setErr
  split
  · rfl
  · rw [get_raise, if_neg (fun ⟨hp, hc, hf⟩ => hInt ⟨hp.symm, hc.symm, hf.symm⟩), get_put_of_not_names hErr]

/-! ## Operations that store nothing -/

theorem sameMemory_of_mem {s t : State} (h : t.mem = s.mem) : SameMemory s t := fun a => by rw [h]

@[simp] theorem mem_caveMark (s : State) (p : Nat) : (s.caveMark p).mem = s.mem := by
  unfold State.caveMark; split <;> rfl

@[simp] theorem mem_sendMsix (s : State) (p : Nat) : (s.sendMsix p).mem = s.mem := by
  unfold State.sendMsix; dsimp only; split <;> rfl

@[simp] theorem mem_notifyFrom (s b : State) (p : Nat) : (s.notifyFrom b p).mem = s.mem := by
  unfold State.notifyFrom; split <;> simp

@[simp] theorem mem_raise (s : State) (p b : Nat) : (s.raise p b).mem = s.mem := by simp [State.raise]

@[simp] theorem mem_setErr (s : State) (p b : Nat) : (s.setErr p b).mem = s.mem := by
  unfold State.setErr; split <;> simp

@[simp] theorem mem_waive (s : State) (kind c : Nat) : (s.waive kind c).mem = s.mem := by
  unfold State.waive; split <;> rfl

@[simp] theorem mem_waiveWrite (s : State) (p cell off : Nat) : (s.waiveWrite p cell off).mem = s.mem := by
  unfold State.waiveWrite; split <;> simp

@[simp] theorem mem_claspQueue (s : State) (o : Out) (lanes : List Nat) : (s.claspQueue o lanes).mem = s.mem := by
  have lane (l : Nat) (t : State) :
      ((claspBlocks o).foldl (fun x b => x.queueBlock pgClasp l b) t).mem = t.mem :=
    List.foldlRecOn (motive := fun u : State => u.mem = t.mem) _ _ rfl fun _ hb _ _ => hb
  exact List.foldlRecOn (motive := fun u : State => u.mem = s.mem) lanes _ rfl
    fun t ht l _ => (lane l t).trans ht

@[simp] theorem mem_express (s : State) (o : Out) : (s.express o).mem = s.mem := mem_claspQueue _ _ _

@[simp] theorem mem_ordinary (s : State) (o : Out) : (s.ordinary o).mem = s.mem := mem_claspQueue _ _ _

@[simp] theorem mem_mirrorWrite (s : State) (m p off w : Nat) : (s.mirrorWrite m p off w).mem = s.mem := by
  unfold State.mirrorWrite
  dsimp only
  split
  · rw [mem_waiveWrite]; split <;> simp
  · rfl

/-! ## Accepted writes -/

/-- The state that the meaning of an accepted write runs on: its engine's record is marked where the word is recorded
(R330). -/
def State.recordMarked (s : State) (p off : Nat) : State := if recordedWord p off then s.caveMark p else s

@[simp] theorem get_recordMarked (s : State) (q off p c : Nat) (f : Field) :
    (s.recordMarked q off).get p c f = s.get p c f := by
  unfold State.recordMarked; split <;> simp

@[simp] theorem flag_recordMarked (s : State) (q off p c : Nat) (f : Field) :
    (s.recordMarked q off).flag p c f = s.flag p c f := by
  simp [State.flag]

@[simp] theorem role_recordMarked (s : State) (q off : Nat) : (s.recordMarked q off).role = s.role := by
  simp [State.role]

@[simp] theorem mem_recordMarked (s : State) (q off : Nat) : (s.recordMarked q off).mem = s.mem := by
  unfold State.recordMarked; split <;> simp

theorem write_eq_of_accepts {s : State} {m p off : Nat} (h : s.accepts m p off = true) (w : Nat) (k : State → State) :
    s.write m p off w k = (k (s.recordMarked p off)).mirrorWrite m p off w :=
  write_accepted h w k

/-! ## The lock of an engine (R31) -/

theorem lockOwner_of_free {s : State} {p : Nat} (hr : s.role ≠ roleShadow)
    (hf : s.flag (home p) 0 F.hdrLockHeld = false) : s.lockOwner p = none := by
  simp [State.lockOwner, hr, hf]

theorem lockOwner_of_held {s : State} {p : Nat} (hr : s.role ≠ roleShadow)
    (hf : s.flag (home p) 0 F.hdrLockHeld = true) : s.lockOwner p = some (s.get (home p) 0 F.hdrLockOwner) := by
  simp [State.lockOwner, hr, hf]

theorem writeLock_of_free {s : State} {m p w : Nat} (hw : F.hdrLockHeld.extract w = 1) (ho : s.lockOwner p = none) :
    s.writeLock m p w = (s.put (home p) 0 F.hdrLockHeld 1).put (home p) 0 F.hdrLockOwner m := by
  simp [State.writeLock, hw, ho]

theorem writeLock_of_held {s : State} {m p w o : Nat} (hw : F.hdrLockHeld.extract w = 1)
    (ho : s.lockOwner p = some o) : s.writeLock m p w = s := by
  simp [State.writeLock, hw, ho]

theorem writeLock_release {s : State} {m p w : Nat} (hw : F.hdrLockHeld.extract w = 0) (ho : s.lockOwner p = some m)
    (hf : s.flag (home p) 0 F.hdrLockHeld = true) : s.writeLock m p w = s.put (home p) 0 F.hdrLockHeld 0 := by
  simp [State.writeLock, hw, ho, hf]

theorem writeLock_refused {s : State} {m p w o : Nat} (hw : F.hdrLockHeld.extract w = 0)
    (ho : s.lockOwner p = some o) (hm : o ≠ m) : s.writeLock m p w = s.setErr p errLockViolation := by
  simp [State.writeLock, hw, ho, hm]

/-- A write of LOCK that the page takes is the lock's own rule, then mirrored. -/
theorem exec_lockWrite {s : State} {m : Fin 8} {page : Fin 4096} (h : s.accepts m page F.hdrLockHeld.off = true)
    (w : Word) : exec (.lockWrite m page w) s =
      .next (((s.recordMarked page F.hdrLockHeld.off).writeLock m page w.toNat).mirrorWrite m page F.hdrLockHeld.off
        w.toNat) :=
  congrArg _ (write_eq_of_accepts h _ _)

/-- Settles O16, by the four cases of a write of LOCK: taken, held already, released by its owner, refused to another. -/
theorem lockIsOneMasters : Obligations.LockIsOneMasters := by
  unfold Obligations.LockIsOneMasters
  intro m page w s ha hr
  have hr' : (s.recordMarked page F.hdrLockHeld.off).role ≠ roleShadow := by simpa using hr
  simp only [completes_iff_of_exec (exec_lockWrite ha w)]
  refine ⟨fun hw hf => ?taken, fun hw hf => ?held, fun hw hf ho => ?released, fun hw hf ho => ?refused⟩
  case taken =>
    rw [writeLock_of_free hw (lockOwner_of_free hr' (by simpa using hf))]
    refine ⟨?_, ?_, sameMemory_of_mem (by simp), fun p c f hn => ?_⟩
    · rw [get_mirrorWrite, get_put_slot (by decide), get_put_self]; rfl
    · rw [get_mirrorWrite, get_put_self]; exact Nat.mod_eq_of_lt m.isLt
    · obtain ⟨hHeld, hOwner⟩ := not_or.1 hn
      simp [get_put_of_not_names hOwner, get_put_of_not_names hHeld]
  case held =>
    rw [writeLock_of_held hw (lockOwner_of_held hr' (by simpa using hf))]
    exact ⟨fun p c f _ => by simp, sameMemory_of_mem (by simp)⟩
  case released =>
    have hOwner := lockOwner_of_held hr' (by simpa using hf)
    rw [get_recordMarked, ho] at hOwner
    rw [writeLock_release hw hOwner (by simpa using hf)]
    refine ⟨by simp, fun p c f hn => ?_, sameMemory_of_mem (by simp)⟩
    simp [get_put_of_not_names hn]
  case refused =>
    rw [writeLock_refused hw (lockOwner_of_held hr' (by simpa using hf)) (by simpa using ho)]
    refine ⟨?_, ?_, sameMemory_of_mem (by simp)⟩
    · rw [get_mirrorWrite, get_setErr_slot (by decide) (by decide), get_recordMarked]
      exact flag_eq_true.1 hf
    · have := errSet_setErr (b := errLockViolation) (by decide) (s.recordMarked page F.hdrLockHeld.off) page
      simpa [State.errSet] using this

end Sys2Proof.Machine

/-! # Reads that latch (R28) -/

namespace Sys2Proof.Machine

/-! ## A master's read of a page -/

/-- What a master's last access answered, after it has been answered. -/
@[simp] theorem answered_answer (s : State) (m : Nat) (r : Reply) : (s.answer m r).answered m = some r := by
  simp [State.answered, State.answer, Tab.put, find_set]

/-- A read of a page through a port that is open answers what the page's read gives, on the state that it leaves. -/
theorem exec_pageRead {s : State} {m : Fin 8} (hc : s.controlReset = false) (hm : s.masterOpen m = true)
    (page : Fin 4096) (off : Nat) : exec (.loRegisterRead m (.page page) off) s =
      .next ((s.pageRead m page (off % 0x1000)).2.answer m (.data (s.pageRead m page (off % 0x1000)).1)) := by
  change Host.Outcome.next (s.readAs m fun s => s.pageRead m page (off % 0x1000)) = _
  simp [State.readAs, hc, hm]

theorem pageRead_of_register {p off : Nat} (hp : populated p = true) (h4 : off % 4 = 0) (hoff : off < 0x800)
    (s : State) (m : Nat) : s.pageRead m p (off % 0x1000) = s.registerRead m p off := by
  rw [Nat.mod_eq_of_lt (by omega)]
  simp [State.pageRead, hp, h4, hoff]

/-- A latched register reads as it was latched, and the latch is spent (R28). -/
theorem registerRead_of_latched {s : State} {m p off v : Nat}
    (h : Assoc.find Key.code (latchKey m p off) s.latch = some v) : s.registerRead m p off =
      (v, { s with latch := Assoc.erase Key.code (latchKey m p off) s.latch }) := by
  simp [State.registerRead, h]

/-! ## Reads that take no entry of a queue and find nothing open -/

/-- A register whose read takes no entry from a queue and shows no value that the manual leaves open. -/
def plainRead (p off : Nat) : Bool :=
  !fifoRead p off && !decide (p = pgClasp ∧ off = F.claspMirrorQueued.off) &&
    !decide (pageType p = 0x042 ∧ (off = F.ippLinkStatusUp.off ∨ off = F.laneCntBlkErr.off))

/-- The types and offsets of the registers whose reads are not plain. -/
def unplainReads : List (Nat × Nat) :=
  [(0x021, 0x0A8), (0x033, 0x0B0), (0x042, 0x304), (0x043, 0x0A8), (0x005, 0x0B0), (0x042, 0x090), (0x042, 0x210)]

theorem mem_unplainReads_of_not_plainRead {p off : Nat} (h : plainRead p off = false) :
    (pageType p, off) ∈ unplainReads := by
  have hs : pageType pgSched = 0x021 := by decide
  have hp : pageType pgPress = 0x033 := by decide
  have hf : pageType (pgFab 0) = 0x043 := by decide
  have hc : pageType pgClasp = 0x005 := by decide
  simp only [plainRead, fifoRead, Bool.and_eq_false_iff, Bool.not_eq_false', Bool.or_eq_true, decide_eq_true_eq] at h
  obtain ((((⟨rfl, rfl⟩ | ⟨rfl, rfl⟩) | ⟨ht, rfl⟩) | ⟨rfl, rfl⟩) | ⟨rfl, rfl⟩) | ⟨ht, rfl | rfl⟩ := h
  · rw [hs]; decide
  · rw [hp]; decide
  · rw [ht]; decide
  · rw [hf]; decide
  · rw [hc]; decide
  · rw [ht]; decide
  · rw [ht]; decide

/-- A register whose read is not plain neither latches the register behind it nor is latched by the one before it: what a read
latches depends on the page by its type alone. -/
theorem not_latched_of_unplain {p : Nat} {e : Nat × Nat} (he : e ∈ unplainReads) (ht : pageType p = e.1) :
    e.2 + 4 ∉ latchedBy p e.2 ∧ e.2 ∉ latchedBy p (e.2 - 4) := by
  simp only [latchedBy, ht]
  clear ht
  revert e
  decide

theorem plainRead_of_latchedBy {p lo : Nat} (h : lo + 4 ∈ latchedBy p lo) :
    plainRead p lo = true ∧ plainRead p (lo + 4) = true := by
  refine ⟨Bool.of_not_eq_false fun hp => ?_, Bool.of_not_eq_false fun hp => ?_⟩
  · exact (not_latched_of_unplain (mem_unplainReads_of_not_plainRead hp) rfl).1 h
  · exact (not_latched_of_unplain (mem_unplainReads_of_not_plainRead hp) rfl).2 h

/-- Latches that a read sets for a master: each register as the state shows it then (R28). -/
def State.latchWords (s : State) (m p : Nat) (offs : List Nat) (latch : List (Key × Nat)) : List (Key × Nat) :=
  offs.foldl (fun l o => Assoc.set Key.code (latchKey m p o) (s.wordReads m p o false) l) latch

/-- Setting latches one by one on a state changes its latches alone. -/
theorem foldl_latch (s t : State) (m p : Nat) (offs : List Nat) :
    offs.foldl (fun x o =>
      { x with latch := Assoc.set Key.code (latchKey m p o) (s.wordReads m p o false) x.latch }) t =
      { t with latch := s.latchWords m p offs t.latch } := by
  induction offs generalizing t with
  | nil => rfl
  | cons o offs ih => exact ih _

theorem latchKey_inj {m p o o' : Nat} : latchKey m p o = latchKey m p o' ↔ o = o' := by
  refine ⟨fun h => congrArg Key.slot h, fun h => by rw [h]⟩

theorem find_latchWords_mem {s : State} {m p o : Nat} {offs : List Nat} (h : o ∈ offs) (latch : List (Key × Nat)) :
    Assoc.find Key.code (latchKey m p o) (s.latchWords m p offs latch) = some (s.wordReads m p o false) := by
  induction offs using List.reverseRecOn with
  | nil => cases h
  | append_singleton offs o' ih =>
    simp only [State.latchWords, List.foldl_append, List.foldl_cons, List.foldl_nil, find_set, key_code_inj,
      latchKey_inj] at ih ⊢
    split
    · rename_i e; rw [e]
    · rename_i ne
      exact ih ((List.mem_append.1 h).resolve_right fun h' => ne (List.mem_singleton.1 h').symm)

/-- The latches of another master stay. -/
theorem find_latchWords_other {k : Key} {m : Nat} (h : k.page ≠ m) (s : State) (p : Nat) (offs : List Nat)
    (latch : List (Key × Nat)) :
    Assoc.find Key.code k (s.latchWords m p offs latch) = Assoc.find Key.code k latch := by
  refine List.foldlRecOn (motive := fun l => Assoc.find Key.code k l = Assoc.find Key.code k latch) offs _ rfl
    fun l hl o _ => ?_
  rw [find_set, if_neg, hl]
  rw [key_code_inj]
  rintro rfl
  exact h rfl

@[simp] theorem mem_clearRead (s : State) (p c off : Nat) : (s.clearRead p c off).mem = s.mem :=
  List.foldlRecOn (motive := fun u : State => u.mem = s.mem) _ _ rfl fun _ hb _ _ => by
    split <;> exact hb

@[simp] theorem latch_clearRead (s : State) (p c off : Nat) : (s.clearRead p c off).latch = s.latch :=
  List.foldlRecOn (motive := fun u : State => u.latch = s.latch) _ _ rfl fun _ hb _ _ => by
    split <;> exact hb

/-- A plain read of a register that is not latched shows the live word, clears its RC fields and latches what goes with it. -/
theorem registerRead_of_plain {s : State} {m p off : Nat} (hp : plainRead p off = true)
    (h : Assoc.find Key.code (latchKey m p off) s.latch = none) : s.registerRead m p off =
      (s.wordReads m p off false,
        { s.clearRead p (if off < 0x080 then 0 else s.cellOf m p off) off with
          latch := s.latchWords m p (latchedBy p off) s.latch }) := by
  simp only [plainRead, fifoRead, Bool.and_eq_true, Bool.not_eq_true', Bool.or_eq_false_iff, decide_eq_false_iff_not] at hp
  obtain ⟨⟨⟨⟨⟨hDone, hPress⟩, hRxq⟩, hAck⟩, hQueued⟩, hOpen⟩ := hp
  have hBits : s.openBits p off = (0, s) := by
    unfold State.openBits
    rw [if_neg (fun ⟨a, b, _⟩ => hQueued ⟨a, b⟩), if_neg (fun ⟨a, b⟩ => hOpen ⟨a, .inl b⟩),
      if_neg (fun ⟨a, b, _⟩ => hOpen ⟨a, .inr b⟩)]
  simp only [State.registerRead, h, hDone, hPress, hRxq, hAck, hBits, if_false, foldl_latch, latch_clearRead,
    Nat.add_zero]

/-- Settles O10: a read of a _LO register is plain and latches; a read of its _HI spends the latch, or is plain without one. -/
theorem loReadLatchesHi : Obligations.LoReadLatchesHi := by
  unfold Obligations.LoReadLatchesHi
  intro m page lo s hc hm hp hlo h4 hl
  obtain ⟨plainLo, plainHi⟩ := plainRead_of_latchedBy hl
  have readLo := pageRead_of_register hp h4 (by omega) s m
  have readHi := pageRead_of_register (off := lo + 4) hp (by omega) (by omega) s m
  refine ⟨fun hFree => ?live_lo, fun v hv => ?latched_hi, fun hFree => ?live_hi⟩
  case live_lo =>
    rw [completes_iff_of_exec (exec_pageRead hc hm page lo), readLo, registerRead_of_plain plainLo hFree]
    refine ⟨by simp, ?_, fun m' off hm' => ?_, sameMemory_of_mem (by simp)⟩
    · exact find_latchWords_mem hl _
    · exact find_latchWords_other (fun h => hm' (Fin.ext h)) _ _ _ _
  case latched_hi =>
    rw [completes_iff_of_exec (exec_pageRead hc hm page (lo + 4)), readHi, registerRead_of_latched hv]
    refine ⟨by simp, ?_, fun p c f _ => rfl, sameMemory_of_mem rfl⟩
    simp [find_erase]
  case live_hi =>
    rw [completes_iff_of_exec (exec_pageRead hc hm page (lo + 4)), readHi, registerRead_of_plain plainHi hFree]
    exact ⟨by simp, sameMemory_of_mem (by simp)⟩

end Sys2Proof.Machine

/-! # What a lock keeps out, and what releases it (R32) -/

namespace Sys2Proof.Machine

/-! ## Operations that leave every lock as it is -/

/-- A field that is no part of LOCK. -/
abbrev LockFree (f : Field) : Prop := F.hdrLockHeld.slot ≠ f.slot ∧ F.hdrLockOwner.slot ≠ f.slot

/-- Every engine's lock is held as before, by the same owner. -/
def SameLocks (s t : State) : Prop :=
  ∀ p, t.get p 0 F.hdrLockHeld = s.get p 0 F.hdrLockHeld ∧ t.get p 0 F.hdrLockOwner = s.get p 0 F.hdrLockOwner

namespace SameLocks

variable {s t u : State}

theorem refl (s : State) : SameLocks s s := fun _ => ⟨rfl, rfl⟩

theorem trans (h : SameLocks s t) (h' : SameLocks t u) : SameLocks s u :=
  fun p => ⟨(h' p).1.trans (h p).1, (h' p).2.trans (h p).2⟩

theorem flag (h : SameLocks s t) (p : Nat) : t.flag p 0 F.hdrLockHeld = s.flag p 0 F.hdrLockHeld := by
  simp only [State.flag, (h p).1]

theorem of_regs (h : SameLocks s t) (e : u.regs = t.regs) : SameLocks s u :=
  h.trans fun p => ⟨get_of_regs e p 0 _, get_of_regs e p 0 _⟩

theorem put (h : SameLocks s t) {f : Field} (hf : LockFree f) {p c v : Nat} : SameLocks s (t.put p c f v) :=
  h.trans fun _ => ⟨get_put_slot hf.1.symm _ _ _ _ _ _, get_put_slot hf.2.symm _ _ _ _ _ _⟩

theorem raise (h : SameLocks s t) {p b : Nat} : SameLocks s (t.raise p b) :=
  h.trans fun _ => ⟨get_raise_slot (by decide) _ _ _ _ _, get_raise_slot (by decide) _ _ _ _ _⟩

theorem setErr (h : SameLocks s t) {p b : Nat} : SameLocks s (t.setErr p b) :=
  h.trans fun _ => ⟨get_setErr_slot (by decide) (by decide) _ _ _ _ _, get_setErr_slot (by decide) (by decide) _ _ _ _ _⟩

/-- What keeps the locks at each element keeps them through a list. -/
theorem foldl (h : SameLocks s t) {α : Type} {k : State → α → State} (hk : ∀ x a, SameLocks x (k x a)) (l : List α) :
    SameLocks s (l.foldl k t) :=
  List.foldlRecOn (motive := SameLocks s) l k h fun x hx a _ => hx.trans (hk x a)

end SameLocks

theorem sameLocks_recordMarked (s : State) (p off : Nat) : SameLocks s (s.recordMarked p off) :=
  fun _ => ⟨get_recordMarked _ _ _ _ _ _, get_recordMarked _ _ _ _ _ _⟩

theorem sameLocks_mirrorWrite (s : State) (m p off w : Nat) : SameLocks s (s.mirrorWrite m p off w) :=
  fun _ => ⟨get_mirrorWrite _ _ _ _ _ _ _ _, get_mirrorWrite _ _ _ _ _ _ _ _⟩

/-! ### Bytes into memory -/

theorem sameLocks_devregHit (s : State) (m a : Nat) : SameLocks s (s.devregHit m a) := by
  unfold State.devregHit
  dsimp only
  split
  · exact (SameLocks.refl s).setErr.raise
  · exact ((((SameLocks.refl s).put (by decide)).put (by decide)).put (by decide)).setErr.raise

theorem sameLocks_leaseHit (s : State) (m a : Nat) (l : Lease) : SameLocks s (s.leaseHit m a l) := by
  unfold State.leaseHit
  dsimp only
  split
  · exact (SameLocks.refl s).raise
  · exact ((((SameLocks.refl s).put (by decide)).put (by decide)).put (by decide)).raise

theorem sameLocks_pokeNative (s : State) (m n : Nat) (b : Byte) : SameLocks s (s.pokeNative m n b) := by
  unfold State.pokeNative
  split
  · exact .of_regs (.refl s) rfl
  · split
    · exact .refl s
    · split
      · exact sameLocks_devregHit s m n
      · split
        · exact (SameLocks.refl s).foldl (fun x l => sameLocks_leaseHit x m n l) _
        · exact .of_regs (.refl s) rfl
  · exact .refl s

theorem sameLocks_pokeByte (s : State) (m a : Nat) (b : Byte) : SameLocks s (s.pokeByte m a b) := by
  unfold State.pokeByte
  split
  · exact .refl s
  · exact sameLocks_pokeNative s m _ b

theorem sameLocks_pokeBytes (s : State) (m a : Nat) (b : Bytes) : SameLocks s (s.pokeBytes m a b) := by
  induction b generalizing s a with
  | nil => exact .refl s
  | cons x b ih => exact (sameLocks_pokeByte s m a x).trans (ih _ _)

theorem sameLocks_cutBursts (s : State) (c : Nat) (bursts : List BurstCut) (reads : Nat) :
    SameLocks s (s.cutBursts c bursts reads) := by
  unfold State.cutBursts
  refine .put (.foldl (.refl s) (fun x b => ?_) _) (by decide)
  exact sameLocks_pokeBytes x c b.addr _

/-! ### The check-value units -/

theorem sameLocks_putCvu (s : State) (n : Nat) (x : CvuRun) : SameLocks s (s.putCvu n x) :=
  ((SameLocks.of_regs (.refl s) rfl).put (by decide)).put (by decide)

theorem sameLocks_putCvuLast (s : State) (n v : Nat) : SameLocks s (s.putCvuLast n v) :=
  ((SameLocks.refl s).put (by decide)).put (by decide)

theorem sameLocks_cvuRecord (s : State) (n : Nat) (rec : Bytes) : SameLocks s (s.cvuRecord n rec) := by
  unfold State.cvuRecord
  dsimp only
  split
  · exact .refl s
  · split
    · exact (sameLocks_putCvuLast s n _).put (by decide)
    · split
      · exact (SameLocks.refl s).raise.put (by decide)
      · split
        · exact ((SameLocks.refl s).raise.put (by decide)).trans (sameLocks_putCvuLast _ n _)
        · exact sameLocks_putCvuLast s n _

theorem sameLocks_cvuByte (n : Nat) (job : Bool) (s : State) (b : Byte) : SameLocks s (s.cvuByte n job b) := by
  unfold State.cvuByte
  extract_lets
  split
  · exact (sameLocks_putCvu s n _).trans (sameLocks_cvuRecord _ n _)
  · exact sameLocks_putCvu s n _

theorem sameLocks_cvuEnd (s : State) (n code taken : Nat) : SameLocks s (s.cvuEnd n code taken) := by
  unfold State.cvuEnd
  split
  · exact .refl s
  · refine .raise (.put ?_ (by decide))
    have ended (x : CvuRun) (got : Bytes) : SameLocks s ((s.cvuTake n true got).putCvu n x) :=
      ((SameLocks.refl s).foldl (sameLocks_cvuByte n true) _).trans (sameLocks_putCvu _ n x)
    split
    · exact (ended _ _).trans (sameLocks_cvuRecord _ n _)
    · exact ended _ _

theorem sameLocks_cvuCut (s : State) (n code : Nat) : SameLocks s (s.cvuCut n code) := by
  unfold State.cvuCut
  split
  · exact .refl s
  · exact (SameLocks.of_regs (.refl s) rfl).trans (sameLocks_cvuEnd _ n code _)

/-! ### The Press -/

theorem sameLocks_deferPower (s : State) (p : Nat) (u : Purpose) : SameLocks s (s.deferPower p u) := by
  unfold State.deferPower State.bump
  have timed : SameLocks s (s.startTimer p u.code timerRepost) := .of_regs (.refl s) rfl
  exact .raise (.raise (.put (.put timed (by decide)) (by decide)))

theorem sameLocks_postPower (s : State) (p : Nat) (u : Purpose) : SameLocks s (s.postPower p u).1 := by
  have posted : SameLocks s (s.put p 0 F.hdrPowerGrantDeferred 0) := (SameLocks.refl s).put (by decide)
  unfold State.postPower State.postPowerOf
  dsimp only
  split
  · exact posted.setErr.trans (sameLocks_deferPower _ p u)
  · split
    · exact (posted.setErr.put (by decide)).trans (sameLocks_deferPower _ p u)
    · exact posted.of_regs rfl

theorem sameLocks_pushPress (s : State) (code tag out used adler : Nat) :
    SameLocks s (s.pushPress code tag out used adler) := by
  unfold State.pushPress State.bump
  extract_lets r s1 s2
  have logged : SameLocks s s1 := by
    unfold s1
    split <;> exact .of_regs (.refl s) rfl
  have counted : SameLocks s s2 := logged.put (by decide)
  split
  · exact counted.raise
  · exact (counted.put (by decide)).raise

theorem sameLocks_pressKick (s : State) (k : Nat) : SameLocks s (s.pressKick k) := by
  induction k generalizing s with
  | zero => exact .refl s
  | succ k ih =>
    unfold State.pressKick
    split
    · exact .refl s
    · split
      · exact .refl s
      · rename_i rest _
        have posted := sameLocks_postPower s pgPress .press
        have left : SameLocks s { (s.postPower pgPress .press).1 with pressQueue := rest } := posted.of_regs rfl
        dsimp only
        split
        · exact posted
        · exact (left.trans (sameLocks_pushPress _ 7 _ 0 0 0)).trans (ih _)

theorem sameLocks_pressFails (code : Nat) (s : State) (ds : List PressDesc) : SameLocks s (s.pressFails code ds) := by
  have spoilt : SameLocks s (s.spoil ds) := by
    refine .foldl (.refl s) (fun x d => ?_) ds
    have drawn : SameLocks x (x.drawBytes d.dstLen).2 := .of_regs (.refl x) rfl
    exact drawn.trans (sameLocks_pokeBytes _ 5 d.dst _)
  exact spoilt.trans (sameLocks_pushPress _ _ _ _ _ _)

theorem sameLocks_pressEnds {run : State → List PressDesc → State} (hrun : ∀ x ds, SameLocks x (run x ds)) (s : State) :
    SameLocks s (s.pressEnds run) := by
  unfold State.pressEnds
  split
  · split
    · exact .refl s
    · rename_i ds rest _
      have ran : SameLocks s (run { s with pressQueue := rest, pressJob := false } ds) :=
        (SameLocks.of_regs (.refl s) rfl).trans (hrun _ ds)
      exact (ran.of_regs (u := State.releasePower _ pgPress .press) rfl).trans (sameLocks_pressKick _ _)
  · exact .refl s

/-- What a port's reset cuts off touches no lock. -/
theorem sameLocks_masterCut (s : State) (c : Nat) : SameLocks s (s.masterCut c) := by
  unfold State.masterCut
  split
  · exact (SameLocks.refl s).foldl (fun x n => sameLocks_cvuCut x n 1) _
  · exact sameLocks_pressEnds (sameLocks_pressFails 6) s
  · exact .of_regs (.refl s) rfl
  · exact .refl s

end Sys2Proof.Machine

namespace Sys2Proof.Machine

/-! ## Locks that a reset of their owner's port releases -/

/-- The lock of a page is released where a master holds it: one step of `State.releaseLocks`. -/
def State.releaseLock (c : Nat) (s : State) (p : Nat) : State :=
  if s.flag p 0 F.hdrLockHeld && decide (s.get p 0 F.hdrLockOwner = c) then s.put p 0 F.hdrLockHeld 0 else s

theorem releaseLocks_eq_foldl (s : State) (c : Nat) : s.releaseLocks c = allPages.foldl (State.releaseLock c) s := rfl

theorem releaseLock_self {s : State} {c p : Nat} (hh : s.flag p 0 F.hdrLockHeld = true)
    (ho : s.get p 0 F.hdrLockOwner = c) : (s.releaseLock c p).get p 0 F.hdrLockHeld = 0 := by
  simp [State.releaseLock, hh, ho]

theorem releaseLock_other {p q : Nat} (h : p ≠ q) (s : State) (c : Nat) (f : Field) :
    (s.releaseLock c p).get q 0 f = s.get q 0 f := by
  unfold State.releaseLock
  split
  · exact get_put_page h _ _ _ _ _ _
  · rfl

/-- A lock that nobody holds stays so. -/
theorem releaseLock_keeps_free {s : State} {q : Nat} (h : s.get q 0 F.hdrLockHeld = 0) (c p : Nat) :
    (s.releaseLock c p).get q 0 F.hdrLockHeld = 0 := by
  unfold State.releaseLock
  split
  · rw [get_put]
    split
    · rfl
    · exact h
  · exact h

/-- Going through a list of pages that has the page releases its lock. -/
theorem foldl_releaseLock {c q : Nat} {l : List Nat} (hq : q ∈ l) {s : State}
    (hh : s.flag q 0 F.hdrLockHeld = true) (ho : s.get q 0 F.hdrLockOwner = c) :
    (l.foldl (State.releaseLock c) s).get q 0 F.hdrLockHeld = 0 := by
  induction l generalizing s with
  | nil => cases hq
  | cons p l ih =>
    by_cases e : p = q
    · subst e
      exact List.foldlRecOn (motive := fun t : State => t.get p 0 F.hdrLockHeld = 0) l _ (releaseLock_self hh ho)
        fun t ht r _ => releaseLock_keeps_free ht c r
    · refine ih ((List.mem_cons.1 hq).resolve_left fun h => e h.symm) ?_ ?_
      · rw [State.flag, releaseLock_other e]; exact hh
      · rw [releaseLock_other e]; exact ho

/-- Every populated page can be released. -/
theorem mem_allPages_of_populated {p : Nat} (h : populated p = true) : p ∈ allPages := by
  obtain ⟨r, hr⟩ := Option.isSome_iff_exists.1 h
  have hin := List.find?_some hr
  simp only [decide_eq_true_eq] at hin
  refine List.mem_flatMap.2 ⟨r, List.mem_of_find?_eq_some hr, List.mem_map.2 ⟨p - r.1, ?_, by omega⟩⟩
  exact List.mem_range.2 (by omega)

theorem home_mem_allPages {p : Nat} (h : populated p = true) : home p ∈ allPages := by
  unfold home
  split
  · exact mem_allPages_of_populated (by decide)
  · exact mem_allPages_of_populated h

/-- A reset of a master's port releases the locks that it holds (R32). -/
theorem masterReset_releases {s : State} {c q : Nat} (hq : q ∈ allPages) (hh : s.flag q 0 F.hdrLockHeld = true)
    (ho : s.get q 0 F.hdrLockOwner = c) : (s.masterReset c).get q 0 F.hdrLockHeld = 0 := by
  have quiet : SameLocks (s.releaseLocks c) (s.masterReset c) :=
    ((SameLocks.refl _).put (by decide)).trans (sameLocks_masterCut _ c)
  rw [(quiet q).1, releaseLocks_eq_foldl]
  exact foldl_releaseLock hq hh ho

theorem bit_withBit (w n : Nat) : bit (withBit w n) n = true := by
  simp [bit, withBit]

/-- A write of MST_CTRL with RESET at another master's port resets that port; its locks are as before until then. -/
theorem writeMstCtrl_of_reset {s : State} {m c w : Nat} (hw : bit w 31 = true) (hc : c ≠ m) :
    ∃ u, SameLocks s u ∧ s.writeMstCtrl m c w = u.masterReset c := by
  simp only [State.writeMstCtrl, hw, hc, decide_false, Bool.and_false, Bool.false_eq_true, if_false, if_true]
  refine ⟨_, ?_, rfl⟩
  split
  · exact (SameLocks.refl s).put (by decide)
  · exact (SameLocks.refl s).setErr

/-- What MASTER_RESET does to another master's port: what the master has in flight is cut, then the port is reset. -/
theorem exec_masterReset {s : State} {m : Fin 8} (h : s.accepts m 0x009 F.mtxMstCtrlReset.off = true)
    (hm : s.get 0x009 0 F.mtxMstIndexIndex ≠ m) (x : ResetWrite) :
    ∃ u, SameLocks s u ∧ exec (.masterReset m x) s = .next
      ((u.masterReset (s.get 0x009 0 F.mtxMstIndexIndex)).mirrorWrite m 0x009 F.mtxMstCtrlReset.off
        (withBit x.word.toNat 31)) := by
  have cell : (s.recordMarked 0x009 F.mtxMstCtrlReset.off).cellOf m 0x009 F.mtxMstCtrlReset.off =
      s.get 0x009 0 F.mtxMstIndexIndex := get_recordMarked _ _ _ _ _ _
  obtain ⟨u, hu, hw⟩ := writeMstCtrl_of_reset (bit_withBit x.word.toNat 31) hm
    (s := (s.recordMarked 0x009 F.mtxMstCtrlReset.off).cutBursts (s.get 0x009 0 F.mtxMstIndexIndex) x.bursts x.reads)
  refine ⟨u, ((sameLocks_recordMarked s _ _).trans (sameLocks_cutBursts _ _ _ _)).trans hu,
    congrArg Host.Outcome.next ((write_eq_of_accepts h _ _).trans ?_)⟩
  dsimp only
  rw [cell, if_neg hm, hw]

/-! ## Locks that a reset of their engine releases -/

theorem sameLocks_keyReset (s : State) : SameLocks s s.keyReset := by
  unfold State.keyReset
  extract_lets s' s1
  have abandoned : SameLocks s s1 := by
    unfold s1
    split
    · exact .put (.put (.of_regs (.refl s) rfl) (by decide)) (by decide)
    · exact .refl s
  split
  · exact abandoned.put (by decide)
  · exact abandoned

theorem sameLocks_bezReset (s : State) : SameLocks s s.bezReset := by
  unfold State.bezReset
  refine .foldl (.refl s) (fun x c => ?_) _
  exact .put (.put (.put (.put (.of_regs (.refl x) rfl) (by decide)) (by decide)) (by decide)) (by decide)

/-- Profile storage is no engine page: it lies below 0x010 (R55, R394). -/
theorem pageType_ne_profiles {p : Nat} (h : 0x010 ≤ p) : pageType p ≠ 0x004 := by
  unfold pageType
  split
  · rename_i r hr
    have hin := List.find?_some hr
    simp only [decide_eq_true_eq] at hin
    have rows : ∀ r ∈ pageRanges, r.2.2.1 = 0x004 → r.1 + r.2.1 ≤ 0x010 := by decide
    intro ht
    have := rows r (List.mem_of_find?_eq_some hr) ht
    omega
  · decide

/-- What an engine's reset leaves on its page beside its fields touches no lock. -/
theorem sameLocks_engineMarks {p : Nat} (h : pageType p ≠ 0x004) (s : State) : SameLocks s (s.engineMarks p) := by
  unfold State.engineMarks
  split
  · exact sameLocks_keyReset s
  · exact sameLocks_bezReset s
  · exact .of_regs (.refl s) rfl
  · exact .of_regs (.refl s) rfl
  · rename_i ht; exact absurd ht h
  · exact .refl s

/-- An engine reset releases the engine's lock as it begins (R32, R54). -/
theorem resetStart_releases {p : Nat} (h : pageType p ≠ 0x004) (warm : Bool) (s : State) :
    (State.resetStart warm s p).get p 0 F.hdrLockHeld = 0 := by
  unfold State.resetStart
  rw [get_of_regs (regs_waive _ _ _), (sameLocks_engineMarks h _ p).1, get_put_self]
  rfl

@[simp] theorem warmReset_recordMarked (s : State) (p off : Nat) : (s.recordMarked p off).warmReset = s.warmReset := by
  unfold State.recordMarked State.caveMark
  split
  · split <;> rfl
  · rfl

/-- A request for the reset of an engine page begins it, where nothing absorbs it (R53, R55). -/
theorem requestReset_of_engine {s : State} {m p : Nat} (hp : 0x010 ≤ p) (hpop : populated p = true)
    (hr : s.resetting p = false) (hw : s.warmReset = false) (w : Nat) :
    ∃ u, s.requestReset m p w = State.resetStart false u (home p) := by
  unfold State.requestReset
  rw [if_neg (by simp [hpop]; omega), if_neg (by simp [hr, hw])]
  exact ⟨_, rfl⟩

/-- The word of DEV.RESET that asks for the reset of a page's engine (R53). -/
def engineResetWord (page : Nat) : Nat := 0xA5C3 * 2 ^ 16 + 1 * 2 ^ 14 + page

theorem writeDevReset_engineResetWord {page : Nat} (h : page < 4096) (s : State) (m : Nat) :
    s.writeDevReset m (engineResetWord page) = s.requestReset m page (engineResetWord page) := by
  have key : F.devResetKey.extract (engineResetWord page) = 0xA5C3 := by
    simp only [Field.extract, Field.modulus, F.devResetKey, engineResetWord]; omega
  have scope : F.devResetScope.extract (engineResetWord page) = 1 := by
    simp only [Field.extract, Field.modulus, F.devResetScope, engineResetWord]; omega
  have target : F.devResetPage.extract (engineResetWord page) = page := by
    simp only [Field.extract, Field.modulus, F.devResetPage, engineResetWord]; omega
  simp [State.writeDevReset, key, scope, target]

theorem exec_devResetEngine {s : State} {m : Fin 8} (h : s.accepts m pgDev F.devResetKey.off = true) (page : Fin 4096) :
    exec (.devResetEngine m page) s = .next
      (((s.recordMarked pgDev F.devResetKey.off).requestReset m page (engineResetWord page)).mirrorWrite m pgDev
        F.devResetKey.off (engineResetWord page)) := by
  refine congrArg Host.Outcome.next ((write_eq_of_accepts h _ _).trans ?_)
  exact congrArg (fun x : State => x.mirrorWrite m pgDev F.devResetKey.off (engineResetWord page))
    (writeDevReset_engineResetWord page.isLt _ _)

/-! ## Writes over the page bus -/

/-- Requests above the boot placement go to the address that they name, wherever REMAP puts T0 (R49). -/
theorem place_of_high {a : Nat} (h : 0x10100000 ≤ a) (s : State) : s.place a = some a := by
  unfold State.place
  split
  · rw [if_neg (by omega), if_neg (by omega), if_neg (by omega)]
  · rfl

theorem targetOf_pages {a : Nat} (h : 0x40000000 ≤ a) (h' : a < 0x41000000) : targetOf a = some .pages := by
  unfold targetOf
  rw [if_neg (by omega), if_neg (by omega), if_neg (by omega), if_neg (by omega), if_pos ⟨h, h'⟩]

/-- A write to a word of a page's window in T5 is a write of that register (R26, R45). -/
theorem exec_registerWrite_page {s : State} {m : Fin 8} (hc : s.controlReset = false) (hm : s.masterOpen m = true)
    (page : Fin 4096) {off : Nat} (hoff : off < 0x1000) (h4 : off % 4 = 0) (w : Word) :
    exec (.registerWrite m (.internal (0x40000000 + page.val * 0x1000 + off)) w) s =
      .next (s.write m page off w.toNat fun s => s.pageWrite m page off w.toNat) := by
  have hpage := page.isLt
  have decoded : s.decoded (0x40000000 + page.val * 0x1000 + off) = 0x40000000 + page.val * 0x1000 + off := by
    rw [State.decoded, place_of_high (by omega)]; rfl
  have index : (0x40000000 + page.val * 0x1000 + off - 0x40000000) / 0x1000 = page := by omega
  have offset : (0x40000000 + page.val * 0x1000 + off) % 0x1000 = off := by omega
  refine congrArg Host.Outcome.next ?_
  change s.busWrite m (0x40000000 + page.val * 0x1000 + off) w.toNat = _
  rw [State.busWrite, decoded]
  simp [State.busNative, hc, hm, targetOf_pages (a := 0x40000000 + page.val * 0x1000 + off) (by omega) (by omega),
    State.busPage, index, offset, h4]

/-! ### Writes that a lock keeps out -/

theorem lockedOut_of_held {s : State} {m p off : Nat} (hg : lockGuards off = true) (hr : s.role ≠ roleShadow)
    (hh : s.flag (home p) 0 F.hdrLockHeld = true) (ho : s.get (home p) 0 F.hdrLockOwner ≠ m) :
    s.lockedOut m p off = true := by
  simp [State.lockedOut, hg, hr, hh, ho]

theorem accepts_of_lockedOut {s : State} {m p off : Nat} (h : s.lockedOut m p off = true) :
    s.accepts m p off = false := by
  simp [State.accepts, h]

/-- A write that the page would take but for its lock sets LOCK_VIOLATION and nothing else (R32). -/
theorem rejectWrite_of_lock {s : State} {m p off : Nat} (hc : s.controlReset = false) (hm : s.masterOpen m = true)
    (hp : populated p = true) (hoff : off < 0x800) (hr : s.resetting p = false) :
    s.rejectWrite m p off = s.setErr p errLockViolation := by
  simp [State.rejectWrite, hc, hm, hp, hr, Nat.not_le.2 hoff]

/-! ### Writes of the W1C status registers -/

/-- The W1C status registers take a write of any master, whoever holds the lock (R32). -/
theorem accepts_statusReg {s : State} {m p off : Nat} (hc : s.controlReset = false) (hm : s.masterOpen m = true)
    (hp : populated p = true) (h : off = 0x010 ∨ off = 0x018 ∨ off = 0x03C) : s.accepts m p off = true := by
  obtain rfl | rfl | rfl := h <;> simp [State.accepts, hc, hm, hp, statusReg, State.lockedOut, lockGuards]

/-- A write of ERR or of INT_STAT clears the bits that are written as ones (R9). -/
theorem pageWrite_statusField {f : Field} (hf : f ∈ [F.hdrErr, F.hdrIntStat]) (s : State) (m p w : Nat) :
    s.pageWrite m p f.off w = s.put p 0 f (s.get p 0 f &&& (2 ^ 32 - 1 - w % 2 ^ 32)) := by
  have header : s.pageWrite m p f.off w = s.writeFields p 0 false w (fieldsAt p f.off) := by
    revert f; simp [State.pageWrite, State.writeHeader, F.hdrErr, F.hdrIntStat, F.hdrRestorePolicyPolicy]
  have fields : fieldsAt p f.off = [f] := by
    simp only [List.mem_cons, List.not_mem_nil, or_false] at hf
    obtain rfl | rfl := hf <;> rfl
  have access : ∀ f ∈ [F.hdrErr, F.hdrIntStat], f.access = .w1c ∧ f.lo = 0 ∧ f.width = 32 := by decide
  obtain ⟨hw1c, hlo, hwidth⟩ := access f hf
  rw [header, fields]
  simp [State.writeFields, State.writeField, hw1c, hlo, hwidth, Field.extract, Field.modulus]

/-- A write of FAULT with VALID clears VALID on the engine's first page (R29). -/
theorem get_pageWrite_fault {w : Nat} (hw : F.hdrFaultValid.extract w = 1) (s : State) (m p : Nat) :
    (s.pageWrite m p 0x03C w).get (home p) 0 F.hdrFaultValid = 0 := by
  have cleared : s.pageWrite m p 0x03C w = s.writeFaultClear (home p) w := by
    simp [State.pageWrite, State.writeHeader, F.hdrErr, F.hdrIntStat, F.hdrIntEn, F.hdrCommit, F.hdrLockHeld,
      F.hdrFaultValid, F.hdrRestorePolicyPolicy]
  rw [cleared, State.writeFaultClear, if_pos hw, get_put_slot (by decide), get_put_self]
  rfl

/-! ## The statement -/

/-- A write to a register that the lock guards, by a master that does not hold it. -/
theorem guardedWrite_dropped {s : State} {m : Fin 8} {page : Fin 4096} {off : Nat} (hc : s.controlReset = false)
    (hm : s.masterOpen m = true) (hp : populated page = true) (hr : s.resetting page = false)
    (hrole : s.role ≠ roleShadow) (hh : s.flag (home page) 0 F.hdrLockHeld = true)
    (ho : s.get (home page) 0 F.hdrLockOwner ≠ m) (hg : lockGuards off = true) (hoff : off < 0x800) (h4 : off % 4 = 0)
    (w : Word) : exec (.registerWrite m (.internal (0x40000000 + page.val * 0x1000 + off)) w) s =
      .next (s.setErr page errLockViolation) := by
  have locked := accepts_of_lockedOut (lockedOut_of_held hg hrole hh ho)
  rw [exec_registerWrite_page hc hm page (by omega) h4, write_rejected locked, rejectWrite_of_lock hc hm hp hoff hr]

theorem lockGuards_of_offset {off : Nat}
    (h : off ∈ [0x014, 0x01C, 0x020, 0x024, 0x028, 0x038] ∨ (0x080 ≤ off ∧ off < 0x800 ∧ off % 4 = 0)) :
    lockGuards off = true ∧ off < 0x800 ∧ off % 4 = 0 := by
  obtain h | ⟨hlo, hhi, h4⟩ := h
  · revert off; decide
  · exact ⟨by simp [lockGuards, hlo], hhi, h4⟩

/-- Settles O9, by what each access meets: the lock, the status registers that it does not guard, the two resets that release
it. -/
theorem lockKeepsOthersOut : Obligations.LockKeepsOthersOut := by
  unfold Obligations.LockKeepsOthersOut
  refine ⟨?guarded, ?read, ?status, ?portReset, ?engineReset⟩
  case guarded =>
    intro m page off w s hc hm hp hr hrole hh ho h
    obtain ⟨hg, hoff, h4⟩ := lockGuards_of_offset h
    rw [completes_iff_of_exec (guardedWrite_dropped hc hm hp hr hrole hh ho hg hoff h4 w)]
    exact ⟨errSet_setErr (by decide) s page, onlyFields_setErr s page _, sameMemory_of_mem (by simp)⟩
  case read =>
    intro m page off s hc hm
    rw [completes_iff_of_exec (exec_pageRead hc hm page off)]
    exact ⟨_, answered_answer _ _ _⟩
  case status =>
    intro m page off w s hc hm hp
    refine ⟨fun hoff => ?_, fun hw => ?_⟩
    · have taken := accepts_statusReg (p := page) (off := off) hc hm hp (by omega)
      rw [completes_iff_of_exec (exec_registerWrite_page hc hm page (by omega) (by omega) w), write_eq_of_accepts taken]
      rintro f hf rfl
      have modulus : ∀ f ∈ [F.hdrErr, F.hdrIntStat], f.modulus = 2 ^ 32 := by decide
      rw [get_mirrorWrite, pageWrite_statusField hf, get_put_self, get_recordMarked, modulus f hf,
        Nat.mod_eq_of_lt w.isLt]
    · have taken := accepts_statusReg (p := page) (off := 0x03C) hc hm hp (by omega)
      rw [completes_iff_of_exec (exec_registerWrite_page hc hm page (by omega) (by omega) w), write_eq_of_accepts taken,
        get_mirrorWrite]
      exact get_pageWrite_fault hw _ _ _
  case portReset =>
    intro m x page s ha hm hp hh ho
    obtain ⟨u, hu, he⟩ := exec_masterReset ha hm x
    rw [completes_iff_of_exec he, get_mirrorWrite]
    exact masterReset_releases (home_mem_allPages hp) ((hu.flag _).trans hh) ((hu _).2.trans ho)
  case engineReset =>
    intro m page s ha hpage hp hr hw
    have hr' : (s.recordMarked pgDev F.devResetKey.off).resetting page = false := by simpa [State.resetting] using hr
    obtain ⟨u, hu⟩ := requestReset_of_engine (m := m) hpage hp hr' (by simpa using hw) (engineResetWord page)
    rw [completes_iff_of_exec (exec_devResetEngine ha page), get_mirrorWrite, hu]
    have self : home page = page := by unfold home; rw [if_neg (by omega)]
    exact resetStart_releases (pageType_ne_profiles (by omega)) false u

end Sys2Proof.Machine

/-! # The position of a timebase reads as one (R63)

A read of FRAME_LO latches the words behind it, and the reads of FRAME_HI and POS spend those latches, whatever time it is. -/

namespace Sys2Proof.Machine

/-! ## Fields and words that the device computes -/

theorem fieldReads_of_computed {s : State} {m p c off v : Nat} {image : Bool} {f : Field} (ha : f.access ≠ .wo)
    (h : s.computed m p c off f = some v) : s.fieldReads m p c off image f = v % f.modulus := by
  simp [State.fieldReads, ha, h]

/-- A register word beyond the common header is the sum of its fields (R27). -/
theorem wordReads_of_fields {p off : Nat} (hp : pageType p ≠ 0x043) (hoff : 0x080 ≤ off) (s : State) (m : Nat)
    (image : Bool) : s.wordReads m p off image =
      (fieldsAt p off).foldl (fun n f => n + s.fieldReads m p (s.cellOf m p off) off image f * 2 ^ f.lo) 0 := by
  have status : F.hdrStatusEng.off < 0x080 := by decide
  simp only [State.wordReads, hp, false_and, decide_false, Bool.false_and, Bool.false_eq_true, if_false,
    if_neg (show off ≠ 0x000 by omega), if_neg (show off ≠ 0x004 by omega), if_neg (show ¬ off < 0x080 by omega),
    if_neg (show off ≠ F.hdrStatusEng.off by omega)]

/-- A read changes no register where none of the word's fields is RC (R9). -/
theorem clearRead_of_no_rc {p off : Nat} (h : ∀ f ∈ fieldsAt p off, f.access ≠ .rc) (s : State) (c : Nat) :
    s.clearRead p c off = s :=
  List.foldlRecOn (motive := fun u : State => u = s) _ _ rfl fun u hu f hf => by
    rw [if_neg (h f hf)]; exact hu

/-! ## The pages of the timebases -/

theorem pageType_tb (k : Fin 4) : pageType (pgTb k) = 0x020 := by revert k; decide

theorem populated_tb (k : Fin 4) : populated (pgTb k) = true := by revert k; decide

theorem fieldsAt_frameLo (k : Fin 4) : fieldsAt (pgTb k) 0x0A8 = [F.tbFrameLo] := by revert k; decide

theorem fieldsAt_frameHi (k : Fin 4) : fieldsAt (pgTb k) 0x0AC = [F.tbFrameHi] := by revert k; decide

theorem fieldsAt_pos (k : Fin 4) : fieldsAt (pgTb k) 0x0B0 = [F.tbPosLine, F.tbPosSample] := by revert k; decide

/-- FRAME_LO latches the rest of the position (R63). -/
theorem latchedBy_frameLo (k : Fin 4) : latchedBy (pgTb k) 0x0A8 = [0x0AC, 0x0B0] := by revert k; decide

theorem computed_tb (k : Fin 4) {off : Nat} (hoff : 0x080 ≤ off) (s : State) (m c : Nat) (f : Field) :
    s.computed m (pgTb k) c off f = s.tbNow k f := by
  simp only [State.computed, if_neg (Nat.not_lt.2 hoff), pageType_tb, Nat.add_zero, Nat.add_sub_cancel_left]

/-- A field of a timebase's word that the device computes. -/
theorem fieldReads_tb {k : Fin 4} {v : Nat} (off : Nat) (hoff : 0x080 ≤ off) {s : State} {f : Field} (ha : f.access ≠ .wo)
    (h : s.tbNow k f = some v) (m c : Nat) (image : Bool) :
    s.fieldReads m (pgTb k) c off image f = v % f.modulus :=
  fieldReads_of_computed ha ((computed_tb k hoff s m c f).trans h)

section

variable (s : State) (m : Nat) (k : Fin 4)

theorem wordReads_frameLo : s.wordReads m (pgTb k) 0x0A8 false = (s.tb k).frame % 2 ^ 32 := by
  have frame : s.tbNow k F.tbFrameLo = some ((s.tb k).frame % 2 ^ 32) := rfl
  rw [wordReads_of_fields (by simp [pageType_tb]) (by decide), fieldsAt_frameLo]
  simp only [List.foldl_cons, List.foldl_nil, fieldReads_tb 0x0A8 (by decide) (by decide) frame]
  simp [F.tbFrameLo, Field.modulus]

theorem wordReads_frameHi : s.wordReads m (pgTb k) 0x0AC false = (s.tb k).frame / 2 ^ 32 % 2 ^ 16 := by
  have frame : s.tbNow k F.tbFrameHi = some ((s.tb k).frame / 2 ^ 32) := rfl
  rw [wordReads_of_fields (by simp [pageType_tb]) (by decide), fieldsAt_frameHi]
  simp only [List.foldl_cons, List.foldl_nil, fieldReads_tb 0x0AC (by decide) (by decide) frame]
  simp [F.tbFrameHi, Field.modulus]

theorem wordReads_pos (h : (s.tb k).state ≠ .off) : s.wordReads m (pgTb k) 0x0B0 false =
    (s.tb k).line s.now % 2 ^ 13 * 2 ^ 16 + (s.tb k).sample s.now % 2 ^ 16 := by
  have line : s.tbNow k F.tbPosLine = some ((s.tb k).line s.now) :=
    congrArg some (if_pos (decide_eq_true h))
  have sample : s.tbNow k F.tbPosSample = some ((s.tb k).sample s.now) :=
    congrArg some (if_pos (decide_eq_true h))
  rw [wordReads_of_fields (by simp [pageType_tb]) (by decide), fieldsAt_pos]
  simp only [List.foldl_cons, List.foldl_nil, fieldReads_tb 0x0B0 (by decide) (by decide) line,
    fieldReads_tb 0x0B0 (by decide) (by decide) sample]
  simp [F.tbPosLine, F.tbPosSample, Field.modulus]

end

/-! ## The three reads -/

/-- A read of FRAME_LO answers the frame number's low word and latches the rest of the position for the master (R63). -/
theorem exec_frameLoRead {s : State} {m : Fin 8} {k : Fin 4} {page : Fin 4096} (hpage : page.val = pgTb k)
    (hc : s.controlReset = false) (hm : s.masterOpen m = true)
    (h : Assoc.find Key.code (latchKey m (pgTb k) 0x0A8) s.latch = none) :
    exec (.loRegisterRead m (.page page) 0x0A8) s =
      .next ({ s with latch := s.latchWords m (pgTb k) [0x0AC, 0x0B0] s.latch }.answer m
        (.data ((s.tb k).frame % 2 ^ 32))) := by
  have plain : plainRead (pgTb k) 0x0A8 = true := by clear hpage h; revert k; decide
  have keeps (c : Nat) : s.clearRead (pgTb k) c 0x0A8 = s :=
    clearRead_of_no_rc (by rw [fieldsAt_frameLo]; decide) s c
  rw [exec_pageRead hc hm, hpage, pageRead_of_register (populated_tb k) (by decide) (by decide),
    registerRead_of_plain plain h, wordReads_frameLo, keeps, latchedBy_frameLo]

/-- A read of a register that is latched for the master answers the latched word and spends the latch (R28). -/
theorem completes_latchedRead {s : State} {m : Fin 8} {page : Fin 4096} {off v : Nat} {facts : State → Prop}
    (hc : s.controlReset = false) (hm : s.masterOpen m = true) (hp : populated page = true) (h4 : off % 4 = 0)
    (hoff : off < 0x800) (h : Assoc.find Key.code (latchKey m page off) s.latch = some v)
    (hf : facts ({ s with latch := Assoc.erase Key.code (latchKey m page off) s.latch }.answer m (.data v))) :
    Completes (.loRegisterRead m (.page page) off) s facts := by
  rw [completes_iff_of_exec (exec_pageRead hc hm page off), pageRead_of_register hp h4 hoff, registerRead_of_latched h]
  exact hf

/-- Settles O11: both words behind FRAME_LO are latched by its read, and each later read answers its own latch. -/
theorem frameReadIsOnePosition : Obligations.FrameReadIsOnePosition := by
  unfold Obligations.FrameReadIsOnePosition
  intro m k page s later stillLater hpage hc hm hfree hon
  have hp : populated page = true := hpage ▸ populated_tb k
  have hiLatched := find_latchWords_mem (s := s) (m := m) (p := page) (o := 0x0AC) (offs := [0x0AC, 0x0B0])
    (by simp) s.latch
  have posLatched := find_latchWords_mem (s := s) (m := m) (p := page) (o := 0x0B0) (offs := [0x0AC, 0x0B0])
    (by simp) s.latch
  have posKept : Assoc.find Key.code (latchKey m page 0x0B0) (Assoc.erase Key.code (latchKey m page 0x0AC)
      (s.latchWords m page [0x0AC, 0x0B0] s.latch)) = some (s.wordReads m page 0x0B0 false) := by
    rw [find_erase, if_neg (by simp [key_code_inj, latchKey_inj]), posLatched]
  rw [completes_iff_of_exec (exec_frameLoRead hpage hc hm hfree), ← hpage]
  refine ⟨answered_answer _ _ _, completes_latchedRead hc hm hp (by decide) (by decide) hiLatched ⟨?_, ?_⟩⟩
  · rw [answered_answer, hpage, wordReads_frameHi]
  · refine completes_latchedRead hc hm hp (by decide) (by decide) posKept ?_
    rw [answered_answer, hpage, wordReads_pos s m k hon]

end Sys2Proof.Machine

/-! # The done log (R81)

What raising an interrupt bit leaves as it was, then what an applied event leaves in the schedule and in the log, then the
read of DONE. -/

namespace Sys2Proof.Machine

/-! ## Raising an interrupt bit -/

/-- A message is sent, or its vector's pending bit is set; nothing else changes (R40). -/
theorem sendMsix_eq (s : State) (p : Nat) :
    ∃ out pend, s.sendMsix p = { s with out := out, msixPending := pend } := by
  unfold State.sendMsix
  dsimp only
  split
  · exact ⟨s.out, _, rfl⟩
  · exact ⟨_, s.msixPending, rfl⟩

/-- Raising an interrupt bit writes INT_STAT and sends a message or marks its vector as pending (R40). -/
theorem raise_eq (s : State) (p b : Nat) : ∃ out pend, s.raise p b =
    { s.put p 0 F.hdrIntStat (withBit (s.get p 0 F.hdrIntStat) b) with out := out, msixPending := pend } := by
  unfold State.raise State.notifyFrom
  split
  · exact sendMsix_eq _ p
  · exact ⟨s.out, s.msixPending, rfl⟩

@[simp] theorem doneLog_raise (s : State) (p b : Nat) : (s.raise p b).doneLog = s.doneLog := by
  obtain ⟨_, _, h⟩ := raise_eq s p b
  rw [h, put_doneLog]

@[simp] theorem doneOvf_raise (s : State) (p b : Nat) : (s.raise p b).doneOvf = s.doneOvf := by
  obtain ⟨_, _, h⟩ := raise_eq s p b
  rw [h, put_doneOvf]

@[simp] theorem events_raise (s : State) (p b : Nat) : (s.raise p b).events = s.events := by
  obtain ⟨_, _, h⟩ := raise_eq s p b
  rw [h, put_events]

theorem intSet_raise {b : Nat} (h : b < 32) (s : State) (p : Nat) : (s.raise p b).intSet p b := by
  unfold State.intSet
  rw [get_raise, if_pos ⟨rfl, rfl, rfl⟩]
  exact bit_withBit_mod h _

theorem onlyFields_raise (s : State) (p b : Nat) : OnlyFields s (s.raise p b) (Names p 0 F.hdrIntStat) := by
  intro p' c' f' h
  rw [get_raise, if_neg (fun ⟨hp, hc, hf⟩ => h ⟨hp.symm, hc.symm, hf.symm⟩)]

/-! ## A push into the log -/

theorem pushDone_of_room {s : State} (h : s.doneLog.length < 64) (n : Nat) :
    s.pushDone n = { s with doneLog := s.doneLog ++ [n] }.raise pgSched 16 := by
  rw [State.pushDone, if_pos h]

theorem pushDone_of_full {s : State} (h : 64 ≤ s.doneLog.length) (n : Nat) :
    s.pushDone n = { s with doneOvf := true }.raise pgSched 16 := by
  rw [State.pushDone, if_neg (Nat.not_lt.2 h)]

/-- A push is the interrupt bit raised on a state that differs in the log and its overflow alone. -/
theorem pushDone_eq (s : State) (n : Nat) : ∃ log ovf,
    s.pushDone n = { s with doneLog := log, doneOvf := ovf }.raise pgSched 16 := by
  obtain h | h := Nat.lt_or_ge s.doneLog.length 64
  · exact ⟨_, s.doneOvf, pushDone_of_room h n⟩
  · exact ⟨s.doneLog, _, pushDone_of_full h n⟩

theorem intSet_pushDone (s : State) (n : Nat) : (s.pushDone n).intSet pgSched 16 :=
  intSet_raise (by decide) _ _

/-- While the log has room the handle goes to its end (R81). -/
theorem pushDone_logs {s : State} (h : s.doneLog.length < 64) (n : Nat) :
    (s.pushDone n).doneLog = s.doneLog ++ [n] ∧ (s.pushDone n).doneOvf = s.doneOvf := by
  rw [pushDone_of_room h, doneLog_raise, doneOvf_raise]
  exact ⟨rfl, rfl⟩

/-- A full log keeps what it holds and notes that it has discarded a handle (R81). -/
theorem pushDone_overflows {s : State} (h : 64 ≤ s.doneLog.length) (n : Nat) :
    (s.pushDone n).doneLog = s.doneLog ∧ (s.pushDone n).doneOvf = true := by
  rw [pushDone_of_full h, doneLog_raise, doneOvf_raise]
  exact ⟨rfl, rfl⟩

theorem onlyFields_pushDone (s : State) (n : Nat) : OnlyFields s (s.pushDone n) (Names pgSched 0 F.hdrIntStat) := by
  obtain ⟨log, ovf, h⟩ := pushDone_eq s n
  rw [h]
  exact onlyFields_raise { s with doneLog := log, doneOvf := ovf } _ _

@[simp] theorem mem_pushDone (s : State) (n : Nat) : (s.pushDone n).mem = s.mem := by
  obtain ⟨_, _, h⟩ := pushDone_eq s n
  rw [h, mem_raise]

@[simp] theorem pendingEvent_pushDone (s : State) (n h : Nat) : (s.pushDone n).pendingEvent h = s.pendingEvent h := by
  obtain ⟨_, _, hp⟩ := pushDone_eq s n
  rw [State.pendingEvent, hp, events_raise]
  rfl

/-! ## An event that applies -/

/-- An applied event leaves the schedule, and its slot keeps how it ended (R80). -/
theorem endEvent_applied (s : State) (h : Nat) : s.endEvent h .applied =
    { s with
      events := s.events.filter fun e => decide (e.handle ≠ h)
      evSlots := Tab.put (handleSlot h) ⟨handleGen h, .applied⟩ s.evSlots } := by
  simp [State.endEvent]

@[simp] theorem doneLog_endEvent_applied (s : State) (h : Nat) : (s.endEvent h .applied).doneLog = s.doneLog := by
  rw [endEvent_applied]

@[simp] theorem doneOvf_endEvent_applied (s : State) (h : Nat) : (s.endEvent h .applied).doneOvf = s.doneOvf := by
  rw [endEvent_applied]

@[simp] theorem mem_endEvent_applied (s : State) (h : Nat) : (s.endEvent h .applied).mem = s.mem := by
  rw [endEvent_applied]

@[simp] theorem regs_endEvent_applied (s : State) (h : Nat) : (s.endEvent h .applied).regs = s.regs := by
  rw [endEvent_applied]

@[simp] theorem pendingEvent_endEvent_applied (s : State) (h : Nat) :
    (s.endEvent h .applied).pendingEvent h = none := by
  simp [endEvent_applied, State.pendingEvent]

/-- The events that tell of their end: those with NOTIFY, and those of the NOTIFY kind (R81). -/
abbrev Notifies (e : Event) : Prop := e.notify = true ∨ e.kind = .notify

theorem appliedEvent_of_notifies {e : Event} (h : Notifies e) (s : State) :
    s.appliedEvent e = (s.endEvent e.handle .applied).pushDone e.handle := by
  obtain h | h := h <;> simp [State.appliedEvent, h]

theorem appliedEvent_of_silent {e : Event} (hn : e.notify = false) (hk : e.kind ≠ .notify) (s : State) :
    s.appliedEvent e = s.endEvent e.handle .applied := by
  simp [State.appliedEvent, hn, hk]

section

variable {e : Event} (h : Notifies e) (s : State)
include h

theorem intSet_appliedEvent : (s.appliedEvent e).intSet pgSched 16 := by
  rw [appliedEvent_of_notifies h]
  exact intSet_pushDone _ _

theorem appliedEvent_logs (hroom : s.doneLog.length < 64) :
    (s.appliedEvent e).doneLog = s.doneLog ++ [e.handle] ∧ (s.appliedEvent e).doneOvf = s.doneOvf := by
  simpa [appliedEvent_of_notifies h] using
    pushDone_logs (s := s.endEvent e.handle .applied) (by simpa using hroom) e.handle

theorem appliedEvent_overflows (hfull : 64 ≤ s.doneLog.length) :
    (s.appliedEvent e).doneLog = s.doneLog ∧ (s.appliedEvent e).doneOvf = true := by
  simpa [appliedEvent_of_notifies h] using
    pushDone_overflows (s := s.endEvent e.handle .applied) (by simpa using hfull) e.handle

theorem onlyFields_appliedEvent : OnlyFields s (s.appliedEvent e) (Names pgSched 0 F.hdrIntStat) := by
  intro p c f hf
  rw [appliedEvent_of_notifies h, onlyFields_pushDone _ _ p c f hf, get_of_regs (regs_endEvent_applied s _)]

theorem mem_appliedEvent : (s.appliedEvent e).mem = s.mem := by
  rw [appliedEvent_of_notifies h, mem_pushDone, mem_endEvent_applied]

/-- No event is pending under the handle of one that has applied. -/
theorem pendingEvent_appliedEvent : (s.appliedEvent e).pendingEvent e.handle = none := by
  rw [appliedEvent_of_notifies h, pendingEvent_pushDone, pendingEvent_endEvent_applied]

end

theorem handle_of_pendingEvent {s : State} {h : Nat} {e : Event} (hp : s.pendingEvent h = some e) : e.handle = h := by
  simpa using List.find?_some hp

/-- A NOTIFY event that reaches its point applies (R76). -/
theorem exec_notifyEvent {s : State} {h : BitVec 16} {e : Event} (hp : s.pendingEvent h.toNat = some e)
    (hk : e.kind = .notify) : exec (.notifyEvent h) s = .next (s.appliedEvent e) := by
  change execNotifyEvent h s = _
  simp [execNotifyEvent, hp, hk]

/-! ## A read of DONE -/

/-- A read of DONE through a port that is open answers the log's head word and takes the oldest handle. -/
theorem exec_doneRead {s : State} {m : Fin 8} (hc : s.controlReset = false) (hm : s.masterOpen m = true)
    (h : Assoc.find Key.code (latchKey m pgSched F.schedDoneHandle.off) s.latch = none) :
    exec (.doneRead m) s = .next (s.doneRead.2.answer m (.data s.doneRead.1)) := by
  have read : s.pageRead m pgSched F.schedDoneHandle.off = s.doneRead := by
    refine (pageRead_of_register (off := F.schedDoneHandle.off) (by decide) (by decide) (by decide) s m).trans ?_
    simp [State.registerRead, h]
  change Host.Outcome.next (s.readAs m fun s => s.pageRead m pgSched F.schedDoneHandle.off) = _
  simp [State.readAs, hc, hm, read]

theorem doneRead_cons {s : State} {h : Nat} {rest : List Nat} (hl : s.doneLog = h :: rest) :
    s.doneRead = (2 ^ 31 + ofBool s.doneOvf * 2 ^ 30 + h, { s with doneLog := rest, doneOvf := false }) := by
  simp only [State.doneRead, hl]
  rfl

theorem doneRead_nil {s : State} (hl : s.doneLog = []) :
    s.doneRead = (ofBool s.doneOvf * 2 ^ 30, { s with doneOvf := false }) := by
  simp only [State.doneRead, hl]
  rfl

/-- Settles O24, by what an applied event does with the log (room, full, no notification) and what a read takes from it. -/
theorem doneLogKeepsOrder : Obligations.DoneLogKeepsOrder := by
  unfold Obligations.DoneLogKeepsOrder
  refine ⟨?notified, ?silent, ?notifyKind, ?read⟩
  case notified =>
    intro e s hn
    exact ⟨intSet_appliedEvent (.inl hn) s, appliedEvent_logs (.inl hn) s, appliedEvent_overflows (.inl hn) s⟩
  case silent =>
    intro e s hn hk
    rw [appliedEvent_of_silent hn hk, doneLog_endEvent_applied]
  case notifyKind =>
    intro h e s hp hk
    rw [completes_iff_of_exec (exec_notifyEvent hp hk), ← handle_of_pendingEvent hp]
    exact ⟨pendingEvent_appliedEvent (.inr hk) s, intSet_appliedEvent (.inr hk) s, appliedEvent_logs (.inr hk) s,
      appliedEvent_overflows (.inr hk) s, onlyFields_appliedEvent (.inr hk) s,
      sameMemory_of_mem (mem_appliedEvent (.inr hk) s)⟩
  case read =>
    intro m s hc hm hlatch
    refine ⟨fun h rest hl => ?_, fun hl => ?_⟩
    · rw [completes_iff_of_exec (exec_doneRead hc hm hlatch), doneRead_cons hl]
      exact ⟨answered_answer _ _ _, rfl, rfl, fun _ _ _ _ => rfl, sameMemory_of_mem rfl⟩
    · rw [completes_iff_of_exec (exec_doneRead hc hm hlatch), doneRead_nil hl]
      exact ⟨answered_answer _ _ _, hl, rfl, fun _ _ _ _ => rfl, sameMemory_of_mem rfl⟩

end Sys2Proof.Machine
